-- ==== Sys2Proof/Word.lean ====
section
/-! DEFINITION. The byte and the sparse map that the model's tables and unit records are held in. -/
namespace Sys2Proof

/-- One byte. -/
abbrev Byte := BitVec 8

/-- A sparse map from numbers, in the canonical form that `SMap.wf` says: rising keys, and no entry equal to what
an unlisted key reads as. -/
abbrev SMap (α : Type) := List (Nat × α)

/-- What key `k` reads as; `d` gives what an unlisted key reads as. -/
def SMap.get {α : Type} (d : Nat → α) : SMap α → Nat → α
  | [], k => d k
  | (j, v) :: m, k => if j = k then v else SMap.get d m k

/-- The map without key `k`. -/
def SMap.drop {α : Type} : SMap α → Nat → SMap α
  | [], _ => []
  | (j, v) :: m, k => if j = k then SMap.drop m k else (j, v) :: SMap.drop m k

/-- The map with key `k` placed before the first greater key. -/
def SMap.place {α : Type} : SMap α → Nat → α → SMap α
  | [], k, x => [(k, x)]
  | (j, v) :: m, k, x => if k < j then (k, x) :: (j, v) :: m else (j, v) :: SMap.place m k x

/-- The map with key `k` reading as `x`. -/
def SMap.put {α : Type} [DecidableEq α] (d : Nat → α) (m : SMap α) (k : Nat) (x : α) : SMap α :=
  if x = d k then m.drop k else (m.drop k).place k x

/-- The canonical form: every key greater than `lo`, keys rising, no entry at its unlisted value. -/
def SMap.wfFrom {α : Type} [DecidableEq α] (d : Nat → α) : Option Nat → SMap α → Bool
  | _, [] => true
  | lo, (j, v) :: m =>
    (match lo with | none => true | some l => decide (l < j)) && decide (v ≠ d j) && SMap.wfFrom d (some j) m

/-- The canonical form of a sparse map. -/
def SMap.wf {α : Type} [DecidableEq α] (d : Nat → α) (m : SMap α) : Bool := SMap.wfFrom d none m

end Sys2Proof
end

