-- ==== Sys2Proof/Syntax.lean ====
section
/-! DEFINITION. The commands of the SZ5128: one constructor of `Instr` per row of the table of operations and
events, with the operands that the environment brings. A host command carries the header of its KOP request. -/
namespace Sys2Proof

/-- A logical channel 0..511 (R5). -/
abbrev ChanNo := Fin 512
/-- A group G0..G15 (R5). -/
abbrev GroupNo := Fin 16

/-- The header of a KOP request (R370, R371): session, REQ_SEQ, the peer's address and UDP port, the NET port of
arrival, the MAC: absent, or present and right or wrong (R372, R375), and the source MAC address of its frame (R362). -/
structure Hdr where
  sess : Nat
  seq : Nat
  ip : Nat
  udp : Nat
  port : Nat
  mac : Option Bool
  eth : Nat
  deriving DecidableEq, Repr

/-- A value as a write carries it: wire bytes under a type code (R43), or a number already in the object's type. -/
inductive WireVal where
  | raw (code : Nat) (bytes : List Byte)
  | num (n : Int)
  deriving DecidableEq, Repr

/-- What one slot brings to a tick (R162, R164): the quantiser codes −3..3 of its two modulators since the last tick, oldest first,
at 32 MS/s, and whether the clamp or limiter acted in the tick period (R80). -/
structure SlotIn where
  slot : Nat
  v : List Int
  i : List Int
  act : Bool
  deriving DecidableEq, Repr

/-- What one channel's Reeds see at a latch (R277): the sense voltage and the shunt voltage in units of 1/1024 of
nominal full scale of the ranges in force. -/
structure ReedIn where
  ch : Nat
  v : Int
  i : Int
  deriving DecidableEq, Repr

/-- What the clock monitor finds of a timebase at the end of a window (R20): within limits, stopped, fast or slow. -/
inductive ClkState where
  | good | stopped | fast | slow
  deriving DecidableEq, Repr

/-- The class a unit chooses for a kind marked "as reported" (R333), and the class a report takes (R334). -/
inductive FClass where
  | note | transient | severe | grave
  deriving DecidableEq, Repr

/-- A coded fault message (Table "Fault message", R330), with the class of a kind marked "as reported". -/
structure FaultMsg where
  source : Nat
  kind : Nat
  address : Nat
  detail : Nat
  cls : FClass
  deriving DecidableEq, Repr

/-- The outcome of one Reed self-test (R286): passed, failed, or inconclusive; for the V and the I Reed. -/
inductive TestOut where
  | pass | fail | inconclusive
  deriving DecidableEq, Repr

/-- What an overload detector reports (R163): an input beyond ±0.75, or its return within it. -/
inductive Overload where
  | positive | negative | returned
  deriving DecidableEq, Repr

/-- The body of an Ethernet frame after its header (R360, R363). -/
inductive Payload where
  | arpRequest (senderIp senderMac targetIp : Nat)
  | arpReply (senderIp senderMac : Nat)
  | ptpL2 (msg : Nat)
  | ip (version : Nat) (sumOk fragment udpSumOk : Bool) (srcIp dstIp : Nat) (srcMac : Nat) (body : List Byte)
      (proto sport dport : Nat)
  | other (ethertype : Nat)
  deriving DecidableEq, Repr

/-- A received Ethernet frame (R360): its error state, length, MAC control, VLAN identifier, destination and body. -/
structure Frame where
  port : Nat
  crcOk : Bool
  length : Nat
  macControl : Bool
  vid : Option Nat
  dstMac : Nat
  payload : Payload
  deriving DecidableEq, Repr

/-- A DHCP message from a server (R361): an offer, an acknowledgement with its options, or a refusal. -/
inductive DhcpMsg where
  | offer (ip server : Nat)
  | ack (ip mask router lease : Nat) (t1 t2 : Option Nat)
  | nak
  deriving DecidableEq, Repr

/-- A DHCP message with its transaction identifier and the source address of its frame (R361). -/
structure DhcpIn where
  xid : Nat
  mac : Nat
  msg : DhcpMsg
  deriving DecidableEq, Repr

/-- What a source announces of its clock (R365): priority 1, class, accuracy, variance, priority 2, identity, steps removed. -/
structure PtpClock where
  prio1 : Nat
  cls : Nat
  accuracy : Nat
  variance : Nat
  prio2 : Nat
  identity : Nat
  steps : Nat
  deriving DecidableEq, Repr

/-- A PTP message (R365): clock identity of its sender, sequence, timestamp in ns, correctionField in 2^-16 ns; `mine`: the response
names this port as the one that asked; `log`: logMessageInterval. -/
inductive PtpMsg where
  | announce (source : PtpClock) (utcOffset : Int)
  | sync (identity seq : Nat) (twoStep : Bool) (origin : Nat) (corr : Int)
  | followUp (identity seq origin : Nat) (corr : Int)
  | delayResp (identity seq : Nat) (mine : Bool) (receive : Nat) (corr log : Int)
  | pdelayResp (seq : Nat) (mine twoStep : Bool) (receipt : Nat) (corr : Int)
  | pdelayRespFollowUp (seq : Nat) (mine : Bool) (origin : Nat) (corr : Int)
  | pdelayReq (identity portNo seq : Nat) (corr : Int)
  deriving DecidableEq, Repr

/-- A PTP message with versionPTP and domainNumber of its header; `outside`: it uses an option outside Table "PTP options" (R365). -/
structure PtpIn where
  version : Nat
  domain : Nat
  outside : Bool
  msg : PtpMsg
  deriving DecidableEq, Repr

/-- The channel whose begun unit applies, and for a WAVE the bank of NVM that cannot give its first point (R208, R224). -/
structure ApplyIn where
  c : ChanNo
  ue : Option (Fin 4)
  deriving DecidableEq, Repr

/-- What the self-tests of a release find (R272, R341): whether they pass, and the slices of converters A and B that fail the
calibration of MON_RESTART, one bit each. -/
structure SelftestOut where
  pass : Bool
  failA : Fin 32
  failB : Fin 32
  deriving DecidableEq, Repr

/-- The returned strobe of a transfer of SP0, and of the first transfer where it is not counted yet: whether all its edges came (R389). -/
structure StrobeIn where
  ok : Bool
  firstOk : Bool := true
  deriving DecidableEq, Repr

/-- The mirror item of a STATE cell (Table "Mirrored items", R411). -/
inductive MirrorState where
  | output (c : ChanNo) (st cause : Nat)
  -- the programmed limit with the code of the range that it is programmed on (R141)
  | param (c : ChanNo) (forceMode : Nat) (setpoint limit : Int) (limRange vr ir : Nat)
  -- bits 1..0 of `st` CHT_STATE, 2 a unit in progress, 3 a unit begun, 5 PAUSED; `cur`: element and index of the unit in progress
  | chanter (c : ChanNo) (st pos unit : Nat) (cur : Nat × Nat)
  | reserve (c : ChanNo) (ep : Nat)
  | release (c : ChanNo) (ep : Nat)
  | confirmedMake (g : GroupNo) (ep : Nat)
  | grid (c : ChanNo) (n base : Nat)
  -- the step, and SLIDE_STATUS
  | slide (c : ChanNo) (step status : Nat)
  | next (c : ChanNo) (no : Nat)
  | synced (g : GroupNo) (ok : Bool)
  deriving DecidableEq, Repr

/-- The mirror item of a CONFIG cell (R411): an object write in force, a table element, or a bias increment. -/
inductive MirrorConfig where
  | object (idx sub : Nat) (v : Int)
  | sweep (element : Nat) (v : Nat)
  | map (element : Nat) (v : Nat)
  | bias (ep : Nat)
  -- all that CONFIG cells carry of the group follows, from its defaults on (R404, R421; DESIGN CHOICE, log 75)
  | restart (g : GroupNo)
  deriving DecidableEq, Repr

/-- What a HEARTBEAT cell carries (R409) and the skew measured on it (R407). -/
structure Beat where
  lane : Nat
  frame : Nat
  id : Nat
  roles : List Nat
  safe : Bool
  -- the receive lanes that the sender finds up, one bit each (R408; DESIGN CHOICE, log 75)
  hears : Nat
  skew : Int
  deriving DecidableEq, Repr

/-- What the partner reports at forming (Table "Pair forming checks", R403). -/
structure Partner where
  silicon : Nat
  id : Nat
  imageId : Nat
  waveCrcs : List Nat
  skew : Int
  homes : List Nat
  -- by group, whether every channel of the partner's copy is OFF (R404)
  allOff : List Bool
  serial : Nat
  deriving DecidableEq, Repr

/-- What a scrub finds at one word (R428, R429): nothing, a corrected error, an uncorrectable one with its region
or area and the element it holds. -/
inductive ScrubFind where
  | clean
  | corrected (word : Nat)
  | uncorrectable (word region element : Nat)
  deriving DecidableEq, Repr

/-- The measured inputs of the telemetry frame and the supervisor (R438, R446, R464). -/
structure Measured where
  vddc : Nat
  tempMax : Int
  tempMin : Int
  powerMw : Nat
  deriving DecidableEq, Repr

/-- The outcome of the boot stage that ends (R452, R453): SRAM and collector tests, the slices that failed with
their SLICE_ kind and its detail (Table "Fault kinds"), and BOOT[1:0]. -/
structure BootIn where
  testOk : Bool
  failedSlices : List (Nat × Nat × Nat)
  bootPins : Nat
  deriving DecidableEq, Repr

/-- THE COMMANDS, in the order of spec/opcode_table.json. -/
inductive Instr where
  -- timing
  | frameStart
  | groupTick (g : GroupNo) (slots : List SlotIn) (pace : Nat) (recordMiss : Bool)
  | stagingClose (g : GroupNo) (missed : List Nat)
  | loadStrobe (g : GroupNo)
  | clockMonitorWindow (tb : Fin 25) (found : ClkState)
  | tbaStopDetect
  | tbaFreqCheck (edges : Nat)
  | tbaTick (reeds : List ReedIn)
  | declI (h : Hdr) (c : ChanNo) (v : Int)
  -- sessions and requests
  | openSession (h : Hdr) (secure : Bool) (cnonce : List Byte)
  | proof (h : Hdr) (hproof : List Byte)
  | securePendingExpiry (n : Nat)
  | close (h : Hdr)
  | nop (h : Hdr)
  | read (h : Hdr) (idx sub : Nat)
  | write (h : Hdr) (idx sub : Nat) (v : WireVal)
  | queuedRequestExecute (n : Nat)
  | sessionTimeout (n : Nat)
  | blockOpen (h : Hdr) (idx sub : Nat) (dirWrite : Bool) (offset count : Nat)
  | blockSeg (h : Hdr) (offset count : Nat) (data : List Byte)
  | blockClose (h : Hdr) (crc : Nat)
  | blockAbort (h : Hdr)
  | mode (h : Hdr) (m : Int)
  | modeValidationDone
  | imageCommit (h : Hdr)
  | imageCommitDone (verified : Bool)
  | loadBase (h : Hdr)
  | violClear (h : Hdr)
  -- output states
  | arm (h : Hdr) (c : ChanNo)
  | enable (h : Hdr) (c : ChanNo)
  | outOff (h : Hdr) (c : ChanNo)
  | outMute (h : Hdr) (c : ChanNo)
  | outResume (h : Hdr) (c : ChanNo)
  | armTransitEnd (c : ChanNo)
  | offRampEnd (c : ChanNo)
  | safeRampEnd (c : ChanNo)
  | boostDecl (h : Hdr) (c : ChanNo) (v : Int)
  -- control loop
  | forceMode (h : Hdr) (c : ChanNo) (v : Int)
  | notchEn (h : Hdr) (c : ChanNo) (v : Int)
  | lawHoldSet (h : Hdr) (c : ChanNo)
  | lawHoldCommit (h : Hdr) (c : ChanNo)
  | ctlRunStart (h : Hdr) (g : GroupNo)
  | ctlRunStop (h : Hdr) (g : GroupNo)
  -- ranges
  | vRange (h : Hdr) (c : ChanNo) (v : Int)
  | iRange (h : Hdr) (c : ChanNo) (v : Int)
  | rangeSet (h : Hdr) (c : ChanNo) (v : Int)
  | slidePrepEnd (c : ChanNo)
  | slideComplete (c : ChanNo)
  | autoRangeStep (c : ChanNo)
  -- measurement
  | modulatorOverload (g : GroupNo) (slot : Nat) (current : Bool) (what : Overload)
  | apertureClose (c : ChanNo)
  | apertureN (h : Hdr) (c : ChanNo) (v : Int)
  | apertureRebase (h : Hdr) (c : ChanNo)
  | aggWindowClose (g : GroupNo)
  | recFlushExpiry (c : ChanNo)
  | filtRunStart (h : Hdr) (g : GroupNo)
  | filtRunStop (h : Hdr) (g : GroupNo)
  | filtFillDone (g : GroupNo)
  | reservationWrite (c : ChanNo)
  | reservationConfirm (c : ChanNo)
  -- Chanters
  | chtStop (h : Hdr) (c : ChanNo)
  | chtStart (h : Hdr) (c : ChanNo)
  | chtPause (h : Hdr) (c : ChanNo)
  | chtResume (h : Hdr) (c : ChanNo)
  | chtAdvance (h : Hdr) (c : ChanNo)
  | unitBegin (c : ChanNo) (sramBad : Bool)
  | unitApply (x : ApplyIn)
  | unitSettle (c : ChanNo)
  | unitEnd (c : ChanNo)
  | wavePoint (c : ChanNo) (ue : Option (Fin 4))
  | waveLen (h : Hdr) (n : Fin 64) (v : Int)
  -- endpoints and matrices
  | claimAnswer (c : ChanNo)
  | epConnect (h : Hdr) (c : ChanNo) (v : Int)
  | epRelease (h : Hdr) (c : ChanNo)
  | matrixGrant
  | matrixWordEcho (echo : BitVec 32) (strobe : StrobeIn)
  | breakSettled (c : ChanNo)
  | connectionSettled (c : ChanNo)
  | mtxRestart (h : Hdr) (line : Fin 8)
  | ledgerRetire (h : Hdr) (ep : Fin 1048576)
  | ledgerRestore (h : Hdr) (ep : Fin 1048576)
  | ledgerClearBias (h : Hdr) (ep : Fin 1048576)
  | ledgerCommit (h : Hdr)
  | ledgerCommitPeriodic
  | ledgerCommitDone
  -- monitors
  | mtrgEdge (ball : Fin 4) (rising : Bool)
  | monStartupEnd (g : GroupNo)
  | monSlotEnd (g : GroupNo)
  | monDecisionDone (g : GroupNo) (a b : Int)
  | monUrgent (h : Hdr) (g : GroupNo) (e : Int)
  | monEntry (h : Hdr) (g : GroupNo) (e : Fin 16) (v : Int)
  | monAccA (h : Hdr) (g : GroupNo) (e : Fin 16)
  | monAccB (h : Hdr) (g : GroupNo) (e : Fin 16)
  | monSnap (h : Hdr) (g : GroupNo)
  | monRestart (h : Hdr) (g : GroupNo)
  | monSpareSwap (g : GroupNo) (convB : Bool) (offset : Int) (gainPpm : Int)
  | mtrgoPulse (h : Hdr)
  | mtrgoPeriodic (m : Nat)
  | mtrgoPulseEnd
  -- Reeds
  | reedSample (g : GroupNo) (reeds : List ReedIn)
  | reedClear (h : Hdr) (c : ChanNo)
  | reedTest (h : Hdr) (g : GroupNo)
  | reedTestPeriodic
  | reedTestTick (g : GroupNo) (v i : TestOut)
  -- event router
  | eviEdge (ball : Fin 16) (rising : Bool)
  | evFire (h : Hdr) (n : Fin 256)
  | evoPulseEnd (ball : Fin 16)
  | evLogClear (h : Hdr)
  -- calibration
  | calStart (h : Hdr) (g : GroupNo)
  | calAbort (h : Hdr) (g : GroupNo)
  -- the sums of V and I over the 64 samples by slot, in FRAC24 codes on the ranges in force (R319)
  | calExtCheck (g : GroupNo) (means : List (Nat × Int × Int))
  -- the mean of the point in units of 2^-16 FRAC24 codes (R323)
  | calPointDone (g : GroupNo) (x : Int)
  | calNvmWriteDone (g : GroupNo) (verified : Bool)
  -- temperatures by slice number, in 1/128 °C (R314)
  | sliceTempRead (temps : List (Nat × Int))
  | calThermalUpdate
  -- faults
  | faultReport (m : Option FaultMsg)
  | fenceArrival
  | takeoverBlankEnd (c : ChanNo)
  | faultLogDrain
  | collectorVote (disagree : Option Nat)
  | errorLineChange (k : Fin 26) (pair : Fin 4) (lasting : Bool)
  | fltUnfence (h : Hdr) (src : Int)
  | unfenceSelftestDone (found : SelftestOut)
  | fltSafe (h : Hdr)
  | fltLogClear (h : Hdr)
  | fltN (h : Hdr) (t : Fin 23) (v : Int)
  | fltW (h : Hdr) (t : Fin 23) (v : Int)
  -- network
  | frameReceive (f : Frame)
  | netMode (h : Hdr) (n : Fin 2) (v : Int)
  | netAn (h : Hdr) (n : Fin 2) (v : Int)
  | linkUp (n : Fin 2)
  | linkDown (n : Fin 2) (errorsOnly : Bool)
  | streamPortReturn (st : Fin 32)
  | dhcpMessage (n : Fin 2) (m : DhcpIn)
  | dhcpDiscoverRetry (n : Fin 2)
  | dhcpRenew (n : Fin 2)
  | dhcpRebind (n : Fin 2)
  | dhcpLeaseExpiry (n : Fin 2)
  | arpRequest (n : Fin 2) (senderIp senderMac targetIp : Nat)
  | arpCacheExpiry (n : Fin 2) (ip : Nat)
  | arpRetry (n : Fin 2) (ip : Nat)
  | icmpEcho (n : Fin 2) (srcIp srcMac : Nat) (data : List Byte)
  | ptpMessage (n : Fin 2) (m : PtpIn)
  | ptpDelayReqSend
  | ptpTimeout
  | timeSrc (h : Hdr) (v : Int)
  | ppsinEdge
  | ppsoutPulse
  | streamEnable (h : Hdr) (st : Fin 32)
  | streamArpResolved (st : Fin 32) (n : Fin 2) (mac : Nat)
  | streamDisable (h : Hdr) (st : Fin 32)
  | streamPacketSend (n : Fin 2) (readUe : List Nat)
  -- serial ports
  | spBusIdle (n : Fin 2)
  -- the line of R393, and the replies that an SP1 list had received (R400)
  | spCollision (n : Fin 2) (line : Fin 8) (replies : List Nat)
  | slaveSelectAssert
  | slaveWordComplete (w : Nat)
  | slavePartial
  | sp1Go (h : Hdr) (sel : Int)
  | sp1Poll (m : Nat)
  | sp1ListEnd (replies : List Nat) (strobeErr : Bool)
  | sp1MbTx (h : Hdr) (words : List Nat)
  | sp1MbRx (h : Hdr)
  | spRestart (h : Hdr) (n : Fin 2)
  | spClear (h : Hdr) (n : Fin 2)
  -- pair
  | pairEnable (h : Hdr)
  | pairForm (p : Partner)
  | pairDissolve (h : Hdr)
  | heartbeat (b : Beat)
  -- each message with the strobes of its group left until the one at which it comes into force (R410)
  | stateCell (lane : Nat) (items : List (Nat × MirrorState))
  | configCell (lane : Nat) (items : List MirrorConfig)
  | failCell (lane : Nat)
  | groupFailCell (lane : Nat) (g : GroupNo)
  -- a HANDOVER cell names strobe h by the strobes of the group left until it (R417)
  | handoverCell (lane : Nat) (g : GroupNo) (left : Nat)
  | ackCell (lane : Nat) (g : GroupNo)
  | pairHandover (h : Hdr) (g : GroupNo)
  | handoverAckTimeout (g : GroupNo)
  | laneDown (lane : Fin 4)
  | heartbeatLoss
  | witnessSilent
  | witnessToggle (m : Nat)
  -- Drone
  -- `free`: the activity's resource is free of foreground work (R425)
  | sramScrubSlice (found : List ScrubFind) (free : Bool)
  | nvmScrubSlice (found : List ScrubFind) (free : Bool)
  | logCopy (free : Bool)
  | telemetryFrame (m : Measured) (free : Bool)
  | lineTest (wires : List (Nat × Nat))
  | nvmPageFlush (bank page : Nat) (verified : Bool)
  | bankCopyDone
  | rtcRealign
  | rtcTrimStore (ppb : Int)
  | rtcSet (h : Hdr) (t : Int)
  -- supplies, reset, boot, sleep
  | supplyLoss (i : Fin 8)
  | supplyReturn
  | powerOnReset
  | nrst
  | sysReset (h : Hdr)
  | bootStageComplete (b : BootIn)
  | bootRefclkTimeout
  | groupPowerDown (h : Hdr) (g : GroupNo)
  | groupPowerUp (h : Hdr) (g : GroupNo)
  | pwrCmd (h : Hdr)
  | sleepRampsDone
  | sleepQuiesceDone
  | sleepCommitDone
  | sleepPowerDown
  | sleepUntilReached
  | wakeComplete
  | vddcStepUp
  | vddcStepDown
  | vddcFallback (meas : Nat)
  | powerAccounting (avpp avnn : Int) (means : List (Nat × Int × Int)) (totalMw : Nat)
  | ppsoutPulseEnd
  | hostResetDelayExpiry
  | groupPllLock (g : GroupNo)
  | lineErrWindowExpiry (k : Fin 26)
  | pairCellDiscard (lane : Fin 4)
  | analogueRailsInside9V
  deriving DecidableEq, Repr

end Sys2Proof
end

