-- ==== Sys2Proof/Config.lean ====
section
/-! DEFINITION. What one part or one installation fixes and the spec leaves open: constants without a body. -/
namespace Sys2Proof.Config

/-- The byte that the on-chip random source gives for a free value's number (R375; log 5). -/
opaque randomByte : Nat → Byte
/-- The die serial number (R77, "per part"; log 6). -/
opaque serial : BitVec 64
/-- The part is an SZ5128-FB3600-P (R2, "per part"; log 6). -/
opaque screenedP : Bool
/-- The MAC address of NET0 and NET1 (R383, "per part"; log 6). -/
opaque netMac : Nat → BitVec 48
/-- A field of the factory calibration copy (R312, "per part"; log 7): element, field number. -/
opaque factoryCal : Nat → Nat → BitVec 32
/-- A value that the spec leaves open, by the number of the free value (log 8). -/
opaque freeValue : Nat → BitVec 64

/-- Byte of the payload of a pair cell, by the number of the free value and its place (R408, "the payload encodings belong to the
SZ5128 alone"; log 75). -/
opaque cellByte : Nat → Nat → Byte

end Sys2Proof.Config
end

