-- ==== Sys2Proof/Machine/Arith.lean ====
section
/-! DEFINITION. Number formats and byte order (R6, R8, R9), rounding, CRC-32 and SHA-256, as plain functions. -/
namespace Sys2Proof.Machine
open Sys2Proof

/-- `x` held within `lo..hi`. -/
def clampI (lo hi x : Int) : Int := if x < lo then lo else if hi < x then hi else x

/-- The low `w` bits of `x` as an unsigned code (two's complement for a negative `x`). -/
def code (w : Nat) (x : Int) : Nat := (x % (2 ^ w : Int)).toNat

/-- The low `w` bits of `n` read as two's complement. -/
def sext (w n : Nat) : Int :=
  let m := n % 2 ^ w
  if 2 * m < 2 ^ w then (m : Int) else (m : Int) - (2 ^ w : Int)

/-- Field of `w` bits of `n` from bit `lo` up. -/
def bits (n lo w : Nat) : Nat := n / 2 ^ lo % 2 ^ w

/-- Bit `k` of `n`. -/
def bit (n k : Nat) : Bool := n / 2 ^ k % 2 == 1

/-- Bit value of a truth value. -/
def b2n (b : Bool) : Nat := if b then 1 else 0

/-- `n` with bit `k` set to `b`. -/
def setBit (n k : Nat) (b : Bool) : Nat := if bit n k == b then n else if b then n + 2 ^ k else n - 2 ^ k

/-- Nearest integer to `n / d` for `d > 0`, ties to even. -/
def roundEven (n d : Int) : Int :=
  let q := n / d
  let r := n % d
  if 2 * r < d then q else if d < 2 * r then q + 1 else if q % 2 = 0 then q else q + 1

/-- `n / d` rounded towards zero for `d > 0`. -/
def truncDiv (n d : Int) : Int := if n < 0 then -((-n) / d) else n / d

/-- `n / d` rounded up. -/
def ceilDiv (n d : Nat) : Nat := (n + d - 1) / d

/-- The largest integer whose square is at most `n`, found by `k` halvings. -/
def isqrtGo : Nat → Nat → Nat → Nat
  | 0, _, r => r
  | k + 1, n, r => let r' := r + 2 ^ k; isqrtGo k n (if r' * r' ≤ n then r' else r)

/-- Integer square root of `n < 2^128`. -/
def isqrt (n : Nat) : Nat := isqrtGo 64 n 0

/-- `w` bytes of `n`, most significant first (R6). -/
def beBytes : Nat → Nat → List Byte
  | 0, _ => []
  | w + 1, n => BitVec.ofNat 8 (n / 256 ^ w) :: beBytes w n

/-- The number that bytes spell, most significant first (R6). -/
def beNat (b : List Byte) : Nat := b.foldl (fun a x => a * 256 + x.toNat) 0

/-- A TIME80 from nanoseconds, as seconds × 2^32 + nanoseconds (R9). -/
def time80 (ns : Nat) : Nat := ns / 1000000000 * 4294967296 + ns % 1000000000

/-- Nanoseconds of a TIME80 (R9). -/
def nsOf (t : Nat) : Nat := t / 4294967296 * 1000000000 + t % 4294967296

/-- One bit of the reflected CRC-32 of polynomial 0x04C11DB7. -/
def crcBit (c : BitVec 32) : BitVec 32 := if c.getLsbD 0 then (c >>> 1) ^^^ 0xEDB88320#32 else c >>> 1

/-- One byte of the CRC-32 register. -/
def crcByte (c : BitVec 32) (b : Byte) : BitVec 32 :=
  (List.range 8).foldl (fun c _ => crcBit c) (c ^^^ b.setWidth 32)

/-- The CRC-32 register over more bytes (IEEE 802.3, R63). -/
def crcUpd (c : BitVec 32) (b : List Byte) : BitVec 32 := b.foldl crcByte c

/-- The register before any byte. -/
def crcInit : BitVec 32 := 0xFFFFFFFF#32

/-- The CRC-32 of the register. -/
def crcFin (c : BitVec 32) : Nat := (c ^^^ 0xFFFFFFFF#32).toNat

/-- CRC-32 of bytes (IEEE 802.3 polynomial, R63, R72). -/
def crc32 (b : List Byte) : Nat := crcFin (crcUpd crcInit b)

/-- One bit of the CRC-16 of polynomial 0x1021. -/
def crc16Bit (c : BitVec 16) : BitVec 16 := if c.msb then (c <<< 1) ^^^ 0x1021#16 else c <<< 1

/-- One byte of the CRC-16 register. -/
def crc16Byte (c : BitVec 16) (b : Byte) : BitVec 16 :=
  (List.range 8).foldl (fun c _ => crc16Bit c) (c ^^^ BitVec.ofNat 16 (b.toNat * 256))

/-- CRC-16 of bytes: polynomial 0x1021, initial value 0xFFFF (Table "Pair cell"). -/
def crc16 (l : List Byte) : Nat := (l.foldl crc16Byte 0xFFFF#16).toNat

/-- The largest integer whose cube is at most `n`, found by `k` halvings. -/
def icbrtGo : Nat → Nat → Nat → Nat
  | 0, _, r => r
  | k + 1, n, r => icbrtGo k n (if (r + 2 ^ k) ^ 3 ≤ n then r + 2 ^ k else r)

/-- The primes below 312: the first 64. -/
def smallPrimes : List Nat :=
  (List.range 312).filter fun n => 2 ≤ n && [2, 3, 5, 7, 11, 13, 17].all fun d => n == d || n % d != 0

/-- The 64 round constants of SHA-256: 32 fraction bits of the cube roots of the first primes (PRESUMED, log 4). -/
def hashRound : List (BitVec 32) := smallPrimes.map fun p => BitVec.ofNat 32 (icbrtGo 36 (p * 2 ^ 96) 0)

/-- The chaining value of SHA-256, which is also what a block's rounds work on. -/
structure Chain where
  a : BitVec 32
  b : BitVec 32
  c : BitVec 32
  d : BitVec 32
  e : BitVec 32
  f : BitVec 32
  g : BitVec 32
  h : BitVec 32

/-- Fraction bits of the square root of `p`, 32 of them. -/
def rootBits (p : Nat) : BitVec 32 := BitVec.ofNat 32 (isqrt (p * 2 ^ 64))

/-- The initial chaining value: square roots of the first eight primes (PRESUMED, log 4). -/
def Chain.init : Chain :=
  ⟨rootBits 2, rootBits 3, rootBits 5, rootBits 7, rootBits 11, rootBits 13, rootBits 17, rootBits 19⟩

/-- XOR of `x` turned right by each of `l`. -/
def turns (x : BitVec 32) (l : List Nat) : BitVec 32 := l.foldl (fun y k => y ^^^ x.rotateRight k) 0#32

/-- A round with constant `k` and message word `w`: all eight words move down by one. -/
def Chain.round (s : Chain) (k w : BitVec 32) : Chain :=
  let pick := turns s.e [6, 11, 25] + ((s.f ^^^ s.g) &&& s.e ^^^ s.g) + s.h + k + w
  let vote := turns s.a [2, 13, 22] + ((s.a ||| s.b) &&& s.c ||| s.a &&& s.b)
  ⟨pick + vote, s.a, s.b, s.c, s.d + pick, s.e, s.f, s.g⟩

/-- The message window one round on: its first word leaves, and the word that the recurrence gives enters at its end. -/
def slideWindow (w : List (BitVec 32)) : List (BitVec 32) :=
  let at_ k := w.getD k 0#32
  w.drop 1 ++ [(turns (at_ 1) [7, 18] ^^^ at_ 1 >>> 3) + (turns (at_ 14) [17, 19] ^^^ at_ 14 >>> 10) + at_ 9 + at_ 0]

/-- The chaining value after one block of sixteen message words. -/
def Chain.block (s : Chain) (m : List (BitVec 32)) : Chain :=
  let r := (hashRound.foldl (fun (x : Chain × List (BitVec 32)) k =>
    (x.1.round k (x.2.headD 0#32), slideWindow x.2)) (s, m)).1
  ⟨s.a + r.a, s.b + r.b, s.c + r.c, s.d + r.d, s.e + r.e, s.f + r.f, s.g + r.g, s.h + r.h⟩

/-- SHA-256 (FIPS 180-4; PRESUMED, log 4): the message and its padding as one number, cut into words. -/
def sha256 (m : List Byte) : List Byte :=
  let blocks := (m.length + 72) / 64
  let n := (beNat m * 256 + 128) * 256 ^ (64 * blocks - m.length - 1) + 8 * m.length
  let word i := BitVec.ofNat 32 (n / 2 ^ (32 * (16 * blocks - 1 - i)))
  let s := (List.range blocks).foldl (fun s b => s.block ((List.range 16).map fun i => word (16 * b + i))) Chain.init
  [s.a, s.b, s.c, s.d, s.e, s.f, s.g, s.h].flatMap fun x => beBytes 4 x.toNat

/-- HMAC-SHA-256 (RFC 2104; PRESUMED, log 4). -/
def hmac (key m : List Byte) : List Byte :=
  let k := if 64 < key.length then sha256 key else key
  let k := k ++ List.replicate (64 - k.length) 0#8
  sha256 (k.map (· ^^^ 0x5c#8) ++ sha256 (k.map (· ^^^ 0x36#8) ++ m))

/-- Bytes of an ASCII string. -/
def ascii (s : String) : List Byte := s.toList.map fun c => BitVec.ofNat 8 c.toNat

/-- The first `n` naturals from `a`. -/
def rangeFrom (a n : Nat) : List Nat := (List.range n).map (a + ·)

/-- The list with element `i` replaced by `x`, lengthened with `d` where needed. -/
def setAt {α : Type} (d : α) : List α → Nat → α → List α
  | [], 0, x => [x]
  | [], i + 1, x => d :: setAt d [] i x
  | _ :: l, 0, x => x :: l
  | y :: l, i + 1, x => y :: setAt d l i x

/-- A number held in w bits. -/
def satN (w n : Nat) : Nat := if 2 ^ w ≤ n then 2 ^ w - 1 else n

end Sys2Proof.Machine
end

