-- ==== Sys2Proof/Machine/ObjectTable.lean ====
section
/-! DEFINITION. The object dictionary of the SZ5128 as the chapters list it (R40, R43, R44, R62 and the object
tables of R38, R77, R106, R135, R161, R196, R197, R231, R232, R256, R276, R288, R306, R307, R329, R356, R383,
R402, R424, R445, R466): one name per object, with its address, type, access class, limits and default. -/
namespace Sys2Proof

/-- Data types of Table "Data types" (R43). -/
inductive Ty where
  | BOOL | U8 | U16 | U32 | U64 | I8 | I16 | I32 | I64 | FRAC24 | FRAC18 | F32 | TIME80 | STR | BLOB
  deriving DecidableEq, Repr

/-- Access classes of Table "Access classes" (R44); the S suffix is the flag `sec` of an object. -/
inductive Cls where
  | RO | RW | WO | RWS | CONST
  deriving DecidableEq, Repr

/-- The objects, under the manual's names. -/
inductive Obj where
  | TB_STATUS | PACE_MIN_FRAME | PACE_MIN_RESET | PACE_ALARM | BUDGET_CAP | BUDGET_USED | BUDGET_REFUSALS
  | TICK_RATE | PACE_GROUP | DEADLINE_STAGING | DEADLINE_RECORD | DECL_I | VENDOR | PART | SILICON
  | ORDER_CODE | SERIAL | OD_VERSION | TYPE_LEN | TYPE_NAME | SESSIONS_OPEN | SESSION_TIMEOUT | SESSION_STATE
  | SESSION_OUTSTANDING | SESSION_REQUESTS | SESSION_VIOLATIONS | SESSION_PEER | SESSION_KEY
  | SESSION_SECURE_ONLY | MODE | MODE_PENDING | MODE_SWITCHES | MODE_REJECTS | IMAGE_ID | IMAGE_HALF
  | IMAGE_COMMIT | IMAGE_COMMITS | LOAD_BASE | CONFIG_OWNER | CONFIG_SECURE | OVERLAY_TRIPLES | OVERLAY_SECURE
  | OVERLAY_GROUPS | VIOL_TOTAL | VIOL_NEWEST | VIOL_CLEAR | VIOL_ENTRY | GROUP_OWNER | GROUP_SECURE
  | CH_OWNER | CH_SECURE | OUT_CMD | OUT_STATE | OUT_CAUSE | SENSE_SEL | SAFE_LEVEL | OFF_SLEW | BOOST_DECL
  | BOOST_RANGE | BOOST_GAIN | SLICE_POS | ISO_STATE | DAC_CODE | DRV_LIMIT_TICKS | STATE_CHANGES | GUARD_SRC
  | SPARE_STATE | SLICE_FAILED | CROOK_MOVES | FORCE_MODE | SETPOINT | COMPL_LIM | COMPL_ENTER | COMPL_EXIT
  | VKP | VKI | VKD | VKB | V_SHIFTS | IKP | IKI | IKD | IKB | I_SHIFTS | NOTCH_EN | NB0 | NB1 | NB2 | NA1
  | NA2 | NOTCH_SHIFTS | VKFF | IKFF | FF_SHIFTS | LAW_HOLD | LOOP_STATUS | COMPL_TICKS | LOOP_SAT_TICKS
  | LOOP_HELD_TICKS | INTEG_P | INTEG_LH | INTEG_LL | CTL_RUN | V_RANGE | I_RANGE | RANGE_SET | SLIDE_STATUS
  | SLIDE_COUNT | SLIDE_REFUSED | AR_CTRL | AR_I_BOUNDS | AR_V_BOUNDS | AR_I_UP | AR_I_DOWN | AR_V_UP
  | AR_V_DOWN | AR_UP_TICKS | AR_DOWN_TICKS | SLIDE_BLANK | APERTURE_N | APERTURE_REBASE | LAST_RECORD
  | REC_NEXT | REC_RESERVED | REC_LOST | REC_STALE | OVR_SAMPLES | TEV_V_CTRL | TEV_V_LEVEL | TEV_V_HYST
  | TEV_V_STATE | TEV_I_CTRL | TEV_I_LEVEL | TEV_I_HYST | TEV_I_STATE | TEV_V_COUNT | TEV_I_COUNT
  | REC_RSV_WAIT | AGG_LAST | FILT_RUN | FILT_STATE | REC_FIR_LEN | AGG_PERIOD | LOOP_FIR_DELAY
  | REC_FIR_DELAY | OVERLOADS | AGG_LAST_START | LOOP_FIR | REC_FIR | REC_BUF_BLOCKS | REC_BUF_FREE
  | REC_BUF_CAP | REC_FLUSH | REC_LOST_TOTAL | BLOCK_DISCARDS | CHT_CMD | CHT_STATE | CHT_START | CHT_POS
  | CHT_UNIT | CHT_POINT | CHT_HALT | SW_BASE | SW_LEN | CHT_UNITS | CHT_CONFLICTS | CHT_SKIPS | CHT_REPEATS
  | WAVE_CLIPS | WAVE_PAGES_TOTAL | WAVE_PAGES_FREE | WAVE_LEN | WAVE_CRC | WAVE_PLAYERS | MAP_EXC_CAP
  | MAP_EXC_USED | MAP_DIRTY | SAFE_MATRIX | MTX_BUSY_MAX | LEDGER_COMMIT | LEDGER_LAST | LEDGER_CMD
  | EP_WARNED | EP_RETIRED | SP0_WAIT_MAX | RATED_CYCLES | MTX_SETTLE | MTX_BREAK | MTX_STATE | MTX_RESTART
  | MTX_WORDS | MTX_RESENDS | MTX_BUSY | EP_CONNECT | EP_HELD | EP_PRIO | EP_CLAIMS | BIAS_ACC | MON_RUN
  | MON_TRIG | SEQ_LEN | PAIR_TOL | MON_URGENT | MON_STATE | MON_SLICES | MON_DROPS | TRIG_MISSED | TRIG_LATE
  | SEQ_COUNT | PAIR_FAILS | PAIR_SKIPPED | MON_RESTART | MON_ENTRY | MON_ACC_A | MON_ACC_B | MON_SNAP
  | MTRGO_MODE | MTRGO_PERIOD | MTRGO_PHASE | MTRGO_PULSE | MTRGO_COUNT | MON_CLEAR_SESSION | REED_V_CTRL
  | REED_V_HI | REED_V_LO | REED_I_CTRL | REED_I_HI | REED_I_LO | REED_STATUS | REED_CLEAR | REED_V_TRIPS
  | REED_I_TRIPS | REED_NOOPS | REED_TEST | REED_FAILED | REED_PASSES | REED_INCONCLUSIVE | REED_TEST_PERIOD
  | REED_SLEEP_DIV | EV_CTRL | EV_SEL | EV_ACT | EV_FIRE | EV_OWNER | EV_SECURE | EV_ASSERTS | EV_MERGED
  | EV_IGNORED | EV_DENIED | EV_NOOPS | EV_LAST | EG_EN | EVI_STATE | EVO_STATE | EV_SLEEP_DROPS
  | EV_LOG_NEWEST | EV_LOG_TOTAL | EV_LOG_DROPS | EV_LOG_CLEAR | EVO_PULSE_W | CAL_CHANNELS | CAL_SPARE
  | CAL_RANGES | CAL_KIND | CAL_STD | CAL_CMD | CAL_STATE | CAL_RESULT | CAL_COMMIT_TIME | CAL_STATUS
  | SLICE_TEMP | CAL_DT_V | CAL_DT_I | CAL_LOAD_P | CAL_AVG | CAL_SETTLE | CAL_DIST_T | CAL_COMMITS | CAL_HALF
  | FLT_REPORTS | FLT_NOTES | FLT_TRANSIENTS | FLT_SEVERES | FLT_COALESCED | FLT_QUEUE_MAX | FLT_LOG_NEWEST
  | FLT_LOG_TOTAL | FLT_LOG_CLEAR | FLT_UNFENCE | FLT_SAFE | FLT_SAFE_STATE | FLT_SAFE_CAUSE | FLT_FENCED
  | FLT_N | FLT_W | FLT_SEVERE_ACT | SRC_LEVEL | SRC_FENCED | SRC_REPORTS | SRC_LAST | NET_MODE | NET_AN
  | NET_JUMBO | NET_VLAN | NET_PCP | NET_MAC | NET_ADDR_MODE | NET_IP_STATIC | NET_MASK | NET_GW | NET_IP
  | NET_LEASE | NET_STATE | NET_CAPACITY | NET_LOAD | NET_RX_FRAMES | NET_RX_ERRORS | NET_DROPS
  | NET_TX_FRAMES | STREAM_EN | STREAM_PORTS | STREAM_DEST_IP | STREAM_DEST_PORT | STREAM_CHANNELS
  | STREAM_AGG_GROUPS | STREAM_FAILOVER | STREAM_PKT_MAX | STREAM_STATE | STREAM_PACKETS | STREAM_RECORDS
  | TIME_SRC | PTP_PORT | PTP_DELAY | PTP_TRANSPORT | PTP_DOMAIN | PTP_TIMEOUT | PTP_ASYM | PTP_STATE
  | PTP_OFFSET | PTP_MEAN_DELAY | PTP_SOURCE_ID | PTP_UTC_OFFSET | PTP_STEPS | TIME_NOW | PPS_SECONDS
  | PPSIN_LAST | PPSOUT_EN | PPSOUT_OFFSET | PPSOUT_WIDTH | KOP_DROPS | KOP_PEER_REJECTS | KOP_MAC_FAILS
  | KOP_OPENS | SP_ROLE | SP_IDLE | SP_STATUS | SP_CLEAR | SP_WORDS | SP_COLLISIONS | SP_STROBE_ERRS
  | SP_PARTIAL | SP_BUSY_RX | SP_RESTART | SP1_OWNER | SP1_SECURE | SEL_CFG | SEL_LEAD | SEL_LAG | SEL_GAP
  | SEL_WORDS | SP1_TX | SP1_GO | SP1_RX | SP1_RESULT | SP1_RX_TIME | SP1_POLL | SP1_POLL_SEL | SP1_POLL_SKIPS
  | SP1_SLAVE_SEL | SP1_MB_TX | SP1_MB_RX | SP1_MB_LEVEL | SP1_MB_OVF | PAIR_EN | PAIR_ID | PAIR_HB_TIMEOUT
  | PAIR_WIT_EVO | PAIR_WIT_EVI | PAIR_STATE | PAIR_LANES | PAIR_SKEW | PAIR_CELL_ERRS | PAIR_FAILOVERS
  | PAIR_HANDOVERS | PAIR_PARTNER | PAIR_HOME | PAIR_ROLE | PAIR_HANDOVER | PAIR_LAST_CHANGE
  | SCRUB_SRAM_PASSES | SCRUB_SRAM_LAST | SCRUB_NVM_PASSES | SCRUB_NVM_POS | TLM_LAST | TLM_NEWEST
  | DRN_LATE_SRAM | DRN_LATE_NVM | DRN_LATE_LEDGER | DRN_LATE_LOG | DRN_LATE_TLM | LINE_TEST_PERIOD
  | LINE_TESTS | RTC_NOW | RTC_SET | RTC_VALID | RTC_TRIM | RTC_LAST_SYNC | NVM_ENDURANCE | NVM_RESERVE_USE
  | NVM_RELOCATED | NVM_DROPPED | NVM_AREA | NVM_WEAR | NVM_BANK_STATE | NVM_CE_COUNT | NVM_UE_COUNT
  | RESET_CAUSE | BOOT_PINS | BOOT_TIME | BOOT_COUNT | SYS_RESET | PWR_STATE | PWR_CMD | SLEEP_UNTIL
  | WAKE_CAUSE | WAKE_EV | SLEEP_COUNT | VDDC_MODE | VDDC_TARGET | VDDC_MEAS | PWR_TOTAL | PWR_OUT
  | BUDGET_HOT | SUP_V | SUP_I | SUP_STATE | SLEEP_HOLD | GROUP_PWR
  deriving DecidableEq, Repr

/-- What a row of an object table says of its object. Instance `i` (`first ≤ i < cnt`) stands at index
`base + stride * i`; its elements at subindices `sub .. sub + elems - 1`. `lo` and `hi` are the inclusive limits
(for STR and BLOB: of the length in bytes). `dflt` is the default of a numeric object (R44). -/
structure ObjDesc where
  base : Nat
  stride : Nat
  first : Nat
  cnt : Nat
  sub : Nat
  elems : Nat
  ty : Ty
  cls : Cls
  sec : Bool
  lo : Int
  hi : Int
  dflt : Int
  deriving DecidableEq, Repr

/-- The rows of the object tables. PACE_MIN_RESET, to which its table gives no default, reads 65,535, the greatest margin, before the
first tick lowers it (R38; DESIGN CHOICE, log 2). -/
def Obj.desc : Obj → ObjDesc
  | .TB_STATUS => ⟨0x2100, 0, 0, 1, 0x01, 25, .U8, .RO, false, 0, 3, 0⟩
  | .PACE_MIN_FRAME => ⟨0x2110, 0, 0, 1, 0x01, 1, .U16, .RO, false, 0, 65535, 0⟩
  | .PACE_MIN_RESET => ⟨0x2110, 0, 0, 1, 0x02, 1, .U16, .RO, false, 0, 65535, 65535⟩
  | .PACE_ALARM => ⟨0x2110, 0, 0, 1, 0x03, 1, .U16, .RW, false, 320, 1024, 358⟩
  | .BUDGET_CAP => ⟨0x2200, 0, 0, 1, 0x01, 1, .U32, .CONST, false, 0, 4294967295, 6000000⟩
  | .BUDGET_USED => ⟨0x2200, 0, 0, 1, 0x02, 1, .U32, .RO, false, 0, 6000000, 0⟩
  | .BUDGET_REFUSALS => ⟨0x2200, 0, 0, 1, 0x03, 1, .U32, .RO, false, 0, 4294967295, 0⟩
  | .TICK_RATE => ⟨0x4000, 16, 0, 16, 0x01, 1, .U8, .RWS, false, 0, 5, 0⟩
  | .PACE_GROUP => ⟨0x4001, 16, 0, 16, 0x01, 1, .U16, .RO, false, 0, 65535, 0⟩
  | .DEADLINE_STAGING => ⟨0x4001, 16, 0, 16, 0x02, 1, .U32, .RO, false, 0, 4294967295, 0⟩
  | .DEADLINE_RECORD => ⟨0x4001, 16, 0, 16, 0x03, 1, .U32, .RO, false, 0, 4294967295, 0⟩
  | .DECL_I => ⟨0x8000, 1, 0, 512, 0x30, 1, .U32, .RW, false, 0, 2000000, 2000000⟩
  | .VENDOR => ⟨0x0000, 0, 0, 1, 0x01, 1, .STR, .CONST, false, 0, 255, 0⟩
  | .PART => ⟨0x0000, 0, 0, 1, 0x02, 1, .STR, .CONST, false, 0, 255, 0⟩
  | .SILICON => ⟨0x0000, 0, 0, 1, 0x03, 1, .STR, .CONST, false, 0, 255, 0⟩
  | .ORDER_CODE => ⟨0x0000, 0, 0, 1, 0x04, 1, .STR, .CONST, false, 0, 255, 0⟩
  | .SERIAL => ⟨0x0000, 0, 0, 1, 0x05, 1, .U64, .CONST, false, 0, 18446744073709551615, 0⟩
  | .OD_VERSION => ⟨0x0000, 0, 0, 1, 0x06, 1, .U16, .CONST, false, 0, 65535, 1⟩
  | .TYPE_LEN => ⟨0x0010, 1, 1, 16, 0x01, 1, .U8, .CONST, false, 0, 255, 0⟩
  | .TYPE_NAME => ⟨0x0010, 1, 1, 16, 0x02, 1, .STR, .CONST, false, 0, 255, 0⟩
  | .SESSIONS_OPEN => ⟨0x1000, 0, 0, 1, 0x01, 1, .U8, .RO, false, 0, 8, 0⟩
  | .SESSION_TIMEOUT => ⟨0x1000, 0, 0, 1, 0x02, 1, .U16, .RW, false, 100, 60000, 10000⟩
  | .SESSION_STATE => ⟨0x1010, 1, 1, 9, 0x01, 1, .U8, .RO, false, 0, 2, 0⟩
  | .SESSION_OUTSTANDING => ⟨0x1010, 1, 1, 9, 0x02, 1, .U16, .RO, false, 0, 256, 0⟩
  | .SESSION_REQUESTS => ⟨0x1010, 1, 1, 9, 0x03, 1, .U32, .RO, false, 0, 4294967295, 0⟩
  | .SESSION_VIOLATIONS => ⟨0x1010, 1, 1, 9, 0x04, 1, .U32, .RO, false, 0, 4294967295, 0⟩
  | .SESSION_PEER => ⟨0x1010, 1, 1, 9, 0x05, 1, .U32, .RO, false, 0, 4294967295, 0⟩
  | .SESSION_KEY => ⟨0x1010, 1, 1, 9, 0x06, 1, .BLOB, .WO, true, 0, 32, 0⟩
  | .SESSION_SECURE_ONLY => ⟨0x1010, 1, 1, 9, 0x07, 1, .BOOL, .RW, true, 0, 1, 0⟩
  | .MODE => ⟨0x2300, 0, 0, 1, 0x01, 1, .U8, .RW, false, 0, 15, 0⟩
  | .MODE_PENDING => ⟨0x2300, 0, 0, 1, 0x02, 1, .U8, .RO, false, 0, 143, 0⟩
  | .MODE_SWITCHES => ⟨0x2300, 0, 0, 1, 0x03, 1, .U32, .RO, false, 0, 4294967295, 0⟩
  | .MODE_REJECTS => ⟨0x2300, 0, 0, 1, 0x04, 1, .U32, .RO, false, 0, 4294967295, 0⟩
  | .IMAGE_ID => ⟨0x2300, 0, 0, 1, 0x05, 1, .U32, .RO, false, 0, 4294967295, 0⟩
  | .IMAGE_HALF => ⟨0x2300, 0, 0, 1, 0x06, 1, .U8, .RO, false, 0, 1, 0⟩
  | .IMAGE_COMMIT => ⟨0x2300, 0, 0, 1, 0x07, 1, .U8, .WO, true, 1, 1, 0⟩
  | .IMAGE_COMMITS => ⟨0x2300, 0, 0, 1, 0x08, 1, .U32, .RO, false, 0, 4294967295, 0⟩
  | .LOAD_BASE => ⟨0x2300, 0, 0, 1, 0x09, 1, .U8, .WO, true, 1, 1, 0⟩
  | .CONFIG_OWNER => ⟨0x2300, 0, 0, 1, 0x0A, 1, .U8, .RW, false, 0, 8, 0⟩
  | .CONFIG_SECURE => ⟨0x2300, 0, 0, 1, 0x0B, 1, .BOOL, .RW, false, 0, 1, 0⟩
  | .OVERLAY_TRIPLES => ⟨0x2310, 1, 1, 16, 0x01, 1, .U16, .RO, false, 0, 8192, 0⟩
  | .OVERLAY_SECURE => ⟨0x2310, 1, 1, 16, 0x02, 1, .BOOL, .RO, false, 0, 1, 0⟩
  | .OVERLAY_GROUPS => ⟨0x2310, 1, 1, 16, 0x03, 1, .U16, .RO, false, 0, 65535, 0⟩
  | .VIOL_TOTAL => ⟨0x3000, 0, 0, 1, 0x01, 1, .U32, .RO, false, 0, 4294967295, 0⟩
  | .VIOL_NEWEST => ⟨0x3000, 0, 0, 1, 0x02, 1, .U8, .RO, false, 0, 64, 0⟩
  | .VIOL_CLEAR => ⟨0x3000, 0, 0, 1, 0x03, 1, .U8, .WO, false, 1, 1, 0⟩
  | .VIOL_ENTRY => ⟨0x3001, 0, 0, 1, 0x01, 64, .BLOB, .RO, false, 16, 16, 0⟩
  | .GROUP_OWNER => ⟨0x4000, 16, 0, 16, 0x02, 1, .U8, .RW, false, 0, 8, 0⟩
  | .GROUP_SECURE => ⟨0x4000, 16, 0, 16, 0x03, 1, .BOOL, .RW, false, 0, 1, 0⟩
  | .CH_OWNER => ⟨0x8000, 1, 0, 512, 0x31, 1, .U8, .RW, false, 0, 8, 0⟩
  | .CH_SECURE => ⟨0x8000, 1, 0, 512, 0x32, 1, .BOOL, .RW, false, 0, 1, 0⟩
  | .OUT_CMD => ⟨0x8000, 1, 0, 512, 0x01, 1, .U8, .WO, false, 0, 4, 0⟩
  | .OUT_STATE => ⟨0x8000, 1, 0, 512, 0x02, 1, .U8, .RO, false, 0, 255, 0⟩
  | .OUT_CAUSE => ⟨0x8000, 1, 0, 512, 0x03, 1, .U8, .RO, false, 0, 11, 0⟩
  | .SENSE_SEL => ⟨0x8000, 1, 0, 512, 0x04, 1, .U8, .RW, false, 0, 1, 0⟩
  | .SAFE_LEVEL => ⟨0x8000, 1, 0, 512, 0x05, 1, .I32, .RW, false, (-13750000), 13750000, 0⟩
  | .OFF_SLEW => ⟨0x8000, 1, 0, 512, 0x06, 1, .U16, .RW, false, 10, 50000, 1000⟩
  | .BOOST_DECL => ⟨0x8000, 1, 0, 512, 0x07, 1, .BOOL, .RW, false, 0, 1, 0⟩
  | .BOOST_RANGE => ⟨0x8000, 1, 0, 512, 0x08, 1, .U8, .RW, false, 6, 8, 6⟩
  | .BOOST_GAIN => ⟨0x8000, 1, 0, 512, 0x09, 1, .U16, .RW, false, 256, 1280, 256⟩
  | .SLICE_POS => ⟨0x8000, 1, 0, 512, 0x0A, 1, .U8, .RO, false, 0, 255, 0⟩
  | .ISO_STATE => ⟨0x8000, 1, 0, 512, 0x0B, 1, .U8, .RO, false, 0, 255, 2⟩
  | .DAC_CODE => ⟨0x8000, 1, 0, 512, 0x0C, 1, .I32, .RO, false, (-524288), 524287, 0⟩
  | .DRV_LIMIT_TICKS => ⟨0x8000, 1, 0, 512, 0x0D, 1, .U32, .RO, false, 0, 4294967295, 0⟩
  | .STATE_CHANGES => ⟨0x8000, 1, 0, 512, 0x0E, 1, .U32, .RO, false, 0, 4294967295, 0⟩
  | .GUARD_SRC => ⟨0x4002, 16, 0, 16, 0x01, 1, .U8, .RW, false, 0, 33, 0⟩
  | .SPARE_STATE => ⟨0x4002, 16, 0, 16, 0x02, 1, .U16, .RO, false, 0, 65535, 0⟩
  | .SLICE_FAILED => ⟨0x4002, 16, 0, 16, 0x03, 1, .U64, .RO, false, 0, 18446744073709551615, 0⟩
  | .CROOK_MOVES => ⟨0x4002, 16, 0, 16, 0x04, 1, .U32, .RO, false, 0, 4294967295, 0⟩
  | .FORCE_MODE => ⟨0x8000, 1, 0, 512, 0x40, 1, .U8, .RW, false, 0, 1, 0⟩
  | .SETPOINT => ⟨0x8000, 1, 0, 512, 0x41, 1, .FRAC24, .RW, false, (-4613734), 4613734, 0⟩
  | .COMPL_LIM => ⟨0x8000, 1, 0, 512, 0x42, 1, .FRAC18, .RW, false, 0, 72089, 6553⟩
  | .COMPL_ENTER => ⟨0x8000, 1, 0, 512, 0x43, 1, .U8, .RW, false, 1, 255, 1⟩
  | .COMPL_EXIT => ⟨0x8000, 1, 0, 512, 0x44, 1, .U8, .RW, false, 1, 255, 2⟩
  | .VKP => ⟨0x8000, 1, 0, 512, 0x48, 1, .FRAC18, .RW, false, (-131072), 131071, 0⟩
  | .VKI => ⟨0x8000, 1, 0, 512, 0x49, 1, .FRAC18, .RW, false, (-131072), 131071, 8192⟩
  | .VKD => ⟨0x8000, 1, 0, 512, 0x4A, 1, .FRAC18, .RW, false, (-131072), 131071, 0⟩
  | .VKB => ⟨0x8000, 1, 0, 512, 0x4B, 1, .FRAC18, .RW, false, (-131072), 131071, 16384⟩
  | .V_SHIFTS => ⟨0x8000, 1, 0, 512, 0x4C, 1, .U16, .RW, false, 0, 65535, 0⟩
  | .IKP => ⟨0x8000, 1, 0, 512, 0x50, 1, .FRAC18, .RW, false, (-131072), 131071, 0⟩
  | .IKI => ⟨0x8000, 1, 0, 512, 0x51, 1, .FRAC18, .RW, false, (-131072), 131071, 2048⟩
  | .IKD => ⟨0x8000, 1, 0, 512, 0x52, 1, .FRAC18, .RW, false, (-131072), 131071, 0⟩
  | .IKB => ⟨0x8000, 1, 0, 512, 0x53, 1, .FRAC18, .RW, false, (-131072), 131071, 16384⟩
  | .I_SHIFTS => ⟨0x8000, 1, 0, 512, 0x54, 1, .U16, .RW, false, 0, 65535, 0⟩
  | .NOTCH_EN => ⟨0x8000, 1, 0, 512, 0x58, 1, .BOOL, .RW, false, 0, 1, 0⟩
  | .NB0 => ⟨0x8000, 1, 0, 512, 0x59, 1, .FRAC18, .RW, false, (-131072), 131071, 65536⟩
  | .NB1 => ⟨0x8000, 1, 0, 512, 0x5A, 1, .FRAC18, .RW, false, (-131072), 131071, 0⟩
  | .NB2 => ⟨0x8000, 1, 0, 512, 0x5B, 1, .FRAC18, .RW, false, (-131072), 131071, 0⟩
  | .NA1 => ⟨0x8000, 1, 0, 512, 0x5C, 1, .FRAC18, .RW, false, (-131072), 131071, 0⟩
  | .NA2 => ⟨0x8000, 1, 0, 512, 0x5D, 1, .FRAC18, .RW, false, (-131072), 131071, 0⟩
  | .NOTCH_SHIFTS => ⟨0x8000, 1, 0, 512, 0x5E, 1, .U32, .RW, false, 0, 4294967295, 65536⟩
  | .VKFF => ⟨0x8000, 1, 0, 512, 0x60, 1, .FRAC18, .RW, false, (-131072), 131071, 0⟩
  | .IKFF => ⟨0x8000, 1, 0, 512, 0x61, 1, .FRAC18, .RW, false, (-131072), 131071, 0⟩
  | .FF_SHIFTS => ⟨0x8000, 1, 0, 512, 0x62, 1, .U8, .RW, false, 0, 255, 0⟩
  | .LAW_HOLD => ⟨0x8000, 1, 0, 512, 0x64, 1, .BOOL, .RW, false, 0, 1, 0⟩
  | .LOOP_STATUS => ⟨0x8000, 1, 0, 512, 0x65, 1, .U8, .RO, false, 0, 255, 12⟩
  | .COMPL_TICKS => ⟨0x8000, 1, 0, 512, 0x66, 1, .U32, .RO, false, 0, 4294967295, 0⟩
  | .LOOP_SAT_TICKS => ⟨0x8000, 1, 0, 512, 0x67, 1, .U32, .RO, false, 0, 4294967295, 0⟩
  | .LOOP_HELD_TICKS => ⟨0x8000, 1, 0, 512, 0x68, 1, .U32, .RO, false, 0, 4294967295, 0⟩
  | .INTEG_P => ⟨0x8000, 1, 0, 512, 0x69, 1, .I32, .RO, false, (-16777216), 16777215, 0⟩
  | .INTEG_LH => ⟨0x8000, 1, 0, 512, 0x6A, 1, .I32, .RO, false, (-16777216), 16777215, 0⟩
  | .INTEG_LL => ⟨0x8000, 1, 0, 512, 0x6B, 1, .I32, .RO, false, (-16777216), 16777215, 0⟩
  | .CTL_RUN => ⟨0x4003, 16, 0, 16, 0x01, 1, .BOOL, .RW, false, 0, 1, 1⟩
  | .V_RANGE => ⟨0x8000, 1, 0, 512, 0x70, 1, .U8, .RW, false, 0, 2, 2⟩
  | .I_RANGE => ⟨0x8000, 1, 0, 512, 0x71, 1, .U8, .RW, false, 0, 8, 5⟩
  | .RANGE_SET => ⟨0x8000, 1, 0, 512, 0x72, 1, .U8, .WO, false, 0, 255, 0⟩
  | .SLIDE_STATUS => ⟨0x8000, 1, 0, 512, 0x73, 1, .U8, .RO, false, 0, 255, 0⟩
  | .SLIDE_COUNT => ⟨0x8000, 1, 0, 512, 0x74, 1, .U32, .RO, false, 0, 4294967295, 0⟩
  | .SLIDE_REFUSED => ⟨0x8000, 1, 0, 512, 0x75, 1, .U32, .RO, false, 0, 4294967295, 0⟩
  | .AR_CTRL => ⟨0x8000, 1, 0, 512, 0x76, 1, .U8, .RW, false, 0, 255, 0⟩
  | .AR_I_BOUNDS => ⟨0x8000, 1, 0, 512, 0x77, 1, .U8, .RW, false, 0, 255, 80⟩
  | .AR_V_BOUNDS => ⟨0x8000, 1, 0, 512, 0x78, 1, .U8, .RW, false, 0, 255, 32⟩
  | .AR_I_UP => ⟨0x8000, 1, 0, 512, 0x79, 1, .FRAC18, .RW, false, 32768, 72089, 65536⟩
  | .AR_I_DOWN => ⟨0x8000, 1, 0, 512, 0x7A, 1, .FRAC18, .RW, false, 0, 6553, 5898⟩
  | .AR_V_UP => ⟨0x8000, 1, 0, 512, 0x7B, 1, .FRAC18, .RW, false, 32768, 72089, 65536⟩
  | .AR_V_DOWN => ⟨0x8000, 1, 0, 512, 0x7C, 1, .FRAC18, .RW, false, 0, 13107, 11796⟩
  | .AR_UP_TICKS => ⟨0x8000, 1, 0, 512, 0x7D, 1, .U8, .RW, false, 1, 16, 1⟩
  | .AR_DOWN_TICKS => ⟨0x8000, 1, 0, 512, 0x7E, 1, .U16, .RW, false, 1, 65535, 64⟩
  | .SLIDE_BLANK => ⟨0x8000, 1, 0, 512, 0x7F, 1, .U8, .RW, false, 0, 20, 3⟩
  | .APERTURE_N => ⟨0x8000, 1, 0, 512, 0x80, 1, .U32, .RW, false, 1, 1000000, 1000⟩
  | .APERTURE_REBASE => ⟨0x8000, 1, 0, 512, 0x81, 1, .U8, .WO, false, 1, 1, 0⟩
  | .LAST_RECORD => ⟨0x8000, 1, 0, 512, 0x82, 1, .BLOB, .RO, false, 16, 16, 0⟩
  | .REC_NEXT => ⟨0x8000, 1, 0, 512, 0x83, 1, .U64, .RO, false, 0, 18446744073709551615, 0⟩
  | .REC_RESERVED => ⟨0x8000, 1, 0, 512, 0x84, 1, .U64, .RO, false, 0, 18446744073709551615, 0⟩
  | .REC_LOST => ⟨0x8000, 1, 0, 512, 0x85, 1, .U32, .RO, false, 0, 4294967295, 0⟩
  | .REC_STALE => ⟨0x8000, 1, 0, 512, 0x86, 1, .U32, .RO, false, 0, 4294967295, 0⟩
  | .OVR_SAMPLES => ⟨0x8000, 1, 0, 512, 0x87, 1, .U32, .RO, false, 0, 4294967295, 0⟩
  | .TEV_V_CTRL => ⟨0x8000, 1, 0, 512, 0x88, 1, .U8, .RW, false, 0, 255, 0⟩
  | .TEV_V_LEVEL => ⟨0x8000, 1, 0, 512, 0x89, 1, .FRAC24, .RW, false, (-4613734), 4613734, 4194304⟩
  | .TEV_V_HYST => ⟨0x8000, 1, 0, 512, 0x8A, 1, .FRAC24, .RW, false, 0, 4613734, 0⟩
  | .TEV_V_STATE => ⟨0x8000, 1, 0, 512, 0x8B, 1, .U8, .RO, false, 0, 1, 0⟩
  | .TEV_I_CTRL => ⟨0x8000, 1, 0, 512, 0x8C, 1, .U8, .RW, false, 0, 255, 0⟩
  | .TEV_I_LEVEL => ⟨0x8000, 1, 0, 512, 0x8D, 1, .FRAC24, .RW, false, (-4613734), 4613734, 4194304⟩
  | .TEV_I_HYST => ⟨0x8000, 1, 0, 512, 0x8E, 1, .FRAC24, .RW, false, 0, 4613734, 0⟩
  | .TEV_I_STATE => ⟨0x8000, 1, 0, 512, 0x8F, 1, .U8, .RO, false, 0, 1, 0⟩
  | .TEV_V_COUNT => ⟨0x8000, 1, 0, 512, 0x90, 1, .U32, .RO, false, 0, 4294967295, 0⟩
  | .TEV_I_COUNT => ⟨0x8000, 1, 0, 512, 0x91, 1, .U32, .RO, false, 0, 4294967295, 0⟩
  | .REC_RSV_WAIT => ⟨0x8000, 1, 0, 512, 0x92, 1, .U32, .RO, false, 0, 4294967295, 0⟩
  | .AGG_LAST => ⟨0x8000, 1, 0, 512, 0x98, 1, .BLOB, .RO, false, 32, 32, 0⟩
  | .FILT_RUN => ⟨0x4004, 16, 0, 16, 0x01, 1, .BOOL, .RW, false, 0, 1, 1⟩
  | .FILT_STATE => ⟨0x4004, 16, 0, 16, 0x02, 1, .U8, .RO, false, 0, 2, 0⟩
  | .REC_FIR_LEN => ⟨0x4004, 16, 0, 16, 0x03, 1, .U8, .RWS, false, 2, 64, 2⟩
  | .AGG_PERIOD => ⟨0x4004, 16, 0, 16, 0x04, 1, .U16, .RW, false, 1, 60000, 1000⟩
  | .LOOP_FIR_DELAY => ⟨0x4004, 16, 0, 16, 0x05, 1, .U32, .RO, false, 0, 4294967295, 1437500⟩
  | .REC_FIR_DELAY => ⟨0x4004, 16, 0, 16, 0x06, 1, .U32, .RO, false, 0, 4294967295, 1437500⟩
  | .OVERLOADS => ⟨0x4004, 16, 0, 16, 0x07, 1, .U32, .RO, false, 0, 4294967295, 0⟩
  | .AGG_LAST_START => ⟨0x4004, 16, 0, 16, 0x08, 1, .TIME80, .RO, false, 0, 1208925819614629174706175, 0⟩
  | .LOOP_FIR => ⟨0x4005, 16, 0, 16, 0x01, 16, .FRAC18, .RWS, false, (-131072), 131071, 0⟩
  | .REC_FIR => ⟨0x4006, 16, 0, 16, 0x01, 64, .FRAC18, .RWS, false, (-131072), 131071, 0⟩
  | .REC_BUF_BLOCKS => ⟨0x2400, 0, 0, 1, 0x01, 1, .U16, .CONST, false, 0, 65535, 12160⟩
  | .REC_BUF_FREE => ⟨0x2400, 0, 0, 1, 0x02, 1, .U16, .RO, false, 0, 12160, 12160⟩
  | .REC_BUF_CAP => ⟨0x2400, 0, 0, 1, 0x03, 1, .U16, .RW, false, 1, 12160, 64⟩
  | .REC_FLUSH => ⟨0x2400, 0, 0, 1, 0x04, 1, .U32, .RW, false, 10, 1000000, 1000⟩
  | .REC_LOST_TOTAL => ⟨0x2400, 0, 0, 1, 0x05, 1, .U32, .RO, false, 0, 4294967295, 0⟩
  | .BLOCK_DISCARDS => ⟨0x2400, 0, 0, 1, 0x06, 1, .U32, .RO, false, 0, 4294967295, 0⟩
  | .CHT_CMD => ⟨0xA000, 1, 0, 512, 0x01, 1, .U8, .WO, false, 0, 4, 0⟩
  | .CHT_STATE => ⟨0xA000, 1, 0, 512, 0x02, 1, .U8, .RO, false, 0, 255, 0⟩
  | .CHT_START => ⟨0xA000, 1, 0, 512, 0x03, 1, .U32, .RW, false, 0, 131071, 0⟩
  | .CHT_POS => ⟨0xA000, 1, 0, 512, 0x04, 1, .U32, .RO, false, 0, 131071, 0⟩
  | .CHT_UNIT => ⟨0xA000, 1, 0, 512, 0x05, 1, .U16, .RO, false, 0, 65535, 0⟩
  | .CHT_POINT => ⟨0xA000, 1, 0, 512, 0x06, 1, .U16, .RO, false, 0, 65535, 0⟩
  | .CHT_HALT => ⟨0xA000, 1, 0, 512, 0x07, 1, .U8, .RO, false, 0, 9, 0⟩
  | .SW_BASE => ⟨0xA000, 1, 0, 512, 0x08, 1, .U32, .RWS, false, 0, 131071, 0⟩
  | .SW_LEN => ⟨0xA000, 1, 0, 512, 0x09, 1, .U32, .RWS, false, 0, 131072, 256⟩
  | .CHT_UNITS => ⟨0xA000, 1, 0, 512, 0x0A, 1, .U32, .RO, false, 0, 4294967295, 0⟩
  | .CHT_CONFLICTS => ⟨0xA000, 1, 0, 512, 0x0B, 1, .U32, .RO, false, 0, 4294967295, 0⟩
  | .CHT_SKIPS => ⟨0xA000, 1, 0, 512, 0x0C, 1, .U32, .RO, false, 0, 4294967295, 0⟩
  | .CHT_REPEATS => ⟨0xA000, 1, 0, 512, 0x0D, 1, .U32, .RO, false, 0, 4294967295, 0⟩
  | .WAVE_CLIPS => ⟨0xA000, 1, 0, 512, 0x0E, 1, .U32, .RO, false, 0, 4294967295, 0⟩
  | .WAVE_PAGES_TOTAL => ⟨0x2500, 0, 0, 1, 0x01, 1, .U16, .CONST, false, 0, 65535, 341⟩
  | .WAVE_PAGES_FREE => ⟨0x2500, 0, 0, 1, 0x02, 1, .U16, .RO, false, 0, 341, 341⟩
  | .WAVE_LEN => ⟨0x2501, 1, 0, 64, 0x01, 1, .U32, .RWS, false, 0, 65536, 0⟩
  | .WAVE_CRC => ⟨0x2501, 1, 0, 64, 0x02, 1, .U32, .RO, false, 0, 4294967295, 0⟩
  | .WAVE_PLAYERS => ⟨0x2501, 1, 0, 64, 0x03, 1, .U16, .RO, false, 0, 512, 0⟩
  | .MAP_EXC_CAP => ⟨0x2600, 0, 0, 1, 0x01, 1, .U32, .CONST, false, 0, 4294967295, 32768⟩
  | .MAP_EXC_USED => ⟨0x2600, 0, 0, 1, 0x02, 1, .U32, .RO, false, 0, 32768, 0⟩
  | .MAP_DIRTY => ⟨0x2600, 0, 0, 1, 0x03, 1, .BOOL, .RO, false, 0, 1, 0⟩
  | .SAFE_MATRIX => ⟨0x2600, 0, 0, 1, 0x04, 1, .U8, .RW, false, 0, 1, 1⟩
  | .MTX_BUSY_MAX => ⟨0x2600, 0, 0, 1, 0x05, 1, .U8, .RW, false, 1, 255, 16⟩
  | .LEDGER_COMMIT => ⟨0x2600, 0, 0, 1, 0x06, 1, .U8, .WO, false, 1, 1, 0⟩
  | .LEDGER_LAST => ⟨0x2600, 0, 0, 1, 0x07, 1, .TIME80, .RO, false, 0, 1208925819614629174706175, 0⟩
  | .LEDGER_CMD => ⟨0x2600, 0, 0, 1, 0x08, 1, .U32, .WO, true, 0, 4294967295, 0⟩
  | .EP_WARNED => ⟨0x2600, 0, 0, 1, 0x09, 1, .U32, .RO, false, 0, 1048576, 0⟩
  | .EP_RETIRED => ⟨0x2600, 0, 0, 1, 0x0A, 1, .U32, .RO, false, 0, 1048576, 0⟩
  | .SP0_WAIT_MAX => ⟨0x2600, 0, 0, 1, 0x0B, 1, .U32, .RO, false, 0, 4294967295, 0⟩
  | .RATED_CYCLES => ⟨0x2601, 0, 0, 1, 0x01, 16, .U32, .RW, false, 0, 268435455, 100000000⟩
  | .MTX_SETTLE => ⟨0x2610, 1, 0, 8, 0x01, 1, .U16, .RW, false, 10, 65535, 5000⟩
  | .MTX_BREAK => ⟨0x2610, 1, 0, 8, 0x02, 1, .U16, .RW, false, 10, 65535, 2500⟩
  | .MTX_STATE => ⟨0x2610, 1, 0, 8, 0x03, 1, .U8, .RO, false, 0, 1, 0⟩
  | .MTX_RESTART => ⟨0x2610, 1, 0, 8, 0x04, 1, .U8, .WO, false, 1, 1, 0⟩
  | .MTX_WORDS => ⟨0x2610, 1, 0, 8, 0x05, 1, .U32, .RO, false, 0, 4294967295, 0⟩
  | .MTX_RESENDS => ⟨0x2610, 1, 0, 8, 0x06, 1, .U32, .RO, false, 0, 4294967295, 0⟩
  | .MTX_BUSY => ⟨0x2610, 1, 0, 8, 0x07, 1, .U32, .RO, false, 0, 4294967295, 0⟩
  | .EP_CONNECT => ⟨0xA000, 1, 0, 512, 0x20, 1, .U16, .WO, false, 0, 65535, 0⟩
  | .EP_HELD => ⟨0xA000, 1, 0, 512, 0x21, 1, .U32, .RO, false, 0, 4294967295, 0⟩
  | .EP_PRIO => ⟨0xA000, 1, 0, 512, 0x22, 1, .U8, .RW, false, 0, 7, 0⟩
  | .EP_CLAIMS => ⟨0xA000, 1, 0, 512, 0x23, 1, .U32, .RO, false, 0, 4294967295, 0⟩
  | .BIAS_ACC => ⟨0xA000, 1, 0, 512, 0x24, 1, .U32, .RO, false, 0, 999999, 0⟩
  | .MON_RUN => ⟨0x3400, 16, 0, 16, 0x01, 1, .BOOL, .RW, false, 0, 1, 1⟩
  | .MON_TRIG => ⟨0x3400, 16, 0, 16, 0x02, 1, .U8, .RW, false, 0, 255, 4⟩
  | .SEQ_LEN => ⟨0x3400, 16, 0, 16, 0x03, 1, .U8, .RW, false, 0, 16, 0⟩
  | .PAIR_TOL => ⟨0x3400, 16, 0, 16, 0x04, 1, .U16, .RW, false, 1, 65535, 64⟩
  | .MON_URGENT => ⟨0x3400, 16, 0, 16, 0x05, 1, .U8, .WO, false, 0, 15, 0⟩
  | .MON_STATE => ⟨0x3400, 16, 0, 16, 0x06, 1, .U8, .RO, false, 0, 255, 0⟩
  | .MON_SLICES => ⟨0x3400, 16, 0, 16, 0x07, 1, .U16, .RO, false, 0, 65535, 32896⟩
  | .MON_DROPS => ⟨0x3400, 16, 0, 16, 0x08, 1, .U32, .RO, false, 0, 4294967295, 0⟩
  | .TRIG_MISSED => ⟨0x3400, 16, 0, 16, 0x09, 1, .U32, .RO, false, 0, 4294967295, 0⟩
  | .TRIG_LATE => ⟨0x3400, 16, 0, 16, 0x0A, 1, .U32, .RO, false, 0, 4294967295, 0⟩
  | .SEQ_COUNT => ⟨0x3400, 16, 0, 16, 0x0B, 1, .U32, .RO, false, 0, 4294967295, 0⟩
  | .PAIR_FAILS => ⟨0x3400, 16, 0, 16, 0x0C, 1, .U32, .RO, false, 0, 4294967295, 0⟩
  | .PAIR_SKIPPED => ⟨0x3400, 16, 0, 16, 0x0D, 1, .U32, .RO, false, 0, 4294967295, 0⟩
  | .MON_RESTART => ⟨0x3400, 16, 0, 16, 0x0E, 1, .U8, .WO, false, 1, 1, 0⟩
  | .MON_ENTRY => ⟨0x3401, 16, 0, 16, 0x01, 16, .U64, .RW, false, 0, 18446744073709551615, 0⟩
  | .MON_ACC_A => ⟨0x3402, 16, 0, 16, 0x01, 16, .BLOB, .RO, false, 16, 16, 0⟩
  | .MON_ACC_B => ⟨0x3403, 16, 0, 16, 0x01, 16, .BLOB, .RO, false, 16, 16, 0⟩
  | .MON_SNAP => ⟨0x3404, 16, 0, 16, 0x01, 1, .BLOB, .RO, false, 512, 512, 0⟩
  | .MTRGO_MODE => ⟨0x3500, 0, 0, 1, 0x01, 1, .U8, .RW, false, 0, 1, 0⟩
  | .MTRGO_PERIOD => ⟨0x3500, 0, 0, 1, 0x02, 1, .U32, .RW, false, 10, 1000000, 1000⟩
  | .MTRGO_PHASE => ⟨0x3500, 0, 0, 1, 0x03, 1, .U32, .RW, false, 0, 999999, 0⟩
  | .MTRGO_PULSE => ⟨0x3500, 0, 0, 1, 0x04, 1, .U8, .WO, false, 1, 1, 0⟩
  | .MTRGO_COUNT => ⟨0x3500, 0, 0, 1, 0x05, 1, .U32, .RO, false, 0, 4294967295, 0⟩
  | .MON_CLEAR_SESSION => ⟨0x3500, 0, 0, 1, 0x06, 1, .U8, .RW, false, 0, 8, 0⟩
  | .REED_V_CTRL => ⟨0x8000, 1, 0, 512, 0xA0, 1, .U8, .RW, false, 0, 255, 1⟩
  | .REED_V_HI => ⟨0x8000, 1, 0, 512, 0xA1, 1, .I16, .RW, false, (-1126), 1126, 1100⟩
  | .REED_V_LO => ⟨0x8000, 1, 0, 512, 0xA2, 1, .I16, .RW, false, (-1126), 1126, (-1100)⟩
  | .REED_I_CTRL => ⟨0x8000, 1, 0, 512, 0xA3, 1, .U8, .RW, false, 0, 255, 1⟩
  | .REED_I_HI => ⟨0x8000, 1, 0, 512, 0xA4, 1, .I16, .RW, false, (-1126), 1126, 1100⟩
  | .REED_I_LO => ⟨0x8000, 1, 0, 512, 0xA5, 1, .I16, .RW, false, (-1126), 1126, (-1100)⟩
  | .REED_STATUS => ⟨0x8000, 1, 0, 512, 0xA6, 1, .U8, .RO, false, 0, 255, 240⟩
  | .REED_CLEAR => ⟨0x8000, 1, 0, 512, 0xA7, 1, .U8, .WO, false, 1, 1, 0⟩
  | .REED_V_TRIPS => ⟨0x8000, 1, 0, 512, 0xA8, 1, .U32, .RO, false, 0, 4294967295, 0⟩
  | .REED_I_TRIPS => ⟨0x8000, 1, 0, 512, 0xA9, 1, .U32, .RO, false, 0, 4294967295, 0⟩
  | .REED_NOOPS => ⟨0x8000, 1, 0, 512, 0xAA, 1, .U32, .RO, false, 0, 4294967295, 0⟩
  | .REED_TEST => ⟨0x3600, 16, 0, 16, 0x01, 1, .U8, .WO, false, 1, 1, 0⟩
  | .REED_FAILED => ⟨0x3600, 16, 0, 16, 0x02, 1, .U64, .RO, false, 0, 18446744073709551615, 0⟩
  | .REED_PASSES => ⟨0x3600, 16, 0, 16, 0x03, 1, .U32, .RO, false, 0, 4294967295, 0⟩
  | .REED_INCONCLUSIVE => ⟨0x3600, 16, 0, 16, 0x04, 1, .U32, .RO, false, 0, 4294967295, 0⟩
  | .REED_TEST_PERIOD => ⟨0x3700, 0, 0, 1, 0x01, 1, .U16, .RW, false, 0, 65535, 60⟩
  | .REED_SLEEP_DIV => ⟨0x3700, 0, 0, 1, 0x02, 1, .U16, .RW, false, 1, 65535, 1000⟩
  | .EV_CTRL => ⟨0x3200, 1, 0, 256, 0x01, 1, .U8, .RW, false, 0, 255, 1⟩
  | .EV_SEL => ⟨0x3200, 1, 0, 256, 0x02, 16, .U16, .RW, false, 0, 65535, 0⟩
  | .EV_ACT => ⟨0x3200, 1, 0, 256, 0x12, 4, .U32, .RW, false, 0, 4294967295, 0⟩
  | .EV_FIRE => ⟨0x3200, 1, 0, 256, 0x16, 1, .U8, .WO, false, 1, 1, 0⟩
  | .EV_OWNER => ⟨0x3200, 1, 0, 256, 0x17, 1, .U8, .RW, false, 0, 8, 0⟩
  | .EV_SECURE => ⟨0x3200, 1, 0, 256, 0x18, 1, .BOOL, .RW, false, 0, 1, 0⟩
  | .EV_ASSERTS => ⟨0x3200, 1, 0, 256, 0x19, 1, .U32, .RO, false, 0, 4294967295, 0⟩
  | .EV_MERGED => ⟨0x3200, 1, 0, 256, 0x1A, 1, .U32, .RO, false, 0, 4294967295, 0⟩
  | .EV_IGNORED => ⟨0x3200, 1, 0, 256, 0x1B, 1, .U32, .RO, false, 0, 4294967295, 0⟩
  | .EV_DENIED => ⟨0x3200, 1, 0, 256, 0x1C, 1, .U32, .RO, false, 0, 4294967295, 0⟩
  | .EV_NOOPS => ⟨0x3200, 1, 0, 256, 0x1D, 1, .U32, .RO, false, 0, 4294967295, 0⟩
  | .EV_LAST => ⟨0x3200, 1, 0, 256, 0x1E, 1, .TIME80, .RO, false, 0, 1208925819614629174706175, 0⟩
  | .EG_EN => ⟨0x3300, 0, 0, 1, 0x01, 1, .U16, .RW, false, 0, 65535, 65535⟩
  | .EVI_STATE => ⟨0x3300, 0, 0, 1, 0x02, 1, .U16, .RO, false, 0, 65535, 0⟩
  | .EVO_STATE => ⟨0x3300, 0, 0, 1, 0x03, 1, .U16, .RO, false, 0, 65535, 0⟩
  | .EV_SLEEP_DROPS => ⟨0x3300, 0, 0, 1, 0x04, 1, .U32, .RO, false, 0, 4294967295, 0⟩
  | .EV_LOG_NEWEST => ⟨0x3300, 0, 0, 1, 0x05, 1, .U16, .RO, false, 0, 4095, 0⟩
  | .EV_LOG_TOTAL => ⟨0x3300, 0, 0, 1, 0x06, 1, .U32, .RO, false, 0, 4294967295, 0⟩
  | .EV_LOG_DROPS => ⟨0x3300, 0, 0, 1, 0x07, 1, .U32, .RO, false, 0, 4294967295, 0⟩
  | .EV_LOG_CLEAR => ⟨0x3300, 0, 0, 1, 0x08, 1, .U8, .WO, false, 1, 1, 0⟩
  | .EVO_PULSE_W => ⟨0x3301, 0, 0, 1, 0x01, 16, .U16, .RW, false, 1, 65535, 1⟩
  | .CAL_CHANNELS => ⟨0x4007, 16, 0, 16, 0x01, 1, .U32, .RW, false, 0, 4294967295, 0⟩
  | .CAL_SPARE => ⟨0x4007, 16, 0, 16, 0x02, 1, .BOOL, .RW, false, 0, 1, 0⟩
  | .CAL_RANGES => ⟨0x4007, 16, 0, 16, 0x03, 1, .U16, .RW, false, 1, 4095, 4095⟩
  | .CAL_KIND => ⟨0x4007, 16, 0, 16, 0x04, 1, .U8, .RW, false, 1, 4, 1⟩
  | .CAL_STD => ⟨0x4007, 16, 0, 16, 0x05, 1, .I32, .RW, false, (-2147483648), 2147483647, 0⟩
  | .CAL_CMD => ⟨0x4007, 16, 0, 16, 0x06, 1, .U8, .WO, false, 1, 2, 0⟩
  | .CAL_STATE => ⟨0x4007, 16, 0, 16, 0x07, 1, .U8, .RO, false, 0, 255, 0⟩
  | .CAL_RESULT => ⟨0x4007, 16, 0, 16, 0x08, 1, .U8, .RO, false, 0, 11, 0⟩
  | .CAL_COMMIT_TIME => ⟨0x4007, 16, 0, 16, 0x09, 1, .TIME80, .RO, false, 0, 1208925819614629174706175, 0⟩
  | .CAL_STATUS => ⟨0x8000, 1, 0, 512, 0xB0, 1, .U8, .RO, false, 0, 255, 0⟩
  | .SLICE_TEMP => ⟨0x8000, 1, 0, 512, 0xB1, 1, .I16, .RO, false, (-32768), 32767, 0⟩
  | .CAL_DT_V => ⟨0x8000, 1, 0, 512, 0xB2, 1, .I16, .RO, false, (-32768), 32767, 0⟩
  | .CAL_DT_I => ⟨0x8000, 1, 0, 512, 0xB3, 1, .I16, .RO, false, (-32768), 32767, 0⟩
  | .CAL_LOAD_P => ⟨0x8000, 1, 0, 512, 0xB4, 1, .U32, .RO, false, 0, 4294967295, 0⟩
  | .CAL_AVG => ⟨0x2700, 0, 0, 1, 0x01, 1, .U32, .RW, false, 256, 1000000, 2000⟩
  | .CAL_SETTLE => ⟨0x2700, 0, 0, 1, 0x02, 1, .U16, .RW, false, 10, 10000, 200⟩
  | .CAL_DIST_T => ⟨0x2700, 0, 0, 1, 0x03, 1, .U16, .RW, false, 16, 2560, 128⟩
  | .CAL_COMMITS => ⟨0x2700, 0, 0, 1, 0x04, 1, .U32, .RO, false, 0, 4294967295, 0⟩
  | .CAL_HALF => ⟨0x2700, 0, 0, 1, 0x05, 1, .U8, .RO, false, 0, 2, 0⟩
  | .FLT_REPORTS => ⟨0x3100, 0, 0, 1, 0x01, 1, .U32, .RO, false, 0, 4294967295, 0⟩
  | .FLT_NOTES => ⟨0x3100, 0, 0, 1, 0x02, 1, .U32, .RO, false, 0, 4294967295, 0⟩
  | .FLT_TRANSIENTS => ⟨0x3100, 0, 0, 1, 0x03, 1, .U32, .RO, false, 0, 4294967295, 0⟩
  | .FLT_SEVERES => ⟨0x3100, 0, 0, 1, 0x04, 1, .U32, .RO, false, 0, 4294967295, 0⟩
  | .FLT_COALESCED => ⟨0x3100, 0, 0, 1, 0x05, 1, .U32, .RO, false, 0, 4294967295, 0⟩
  | .FLT_QUEUE_MAX => ⟨0x3100, 0, 0, 1, 0x06, 1, .U8, .RO, false, 0, 64, 0⟩
  | .FLT_LOG_NEWEST => ⟨0x3100, 0, 0, 1, 0x07, 1, .U16, .RO, false, 0, 4095, 0⟩
  | .FLT_LOG_TOTAL => ⟨0x3100, 0, 0, 1, 0x08, 1, .U32, .RO, false, 0, 4294967295, 0⟩
  | .FLT_LOG_CLEAR => ⟨0x3100, 0, 0, 1, 0x09, 1, .U8, .WO, true, 1, 1, 0⟩
  | .FLT_UNFENCE => ⟨0x3100, 0, 0, 1, 0x0A, 1, .U16, .WO, true, 0, 1257, 0⟩
  | .FLT_SAFE => ⟨0x3100, 0, 0, 1, 0x0B, 1, .U8, .WO, true, 1, 1, 0⟩
  | .FLT_SAFE_STATE => ⟨0x3100, 0, 0, 1, 0x0C, 1, .BOOL, .RO, false, 0, 1, 0⟩
  | .FLT_SAFE_CAUSE => ⟨0x3100, 0, 0, 1, 0x0D, 1, .BLOB, .RO, false, 16, 16, 0⟩
  | .FLT_FENCED => ⟨0x3100, 0, 0, 1, 0x0E, 1, .U16, .RO, false, 0, 1258, 0⟩
  | .FLT_N => ⟨0x3110, 1, 0, 23, 0x01, 1, .U8, .RW, true, 1, 255, 0⟩
  | .FLT_W => ⟨0x3110, 1, 0, 23, 0x02, 1, .U32, .RW, true, 1, 3600000, 0⟩
  | .FLT_SEVERE_ACT => ⟨0x3110, 1, 0, 23, 0x03, 1, .U8, .RW, true, 0, 1, 0⟩
  | .SRC_LEVEL => ⟨0xF000, 1, 0, 1258, 0x01, 1, .U8, .RO, false, 0, 255, 0⟩
  | .SRC_FENCED => ⟨0xF000, 1, 0, 1258, 0x02, 1, .BOOL, .RO, false, 0, 1, 0⟩
  | .SRC_REPORTS => ⟨0xF000, 1, 0, 1258, 0x03, 1, .U32, .RO, false, 0, 4294967295, 0⟩
  | .SRC_LAST => ⟨0xF000, 1, 0, 1258, 0x04, 1, .BLOB, .RO, false, 16, 16, 0⟩
  | .NET_MODE => ⟨0x1100, 1, 0, 2, 0x01, 1, .U8, .RW, false, 0, 2, 1⟩
  | .NET_AN => ⟨0x1100, 1, 0, 2, 0x02, 1, .BOOL, .RW, false, 0, 1, 1⟩
  | .NET_JUMBO => ⟨0x1100, 1, 0, 2, 0x03, 1, .BOOL, .RW, false, 0, 1, 0⟩
  | .NET_VLAN => ⟨0x1100, 1, 0, 2, 0x04, 1, .U16, .RW, false, 0, 4094, 0⟩
  | .NET_PCP => ⟨0x1100, 1, 0, 2, 0x05, 1, .U8, .RW, false, 0, 7, 0⟩
  | .NET_MAC => ⟨0x1100, 1, 0, 2, 0x06, 1, .U64, .CONST, false, 0, 18446744073709551615, 0⟩
  | .NET_ADDR_MODE => ⟨0x1100, 1, 0, 2, 0x07, 1, .U8, .RW, false, 0, 1, 1⟩
  | .NET_IP_STATIC => ⟨0x1100, 1, 0, 2, 0x08, 1, .U32, .RW, false, 0, 4294967295, 0⟩
  | .NET_MASK => ⟨0x1100, 1, 0, 2, 0x09, 1, .U32, .RW, false, 0, 4294967295, 4294967040⟩
  | .NET_GW => ⟨0x1100, 1, 0, 2, 0x0A, 1, .U32, .RW, false, 0, 4294967295, 0⟩
  | .NET_IP => ⟨0x1100, 1, 0, 2, 0x0B, 1, .U32, .RO, false, 0, 4294967295, 0⟩
  | .NET_LEASE => ⟨0x1100, 1, 0, 2, 0x0C, 1, .U32, .RO, false, 0, 4294967295, 0⟩
  | .NET_STATE => ⟨0x1100, 1, 0, 2, 0x0D, 1, .U8, .RO, false, 0, 255, 0⟩
  | .NET_CAPACITY => ⟨0x1100, 1, 0, 2, 0x0E, 1, .U32, .RO, false, 0, 4294967295, 0⟩
  | .NET_LOAD => ⟨0x1100, 1, 0, 2, 0x0F, 1, .U32, .RO, false, 0, 4294967295, 0⟩
  | .NET_RX_FRAMES => ⟨0x1100, 1, 0, 2, 0x10, 1, .U32, .RO, false, 0, 4294967295, 0⟩
  | .NET_RX_ERRORS => ⟨0x1100, 1, 0, 2, 0x11, 1, .U32, .RO, false, 0, 4294967295, 0⟩
  | .NET_DROPS => ⟨0x1100, 1, 0, 2, 0x12, 1, .U32, .RO, false, 0, 4294967295, 0⟩
  | .NET_TX_FRAMES => ⟨0x1100, 1, 0, 2, 0x13, 1, .U32, .RO, false, 0, 4294967295, 0⟩
  | .STREAM_EN => ⟨0x1200, 1, 0, 32, 0x01, 1, .BOOL, .RW, false, 0, 1, 0⟩
  | .STREAM_PORTS => ⟨0x1200, 1, 0, 32, 0x02, 1, .U8, .RWS, false, 1, 3, 1⟩
  | .STREAM_DEST_IP => ⟨0x1200, 1, 0, 32, 0x03, 1, .U32, .RWS, false, 0, 4294967295, 0⟩
  | .STREAM_DEST_PORT => ⟨0x1200, 1, 0, 32, 0x04, 1, .U16, .RWS, false, 1, 65535, 47121⟩
  | .STREAM_CHANNELS => ⟨0x1200, 1, 0, 32, 0x05, 1, .BLOB, .RWS, false, 64, 64, 0⟩
  | .STREAM_AGG_GROUPS => ⟨0x1200, 1, 0, 32, 0x06, 1, .U16, .RWS, false, 0, 65535, 0⟩
  | .STREAM_FAILOVER => ⟨0x1200, 1, 0, 32, 0x07, 1, .BOOL, .RWS, false, 0, 1, 1⟩
  | .STREAM_PKT_MAX => ⟨0x1200, 1, 0, 32, 0x08, 1, .U16, .RWS, false, 16, 512, 512⟩
  | .STREAM_STATE => ⟨0x1200, 1, 0, 32, 0x09, 1, .U8, .RO, false, 0, 3, 0⟩
  | .STREAM_PACKETS => ⟨0x1200, 1, 0, 32, 0x0A, 1, .U32, .RO, false, 0, 4294967295, 0⟩
  | .STREAM_RECORDS => ⟨0x1200, 1, 0, 32, 0x0B, 1, .U64, .RO, false, 0, 18446744073709551615, 0⟩
  | .TIME_SRC => ⟨0x1300, 0, 0, 1, 0x01, 1, .U8, .RW, false, 0, 2, 0⟩
  | .PTP_PORT => ⟨0x1300, 0, 0, 1, 0x02, 1, .U8, .RW, false, 1, 3, 3⟩
  | .PTP_DELAY => ⟨0x1300, 0, 0, 1, 0x03, 1, .U8, .RW, false, 0, 1, 0⟩
  | .PTP_TRANSPORT => ⟨0x1300, 0, 0, 1, 0x04, 1, .U8, .RW, false, 0, 1, 0⟩
  | .PTP_DOMAIN => ⟨0x1300, 0, 0, 1, 0x05, 1, .U8, .RW, false, 0, 255, 0⟩
  | .PTP_TIMEOUT => ⟨0x1300, 0, 0, 1, 0x06, 1, .U16, .RW, false, 500, 60000, 3000⟩
  | .PTP_ASYM => ⟨0x1300, 0, 0, 1, 0x07, 1, .I32, .RW, false, (-1000000), 1000000, 0⟩
  | .PTP_STATE => ⟨0x1300, 0, 0, 1, 0x08, 1, .U8, .RO, false, 0, 5, 1⟩
  | .PTP_OFFSET => ⟨0x1300, 0, 0, 1, 0x09, 1, .I32, .RO, false, (-2147483648), 2147483647, 0⟩
  | .PTP_MEAN_DELAY => ⟨0x1300, 0, 0, 1, 0x0A, 1, .U32, .RO, false, 0, 4294967295, 0⟩
  | .PTP_SOURCE_ID => ⟨0x1300, 0, 0, 1, 0x0B, 1, .U64, .RO, false, 0, 18446744073709551615, 0⟩
  | .PTP_UTC_OFFSET => ⟨0x1300, 0, 0, 1, 0x0C, 1, .I16, .RO, false, (-32768), 32767, 0⟩
  | .PTP_STEPS => ⟨0x1300, 0, 0, 1, 0x0D, 1, .U32, .RO, false, 0, 4294967295, 0⟩
  | .TIME_NOW => ⟨0x1300, 0, 0, 1, 0x0E, 1, .TIME80, .RO, false, 0, 1208925819614629174706175, 0⟩
  | .PPS_SECONDS => ⟨0x1300, 0, 0, 1, 0x0F, 1, .U64, .WO, false, 0, 281474976710655, 0⟩
  | .PPSIN_LAST => ⟨0x1300, 0, 0, 1, 0x10, 1, .TIME80, .RO, false, 0, 1208925819614629174706175, 0⟩
  | .PPSOUT_EN => ⟨0x1300, 0, 0, 1, 0x11, 1, .BOOL, .RW, false, 0, 1, 0⟩
  | .PPSOUT_OFFSET => ⟨0x1300, 0, 0, 1, 0x12, 1, .I32, .RW, false, (-500000000), 499999999, 0⟩
  | .PPSOUT_WIDTH => ⟨0x1300, 0, 0, 1, 0x13, 1, .U32, .RW, false, 1, 900000, 100000⟩
  | .KOP_DROPS => ⟨0x1020, 0, 0, 1, 0x01, 1, .U32, .RO, false, 0, 4294967295, 0⟩
  | .KOP_PEER_REJECTS => ⟨0x1020, 0, 0, 1, 0x02, 1, .U32, .RO, false, 0, 4294967295, 0⟩
  | .KOP_MAC_FAILS => ⟨0x1020, 0, 0, 1, 0x03, 1, .U32, .RO, false, 0, 4294967295, 0⟩
  | .KOP_OPENS => ⟨0x1020, 0, 0, 1, 0x04, 1, .U32, .RO, false, 0, 4294967295, 0⟩
  | .SP_ROLE => ⟨0x1400, 1, 0, 2, 0x01, 1, .U8, .RW, false, 0, 2, 0⟩
  | .SP_IDLE => ⟨0x1400, 1, 0, 2, 0x02, 1, .U16, .RW, false, 1, 65535, 60⟩
  | .SP_STATUS => ⟨0x1400, 1, 0, 2, 0x03, 1, .U8, .RO, false, 0, 255, 0⟩
  | .SP_CLEAR => ⟨0x1400, 1, 0, 2, 0x04, 1, .U8, .WO, false, 1, 1, 0⟩
  | .SP_WORDS => ⟨0x1400, 1, 0, 2, 0x05, 1, .U32, .RO, false, 0, 4294967295, 0⟩
  | .SP_COLLISIONS => ⟨0x1400, 1, 0, 2, 0x06, 1, .U32, .RO, false, 0, 4294967295, 0⟩
  | .SP_STROBE_ERRS => ⟨0x1400, 1, 0, 2, 0x07, 1, .U32, .RO, false, 0, 4294967295, 0⟩
  | .SP_PARTIAL => ⟨0x1400, 1, 0, 2, 0x08, 1, .U32, .RO, false, 0, 4294967295, 0⟩
  | .SP_BUSY_RX => ⟨0x1400, 1, 0, 2, 0x09, 1, .U32, .RO, false, 0, 4294967295, 0⟩
  | .SP_RESTART => ⟨0x1400, 1, 0, 2, 0x0A, 1, .U8, .WO, false, 1, 1, 0⟩
  | .SP1_OWNER => ⟨0x1401, 0, 0, 1, 0x0B, 1, .U8, .RW, false, 0, 8, 0⟩
  | .SP1_SECURE => ⟨0x1401, 0, 0, 1, 0x0C, 1, .BOOL, .RW, false, 0, 1, 0⟩
  | .SEL_CFG => ⟨0x1410, 1, 0, 16, 0x01, 1, .U32, .RW, false, 0, 4294967295, 139264⟩
  | .SEL_LEAD => ⟨0x1410, 1, 0, 16, 0x02, 1, .U16, .RW, false, 1, 1023, 4⟩
  | .SEL_LAG => ⟨0x1410, 1, 0, 16, 0x03, 1, .U16, .RW, false, 1, 1023, 4⟩
  | .SEL_GAP => ⟨0x1410, 1, 0, 16, 0x04, 1, .U16, .RW, false, 1, 65535, 4⟩
  | .SEL_WORDS => ⟨0x1410, 1, 0, 16, 0x05, 1, .U32, .RO, false, 0, 4294967295, 0⟩
  | .SP1_TX => ⟨0x1420, 0, 0, 1, 0x01, 1, .BLOB, .RW, false, 4, 256, 0⟩
  | .SP1_GO => ⟨0x1420, 0, 0, 1, 0x02, 1, .U8, .WO, false, 0, 7, 0⟩
  | .SP1_RX => ⟨0x1420, 0, 0, 1, 0x03, 1, .BLOB, .RO, false, 0, 256, 0⟩
  | .SP1_RESULT => ⟨0x1420, 0, 0, 1, 0x04, 1, .U8, .RO, false, 0, 3, 0⟩
  | .SP1_RX_TIME => ⟨0x1420, 0, 0, 1, 0x05, 1, .TIME80, .RO, false, 0, 1208925819614629174706175, 0⟩
  | .SP1_POLL => ⟨0x1420, 0, 0, 1, 0x06, 1, .U32, .RW, false, 0, 1000000, 0⟩
  | .SP1_POLL_SEL => ⟨0x1420, 0, 0, 1, 0x07, 1, .U8, .RW, false, 0, 7, 0⟩
  | .SP1_POLL_SKIPS => ⟨0x1420, 0, 0, 1, 0x08, 1, .U32, .RO, false, 0, 4294967295, 0⟩
  | .SP1_SLAVE_SEL => ⟨0x1420, 0, 0, 1, 0x09, 1, .U8, .RW, false, 0, 255, 255⟩
  | .SP1_MB_TX => ⟨0x1420, 0, 0, 1, 0x0A, 1, .BLOB, .WO, false, 4, 256, 0⟩
  | .SP1_MB_RX => ⟨0x1420, 0, 0, 1, 0x0B, 1, .BLOB, .RO, false, 0, 256, 0⟩
  | .SP1_MB_LEVEL => ⟨0x1420, 0, 0, 1, 0x0C, 1, .U16, .RO, false, 0, 65535, 0⟩
  | .SP1_MB_OVF => ⟨0x1420, 0, 0, 1, 0x0D, 1, .U32, .RO, false, 0, 4294967295, 0⟩
  | .PAIR_EN => ⟨0x2800, 0, 0, 1, 0x01, 1, .BOOL, .RW, false, 0, 1, 0⟩
  | .PAIR_ID => ⟨0x2800, 0, 0, 1, 0x02, 1, .U8, .RW, false, 0, 1, 0⟩
  | .PAIR_HB_TIMEOUT => ⟨0x2800, 0, 0, 1, 0x03, 1, .U8, .RW, false, 4, 16, 8⟩
  | .PAIR_WIT_EVO => ⟨0x2800, 0, 0, 1, 0x04, 1, .U8, .RW, false, 0, 255, 255⟩
  | .PAIR_WIT_EVI => ⟨0x2800, 0, 0, 1, 0x05, 1, .U8, .RW, false, 0, 255, 255⟩
  | .PAIR_STATE => ⟨0x2800, 0, 0, 1, 0x06, 1, .U8, .RO, false, 0, 9, 0⟩
  | .PAIR_LANES => ⟨0x2800, 0, 0, 1, 0x07, 1, .U8, .RO, false, 0, 255, 0⟩
  | .PAIR_SKEW => ⟨0x2800, 0, 0, 1, 0x08, 1, .I16, .RO, false, (-32768), 32767, 0⟩
  | .PAIR_CELL_ERRS => ⟨0x2800, 0, 0, 1, 0x09, 1, .U32, .RO, false, 0, 4294967295, 0⟩
  | .PAIR_FAILOVERS => ⟨0x2800, 0, 0, 1, 0x0A, 1, .U32, .RO, false, 0, 4294967295, 0⟩
  | .PAIR_HANDOVERS => ⟨0x2800, 0, 0, 1, 0x0B, 1, .U32, .RO, false, 0, 4294967295, 0⟩
  | .PAIR_PARTNER => ⟨0x2800, 0, 0, 1, 0x0C, 1, .U64, .RO, false, 0, 18446744073709551615, 0⟩
  | .PAIR_HOME => ⟨0x4008, 16, 0, 16, 0x01, 1, .U8, .RW, false, 0, 1, 0⟩
  | .PAIR_ROLE => ⟨0x4008, 16, 0, 16, 0x02, 1, .U8, .RO, false, 0, 5, 0⟩
  | .PAIR_HANDOVER => ⟨0x4008, 16, 0, 16, 0x03, 1, .U8, .WO, false, 1, 1, 0⟩
  | .PAIR_LAST_CHANGE => ⟨0x4008, 16, 0, 16, 0x04, 1, .TIME80, .RO, false, 0, 1208925819614629174706175, 0⟩
  | .SCRUB_SRAM_PASSES => ⟨0x2900, 0, 0, 1, 0x01, 1, .U32, .RO, false, 0, 4294967295, 0⟩
  | .SCRUB_SRAM_LAST => ⟨0x2900, 0, 0, 1, 0x02, 1, .U32, .RO, false, 0, 4294967295, 0⟩
  | .SCRUB_NVM_PASSES => ⟨0x2900, 0, 0, 1, 0x03, 1, .U32, .RO, false, 0, 4294967295, 0⟩
  | .SCRUB_NVM_POS => ⟨0x2900, 0, 0, 1, 0x04, 1, .U32, .RO, false, 0, 2097151, 0⟩
  | .TLM_LAST => ⟨0x2900, 0, 0, 1, 0x05, 1, .BLOB, .RO, false, 64, 64, 0⟩
  | .TLM_NEWEST => ⟨0x2900, 0, 0, 1, 0x06, 1, .U16, .RO, false, 0, 3599, 0⟩
  | .DRN_LATE_SRAM => ⟨0x2900, 0, 0, 1, 0x07, 1, .U32, .RO, false, 0, 4294967295, 0⟩
  | .DRN_LATE_NVM => ⟨0x2900, 0, 0, 1, 0x08, 1, .U32, .RO, false, 0, 4294967295, 0⟩
  | .DRN_LATE_LEDGER => ⟨0x2900, 0, 0, 1, 0x09, 1, .U32, .RO, false, 0, 4294967295, 0⟩
  | .DRN_LATE_LOG => ⟨0x2900, 0, 0, 1, 0x0A, 1, .U32, .RO, false, 0, 4294967295, 0⟩
  | .DRN_LATE_TLM => ⟨0x2900, 0, 0, 1, 0x0B, 1, .U32, .RO, false, 0, 4294967295, 0⟩
  | .LINE_TEST_PERIOD => ⟨0x2900, 0, 0, 1, 0x0C, 1, .U16, .RW, false, 1, 3600, 10⟩
  | .LINE_TESTS => ⟨0x2900, 0, 0, 1, 0x0D, 1, .U32, .RO, false, 0, 4294967295, 0⟩
  | .RTC_NOW => ⟨0x2901, 0, 0, 1, 0x01, 1, .TIME80, .RO, false, 0, 1208925819614629174706175, 0⟩
  | .RTC_SET => ⟨0x2901, 0, 0, 1, 0x02, 1, .TIME80, .WO, true, 0, 1208925819614629174706175, 0⟩
  | .RTC_VALID => ⟨0x2901, 0, 0, 1, 0x03, 1, .BOOL, .RO, false, 0, 1, 0⟩
  | .RTC_TRIM => ⟨0x2901, 0, 0, 1, 0x04, 1, .I32, .RO, false, (-500000), 500000, 0⟩
  | .RTC_LAST_SYNC => ⟨0x2901, 0, 0, 1, 0x05, 1, .TIME80, .RO, false, 0, 1208925819614629174706175, 0⟩
  | .NVM_ENDURANCE => ⟨0x2902, 0, 0, 1, 0x01, 1, .U64, .CONST, false, 0, 18446744073709551615, 1000000000000⟩
  | .NVM_RESERVE_USE => ⟨0x2902, 0, 0, 1, 0x02, 1, .U8, .RO, false, 0, 255, 255⟩
  | .NVM_RELOCATED => ⟨0x2902, 0, 0, 1, 0x03, 1, .U32, .RO, false, 0, 256, 0⟩
  | .NVM_DROPPED => ⟨0x2902, 0, 0, 1, 0x04, 1, .U32, .RO, false, 0, 4294967295, 0⟩
  | .NVM_AREA => ⟨0x2910, 1, 0, 16, 0x01, 1, .U8, .CONST, false, 0, 5, 0⟩
  | .NVM_WEAR => ⟨0x2910, 1, 0, 16, 0x02, 1, .U64, .RO, false, 0, 18446744073709551615, 0⟩
  | .NVM_BANK_STATE => ⟨0x2910, 1, 0, 16, 0x03, 1, .U8, .RO, false, 0, 255, 0⟩
  | .NVM_CE_COUNT => ⟨0x2910, 1, 0, 16, 0x04, 1, .U32, .RO, false, 0, 4294967295, 0⟩
  | .NVM_UE_COUNT => ⟨0x2910, 1, 0, 16, 0x05, 1, .U32, .RO, false, 0, 4294967295, 0⟩
  | .RESET_CAUSE => ⟨0x2000, 0, 0, 1, 0x01, 1, .U8, .RO, false, 0, 3, 0⟩
  | .BOOT_PINS => ⟨0x2000, 0, 0, 1, 0x02, 1, .U8, .RO, false, 0, 3, 0⟩
  | .BOOT_TIME => ⟨0x2000, 0, 0, 1, 0x03, 1, .U32, .RO, false, 0, 4294967295, 0⟩
  | .BOOT_COUNT => ⟨0x2000, 0, 0, 1, 0x04, 1, .U32, .RO, false, 0, 4294967295, 0⟩
  | .SYS_RESET => ⟨0x2000, 0, 0, 1, 0x05, 1, .U8, .WO, true, 1, 1, 0⟩
  | .PWR_STATE => ⟨0x2010, 0, 0, 1, 0x01, 1, .U8, .RO, false, 0, 5, 1⟩
  | .PWR_CMD => ⟨0x2010, 0, 0, 1, 0x02, 1, .U8, .WO, false, 2, 2, 0⟩
  | .SLEEP_UNTIL => ⟨0x2010, 0, 0, 1, 0x03, 1, .TIME80, .RW, false, 0, 1208925819614629174706175, 0⟩
  | .WAKE_CAUSE => ⟨0x2010, 0, 0, 1, 0x04, 1, .U8, .RO, false, 0, 3, 0⟩
  | .WAKE_EV => ⟨0x2010, 0, 0, 1, 0x05, 1, .U8, .RO, false, 0, 255, 0⟩
  | .SLEEP_COUNT => ⟨0x2010, 0, 0, 1, 0x06, 1, .U32, .RO, false, 0, 4294967295, 0⟩
  | .VDDC_MODE => ⟨0x2010, 0, 0, 1, 0x07, 1, .U8, .RW, false, 0, 1, 0⟩
  | .VDDC_TARGET => ⟨0x2010, 0, 0, 1, 0x08, 1, .U16, .RO, false, 650, 900, 800⟩
  | .VDDC_MEAS => ⟨0x2010, 0, 0, 1, 0x09, 1, .U16, .RO, false, 0, 65535, 0⟩
  | .PWR_TOTAL => ⟨0x2010, 0, 0, 1, 0x0A, 1, .U32, .RO, false, 0, 4294967295, 0⟩
  | .PWR_OUT => ⟨0x2010, 0, 0, 1, 0x0B, 1, .U32, .RO, false, 0, 4294967295, 0⟩
  | .BUDGET_HOT => ⟨0x2010, 0, 0, 1, 0x0C, 1, .BOOL, .RO, false, 0, 1, 0⟩
  | .SUP_V => ⟨0x2020, 1, 0, 8, 0x01, 1, .I32, .RO, false, (-2147483648), 2147483647, 0⟩
  | .SUP_I => ⟨0x2020, 1, 0, 8, 0x02, 1, .I32, .RO, false, (-2147483648), 2147483647, 0⟩
  | .SUP_STATE => ⟨0x2020, 1, 0, 8, 0x03, 1, .U8, .RO, false, 0, 2, 0⟩
  | .SLEEP_HOLD => ⟨0x8000, 1, 0, 512, 0x33, 1, .BOOL, .RW, false, 0, 1, 0⟩
  | .GROUP_PWR => ⟨0x4009, 16, 0, 16, 0x01, 1, .BOOL, .RW, false, 0, 1, 1⟩

/-- Part 0 of the list of all objects. -/
def objList0 : List Obj :=
  [.TB_STATUS, .PACE_MIN_FRAME, .PACE_MIN_RESET, .PACE_ALARM, .BUDGET_CAP, .BUDGET_USED,
   .BUDGET_REFUSALS, .TICK_RATE, .PACE_GROUP, .DEADLINE_STAGING, .DEADLINE_RECORD, .DECL_I,
   .VENDOR, .PART, .SILICON, .ORDER_CODE, .SERIAL, .OD_VERSION,
   .TYPE_LEN, .TYPE_NAME, .SESSIONS_OPEN, .SESSION_TIMEOUT, .SESSION_STATE, .SESSION_OUTSTANDING,
   .SESSION_REQUESTS, .SESSION_VIOLATIONS, .SESSION_PEER, .SESSION_KEY, .SESSION_SECURE_ONLY, .MODE,
   .MODE_PENDING, .MODE_SWITCHES]

/-- Part 1 of the list of all objects. -/
def objList1 : List Obj :=
  [.MODE_REJECTS, .IMAGE_ID, .IMAGE_HALF, .IMAGE_COMMIT, .IMAGE_COMMITS, .LOAD_BASE,
   .CONFIG_OWNER, .CONFIG_SECURE, .OVERLAY_TRIPLES, .OVERLAY_SECURE, .OVERLAY_GROUPS, .VIOL_TOTAL,
   .VIOL_NEWEST, .VIOL_CLEAR, .VIOL_ENTRY, .GROUP_OWNER, .GROUP_SECURE, .CH_OWNER,
   .CH_SECURE, .OUT_CMD, .OUT_STATE, .OUT_CAUSE, .SENSE_SEL, .SAFE_LEVEL,
   .OFF_SLEW, .BOOST_DECL, .BOOST_RANGE, .BOOST_GAIN, .SLICE_POS, .ISO_STATE,
   .DAC_CODE, .DRV_LIMIT_TICKS]

/-- Part 2 of the list of all objects. -/
def objList2 : List Obj :=
  [.STATE_CHANGES, .GUARD_SRC, .SPARE_STATE, .SLICE_FAILED, .CROOK_MOVES, .FORCE_MODE,
   .SETPOINT, .COMPL_LIM, .COMPL_ENTER, .COMPL_EXIT, .VKP, .VKI,
   .VKD, .VKB, .V_SHIFTS, .IKP, .IKI, .IKD,
   .IKB, .I_SHIFTS, .NOTCH_EN, .NB0, .NB1, .NB2,
   .NA1, .NA2, .NOTCH_SHIFTS, .VKFF, .IKFF, .FF_SHIFTS,
   .LAW_HOLD, .LOOP_STATUS]

/-- Part 3 of the list of all objects. -/
def objList3 : List Obj :=
  [.COMPL_TICKS, .LOOP_SAT_TICKS, .LOOP_HELD_TICKS, .INTEG_P, .INTEG_LH, .INTEG_LL,
   .CTL_RUN, .V_RANGE, .I_RANGE, .RANGE_SET, .SLIDE_STATUS, .SLIDE_COUNT,
   .SLIDE_REFUSED, .AR_CTRL, .AR_I_BOUNDS, .AR_V_BOUNDS, .AR_I_UP, .AR_I_DOWN,
   .AR_V_UP, .AR_V_DOWN, .AR_UP_TICKS, .AR_DOWN_TICKS, .SLIDE_BLANK, .APERTURE_N,
   .APERTURE_REBASE, .LAST_RECORD, .REC_NEXT, .REC_RESERVED, .REC_LOST, .REC_STALE,
   .OVR_SAMPLES, .TEV_V_CTRL]

/-- Part 4 of the list of all objects. -/
def objList4 : List Obj :=
  [.TEV_V_LEVEL, .TEV_V_HYST, .TEV_V_STATE, .TEV_I_CTRL, .TEV_I_LEVEL, .TEV_I_HYST,
   .TEV_I_STATE, .TEV_V_COUNT, .TEV_I_COUNT, .REC_RSV_WAIT, .AGG_LAST, .FILT_RUN,
   .FILT_STATE, .REC_FIR_LEN, .AGG_PERIOD, .LOOP_FIR_DELAY, .REC_FIR_DELAY, .OVERLOADS,
   .AGG_LAST_START, .LOOP_FIR, .REC_FIR, .REC_BUF_BLOCKS, .REC_BUF_FREE, .REC_BUF_CAP,
   .REC_FLUSH, .REC_LOST_TOTAL, .BLOCK_DISCARDS, .CHT_CMD, .CHT_STATE, .CHT_START,
   .CHT_POS, .CHT_UNIT]

/-- Part 5 of the list of all objects. -/
def objList5 : List Obj :=
  [.CHT_POINT, .CHT_HALT, .SW_BASE, .SW_LEN, .CHT_UNITS, .CHT_CONFLICTS,
   .CHT_SKIPS, .CHT_REPEATS, .WAVE_CLIPS, .WAVE_PAGES_TOTAL, .WAVE_PAGES_FREE, .WAVE_LEN,
   .WAVE_CRC, .WAVE_PLAYERS, .MAP_EXC_CAP, .MAP_EXC_USED, .MAP_DIRTY, .SAFE_MATRIX,
   .MTX_BUSY_MAX, .LEDGER_COMMIT, .LEDGER_LAST, .LEDGER_CMD, .EP_WARNED, .EP_RETIRED,
   .SP0_WAIT_MAX, .RATED_CYCLES, .MTX_SETTLE, .MTX_BREAK, .MTX_STATE, .MTX_RESTART,
   .MTX_WORDS, .MTX_RESENDS]

/-- Part 6 of the list of all objects. -/
def objList6 : List Obj :=
  [.MTX_BUSY, .EP_CONNECT, .EP_HELD, .EP_PRIO, .EP_CLAIMS, .BIAS_ACC,
   .MON_RUN, .MON_TRIG, .SEQ_LEN, .PAIR_TOL, .MON_URGENT, .MON_STATE,
   .MON_SLICES, .MON_DROPS, .TRIG_MISSED, .TRIG_LATE, .SEQ_COUNT, .PAIR_FAILS,
   .PAIR_SKIPPED, .MON_RESTART, .MON_ENTRY, .MON_ACC_A, .MON_ACC_B, .MON_SNAP,
   .MTRGO_MODE, .MTRGO_PERIOD, .MTRGO_PHASE, .MTRGO_PULSE, .MTRGO_COUNT, .MON_CLEAR_SESSION,
   .REED_V_CTRL, .REED_V_HI]

/-- Part 7 of the list of all objects. -/
def objList7 : List Obj :=
  [.REED_V_LO, .REED_I_CTRL, .REED_I_HI, .REED_I_LO, .REED_STATUS, .REED_CLEAR,
   .REED_V_TRIPS, .REED_I_TRIPS, .REED_NOOPS, .REED_TEST, .REED_FAILED, .REED_PASSES,
   .REED_INCONCLUSIVE, .REED_TEST_PERIOD, .REED_SLEEP_DIV, .EV_CTRL, .EV_SEL, .EV_ACT,
   .EV_FIRE, .EV_OWNER, .EV_SECURE, .EV_ASSERTS, .EV_MERGED, .EV_IGNORED,
   .EV_DENIED, .EV_NOOPS, .EV_LAST, .EG_EN, .EVI_STATE, .EVO_STATE,
   .EV_SLEEP_DROPS, .EV_LOG_NEWEST]

/-- Part 8 of the list of all objects. -/
def objList8 : List Obj :=
  [.EV_LOG_TOTAL, .EV_LOG_DROPS, .EV_LOG_CLEAR, .EVO_PULSE_W, .CAL_CHANNELS, .CAL_SPARE,
   .CAL_RANGES, .CAL_KIND, .CAL_STD, .CAL_CMD, .CAL_STATE, .CAL_RESULT,
   .CAL_COMMIT_TIME, .CAL_STATUS, .SLICE_TEMP, .CAL_DT_V, .CAL_DT_I, .CAL_LOAD_P,
   .CAL_AVG, .CAL_SETTLE, .CAL_DIST_T, .CAL_COMMITS, .CAL_HALF, .FLT_REPORTS,
   .FLT_NOTES, .FLT_TRANSIENTS, .FLT_SEVERES, .FLT_COALESCED, .FLT_QUEUE_MAX, .FLT_LOG_NEWEST,
   .FLT_LOG_TOTAL, .FLT_LOG_CLEAR]

/-- Part 9 of the list of all objects. -/
def objList9 : List Obj :=
  [.FLT_UNFENCE, .FLT_SAFE, .FLT_SAFE_STATE, .FLT_SAFE_CAUSE, .FLT_FENCED, .FLT_N,
   .FLT_W, .FLT_SEVERE_ACT, .SRC_LEVEL, .SRC_FENCED, .SRC_REPORTS, .SRC_LAST,
   .NET_MODE, .NET_AN, .NET_JUMBO, .NET_VLAN, .NET_PCP, .NET_MAC,
   .NET_ADDR_MODE, .NET_IP_STATIC, .NET_MASK, .NET_GW, .NET_IP, .NET_LEASE,
   .NET_STATE, .NET_CAPACITY, .NET_LOAD, .NET_RX_FRAMES, .NET_RX_ERRORS, .NET_DROPS,
   .NET_TX_FRAMES, .STREAM_EN]

/-- Part 10 of the list of all objects. -/
def objList10 : List Obj :=
  [.STREAM_PORTS, .STREAM_DEST_IP, .STREAM_DEST_PORT, .STREAM_CHANNELS, .STREAM_AGG_GROUPS, .STREAM_FAILOVER,
   .STREAM_PKT_MAX, .STREAM_STATE, .STREAM_PACKETS, .STREAM_RECORDS, .TIME_SRC, .PTP_PORT,
   .PTP_DELAY, .PTP_TRANSPORT, .PTP_DOMAIN, .PTP_TIMEOUT, .PTP_ASYM, .PTP_STATE,
   .PTP_OFFSET, .PTP_MEAN_DELAY, .PTP_SOURCE_ID, .PTP_UTC_OFFSET, .PTP_STEPS, .TIME_NOW,
   .PPS_SECONDS, .PPSIN_LAST, .PPSOUT_EN, .PPSOUT_OFFSET, .PPSOUT_WIDTH, .KOP_DROPS,
   .KOP_PEER_REJECTS, .KOP_MAC_FAILS]

/-- Part 11 of the list of all objects. -/
def objList11 : List Obj :=
  [.KOP_OPENS, .SP_ROLE, .SP_IDLE, .SP_STATUS, .SP_CLEAR, .SP_WORDS,
   .SP_COLLISIONS, .SP_STROBE_ERRS, .SP_PARTIAL, .SP_BUSY_RX, .SP_RESTART, .SP1_OWNER,
   .SP1_SECURE, .SEL_CFG, .SEL_LEAD, .SEL_LAG, .SEL_GAP, .SEL_WORDS,
   .SP1_TX, .SP1_GO, .SP1_RX, .SP1_RESULT, .SP1_RX_TIME, .SP1_POLL,
   .SP1_POLL_SEL, .SP1_POLL_SKIPS, .SP1_SLAVE_SEL, .SP1_MB_TX, .SP1_MB_RX, .SP1_MB_LEVEL,
   .SP1_MB_OVF, .PAIR_EN]

/-- Part 12 of the list of all objects. -/
def objList12 : List Obj :=
  [.PAIR_ID, .PAIR_HB_TIMEOUT, .PAIR_WIT_EVO, .PAIR_WIT_EVI, .PAIR_STATE, .PAIR_LANES,
   .PAIR_SKEW, .PAIR_CELL_ERRS, .PAIR_FAILOVERS, .PAIR_HANDOVERS, .PAIR_PARTNER, .PAIR_HOME,
   .PAIR_ROLE, .PAIR_HANDOVER, .PAIR_LAST_CHANGE, .SCRUB_SRAM_PASSES, .SCRUB_SRAM_LAST, .SCRUB_NVM_PASSES,
   .SCRUB_NVM_POS, .TLM_LAST, .TLM_NEWEST, .DRN_LATE_SRAM, .DRN_LATE_NVM, .DRN_LATE_LEDGER,
   .DRN_LATE_LOG, .DRN_LATE_TLM, .LINE_TEST_PERIOD, .LINE_TESTS, .RTC_NOW, .RTC_SET,
   .RTC_VALID, .RTC_TRIM]

/-- Part 13 of the list of all objects. -/
def objList13 : List Obj :=
  [.RTC_LAST_SYNC, .NVM_ENDURANCE, .NVM_RESERVE_USE, .NVM_RELOCATED, .NVM_DROPPED, .NVM_AREA,
   .NVM_WEAR, .NVM_BANK_STATE, .NVM_CE_COUNT, .NVM_UE_COUNT, .RESET_CAUSE, .BOOT_PINS,
   .BOOT_TIME, .BOOT_COUNT, .SYS_RESET, .PWR_STATE, .PWR_CMD, .SLEEP_UNTIL,
   .WAKE_CAUSE, .WAKE_EV, .SLEEP_COUNT, .VDDC_MODE, .VDDC_TARGET, .VDDC_MEAS,
   .PWR_TOTAL, .PWR_OUT, .BUDGET_HOT, .SUP_V, .SUP_I, .SUP_STATE,
   .SLEEP_HOLD, .GROUP_PWR]

/-- All objects, in the order of the chapters. -/
def Obj.all : List Obj :=
  objList0 ++ objList1 ++ objList2 ++ objList3 ++ objList4 ++ objList5 ++ objList6 ++ objList7 ++ objList8 ++ objList9 ++ objList10 ++ objList11 ++ objList12 ++ objList13

end Sys2Proof
end

