-- ==== Sys2Proof/Machine/State.lean ====
section
/-! DEFINITION. The state of the SZ5128 as plain data: the object registers, the engines behind them, the tables,
the NVM, the pins, and the queue of waiting commands; and the state right after a power-on reset. -/
namespace Sys2Proof.Machine

/-- No command stops this block: the spec reports every fault to the collector (R330) and goes on. -/
inductive Fault where
  deriving DecidableEq, Repr

/-- Raised only by an arm of `exec` whose command has no meaning yet; safe (it stops where the hardware goes on). -/
inductive Refusal where
  | notModelled (mnemonic : String)
  deriving DecidableEq, Repr

/-- The value of an object: a number (TIME80 as seconds × 2^32 + nanoseconds), or the bytes of a STR or BLOB. -/
inductive Val where
  | num (n : Int)
  | bytes (b : List Byte)
  deriving DecidableEq, Repr

/-- Status codes (Table "Status codes", R60). -/
inductive Status where
  | OK | NO_OBJECT | NO_SUBINDEX | READ_ONLY | WRITE_ONLY | SECURE_ONLY | NOT_OWNER | RWS_RUNNING | BLOCK_ONLY
  | TYPE_MISMATCH | OUT_OF_RANGE | BAD_VALUE | RESERVED_NONZERO | BUSY | SEQ_OLD | AUTH_FAIL | SESSION_FULL
  | BLOCK_BUSY | BLOCK_OFFSET | BLOCK_SEGMENT | BLOCK_CHECK | BLOCK_ABORTED | IMAGE_INVALID | IMAGE_VERSION
  | NVM_FAULT | OVERLAY_EMPTY | SAFE_STATE | OUTPUT_BUDGET | STATE_CONFLICT | DEADLINE | FENCED | PAIR_STANDBY
  | ENDPOINT_CONFLICT | ENDPOINT_RETIRED | RANGE_REFUSED | BOOSTER_UNDECLARED | CAL_EXT_ACTIVE | CAL_STD_RANGE
  | CAL_BUSY | MONITOR_DROPPED
  deriving DecidableEq, Repr

/-- The request that a later event answers: session number + 16 × opening of that number, and REQ_SEQ; none for an
action that no session waits for. -/
abbrev Ans := Option (Nat × Nat)

/-- One triple of a base section or overlay (R66, R73). -/
structure Triple where
  o : Obj
  i : Nat
  e : Nat
  v : Val
  deriving DecidableEq, Repr

/-- Output states (Table "Output states", R94). -/
inductive OutState where
  | off | armed | force | compl | mute | safe | retired
  deriving DecidableEq, Repr

/-- BG modes (R84). -/
inductive BgMode where
  | off | track | drive
  deriving DecidableEq, Repr

/-- Who asked for an effect (R95, R137): a host request, a slot of an assertion of an event channel (`id` names the
assertion), a Reed, auto-range, a sweep entry, or a mode switch. -/
inductive Origin where
  | host (a : Ans)
  | event (n slot id : Nat)
  | reed
  | auto
  | sweep
  | mode
  deriving DecidableEq, Repr

/-- A range request with the values it brings (R137, R140). -/
structure RangeReq where
  vr : Option Nat
  ir : Option Nat
  src : Origin
  sp : Option Int := none
  lim : Option Int := none
  fm : Option Int := none
  /-- who asked for the requests that this one has overtaken before the same clock 48 (Table "Slide collisions") -/
  also : List Origin := []
  deriving DecidableEq, Repr

/-- The phases of a Slide (R143, R149, R150, R159): none; its make step moved to the next evaluated strobe; preparing (strobes
left); made, the break due at the next strobe; broken, waiting for completion (strobes left). -/
inductive SlidePhase where
  | idle
  | due
  | prep (left : Nat)
  | made
  | broken (left : Nat)
  deriving DecidableEq, Repr

/-- What reaches a group's engines and waits for a load strobe (R27). -/
inductive What where
  | set (o : Obj) (i e : Nat) (v : Int)
  | out (c code : Nat) (o : Origin)
  | mute (c cause : Nat)
  | reed (c act : Nat)
  | range (c : Nat) (r : RangeReq)
  | hold (c : Nat)
  | commitHold (c : Nat)
  | rebase (c : Nat)
  | cht (c code : Nat) (o : Origin)
  | endpoint (c : Nat) (l : Option Nat)
  | unit (c : Nat) (ue : Option Nat)
  | unitEnd (c : Nat)
  | wave (c : Nat) (ue : Option Nat)
  | ctlStop
  | filtRun
  | filtStop
  | modeApply (m : Nat) (ts : List Triple)
  /-- the fence of a slice position, with the µs at which its report was classified (R342) -/
  | sliceFence (p us : Nat)
  | engineFence
  | slideFence
  | calCommit
  | calBegin
  | calReturn
  | pairTake
  | isolate
  deriving DecidableEq, Repr

/-- A change with the request that it answers at its strobe (R46), and the governor's decision where the request reached it on
arrival (R37). -/
structure Change where
  ans : Ans
  what : What
  adm : Option Bool := none
  /-- it has arrived at clock 44 or later of the tick, behind what the Chanters deliver (R207, R230) -/
  late : Bool := false
  deriving DecidableEq, Repr

/-- The law state of a channel (R113, R116, R126). Integrators and `t` in units of 2^-40, data in FRAC24 codes,
`kpP` and `kpL` in units of 2^-17. -/
structure Law where
  /-- P integrator (R113; reset 0, R126) -/
  ip : Int := 0
  /-- LH integrator (R113; reset 0) -/
  ih : Int := 0
  /-- LL integrator (R113; reset 0) -/
  il : Int := 0
  /-- notch input one tick back (R116; reset 0) -/
  x1 : Int := 0
  /-- notch input two ticks back (R116; reset 0) -/
  x2 : Int := 0
  /-- notch output one tick back (R116; reset 0) -/
  y1 : Int := 0
  /-- notch output two ticks back (R116; reset 0) -/
  y2 : Int := 0
  /-- previous regulated sample (R113; reset 0, DESIGN CHOICE, log 2) -/
  ypPrev : Int := 0
  /-- previous limited sample (R113; reset 0, DESIGN CHOICE, log 2) -/
  ylPrev : Int := 0
  /-- last selected output x (R126; reset 0, DESIGN CHOICE, log 2) -/
  lastX : Int := 0
  /-- output t of the last evaluated law, ahead of round20 (R144; reset 0, DESIGN CHOICE, log 2) -/
  t : Int := 0
  /-- primary error of the last evaluated tick (R126; reset 0, DESIGN CHOICE, log 2) -/
  ep : Int := 0
  /-- high-limit error of the last evaluated tick (R126; reset 0, DESIGN CHOICE, log 2) -/
  eh : Int := 0
  /-- low-limit error of the last evaluated tick (R126; reset 0, DESIGN CHOICE, log 2) -/
  el : Int := 0
  /-- primary proportional value at the last evaluated tick (R126; reset 0, the defaults of VKP and IKP) -/
  kpP : Int := 0
  /-- limit proportional value at the last evaluated tick (R126; reset 0, the defaults of VKP and IKP) -/
  kpL : Int := 0
  /-- the last evaluated law or load forced the current (R108, R126; reset false, the default of FORCE_MODE) -/
  fi : Bool := false
  deriving DecidableEq, Repr

/-- What one evaluation of the law leaves; a held tick takes the one before (R29, R129). -/
structure LawRun where
  /-- law state (R113) -/
  law : Law := {}
  /-- OFF ramp reference in FRAC24 codes × 25·10^6, none while no closed-loop ramp runs (R128; reset none) -/
  ramp : Option Int := none
  /-- a law has run on the ramp reference, which each later law moves (R128; reset false) -/
  rampOn : Bool := false
  /-- a bumpless load waits for the next evaluated tick, with the accumulator value it continues from, in 2^-40 (R129; reset
  none) -/
  load : Option Int := none
  /-- round20 saturated; decl took part; selection coded 0 P, 1 LH, 2 LL, 3 none (R135; reset 0, 0, 3) -/
  sat : Bool := false
  declHit : Bool := false
  sel : Nat := 3
  /-- the tick is a limit tick (R122; reset false) -/
  limit : Bool := false
  /-- the law ran in this tick, and the code it staged (R29; reset false, none) -/
  ran : Bool := false
  staged : Option Int := none
  /-- consecutive excursion ticks in MUTE (R127; reset 0) -/
  excur : Nat := 0
  /-- loop samples of the last tick that was not held (R139; reset 0) -/
  v : Int := 0
  i : Int := 0
  deriving DecidableEq, Repr

/-- The Slide of a channel (R142 to R152). -/
structure Slide where
  /-- phase (R143; reset idle) -/
  phase : SlidePhase := .idle
  /-- the request that the Slide carries out (R142; reset none) -/
  req : Option RangeReq := none
  /-- ranges before the make strobe (R144; reset 0) -/
  oldVr : Nat := 0
  oldIr : Nat := 0
  /-- second leg of a Slide through I1M (R151; reset none) -/
  leg2 : Option Nat := none
  /-- the pending slot (R142; reset empty) -/
  pend : Option RangeReq := none
  /-- the last Slide came from auto-range (Table SLIDE_STATUS; reset 0) -/
  auto : Bool := false
  /-- reason code of the last refusal (Table SLIDE_STATUS; reset 0) -/
  refusal : Nat := 0
  deriving DecidableEq, Repr

/-- What a sample is judged by: the flags and ranges in force, the resistance that the shunt voltage is divided by over the nominal
shunt (R146), whether it enters the sum, and whether the filter engine runs (R154, R172, R178, R194). -/
structure SampCtx where
  flags : Nat
  vr : Nat
  ir : Nat
  num : Nat
  den : Nat
  keep : Bool
  run : Bool
  deriving DecidableEq, Repr

/-- A record-path sample kept in an aperture, on the ranges in force when it was taken (R172 to R174). -/
structure Samp where
  v : Int
  i : Int
  vr : Nat
  ir : Nat
  /-- taken from the overload substitute (R163) -/
  sub : Bool
  /-- enters the sum (R154, R174, R344) -/
  kept : Bool
  /-- record flags that held at the sample, and at strobes since the one before (R178) -/
  flags : Nat
  /-- frame-grid microsecond of the sample (R175) -/
  us : Nat
  /-- the first kept sample from the spare after a takeover, or the first sample of a RETIRED channel: its record carries GAP (R344,
  R346) -/
  gap : Bool := false
  deriving DecidableEq, Repr

/-- A record in the buffer (R177, R181, R182, R378): EPOCH × 2^48 + SEQ, its bits, its frame-grid microsecond and slot, its TIME80
instant in ns, its APERTURE_N, whether it is short, whether PTP was LOCKED, and when it was produced in ns; where it is the last of a
packet that one port of a mirrored stream has sent, the STEP flag of that packet (R379). -/
structure BRec where
  no : Nat
  word : Nat
  us : Nat
  pos : Nat
  time : Nat
  n : Nat
  short : Bool
  locked : Bool
  made : Nat
  cut : Option Bool := none
  deriving DecidableEq, Repr

/-- A block passed to the network engine (R191, R379): its stream, its records, oldest first, the ports that have yet to
send it (bit 0 NET0, bit 1 NET1), and the records that each has sent. -/
structure Blk where
  stream : Nat
  recs : List BRec
  ports : Nat
  sent0 : Nat := 0
  sent1 : Nat := 0
  deriving DecidableEq, Repr

/-- The aggregates of one group's window on their way through a stream (R189, R378): group, window number, TIME80 in ns and
period in µs, the aggregates, the ports that have yet to send them, LOCKED at the time, when the window closed, and the STEP flag of
the packet that a first port has sent (R379). -/
structure AggPkt where
  g : Nat
  window : Nat
  time : Nat
  period : Nat
  items : List Nat
  ports : Nat
  locked : Bool
  made : Nat
  step : Option Bool := none
  deriving DecidableEq, Repr

/-- What an aggregate window gathers beside its samples (R189): edges of TEV_V and TEV_I, and the flags of its records. -/
structure AggMarks where
  /-- TEV_V and TEV_I edges, saturating (reset 0) -/
  edgeV : Nat := 0
  edgeI : Nat := 0
  /-- flags of the records (reset 0) -/
  flags : Nat := 0
  deriving DecidableEq, Repr

/-- The aperture averager and record numbering of a channel (R172 to R184). -/
structure Aper where
  /-- what the samples of the next tick are judged by whose instants do not lie after the latest strobe (R147, R172; reset
  none) -/
  pre : Option SampCtx := none
  /-- the grid re-based at the latest strobe: APERTURE_N of the aperture that closes once that sample has come (R172; reset
  none) -/
  endN : Option Nat := none
  /-- frame-grid microsecond of the group at the latest re-base (R172, R411; reset 0) -/
  base : Nat := 0
  /-- record-path samples of the aperture in progress, newest first (R172; reset empty) -/
  samps : List Samp := []
  /-- record flags of strobes since the last sample (R178; reset 0) -/
  flags : Nat := 0
  /-- the next record carries GAP (R184; reset true: first after the start at boot) -/
  gap : Bool := true
  /-- the next sample that is kept marks its record with GAP: the first from the spare (R344; reset false) -/
  gapKept : Bool := false
  /-- the next sample with RETIRED marks its record with GAP (R346; reset false) -/
  gapRetired : Bool := false
  /-- V of the latest record without STALE, with its range (R179; reset 0) -/
  lastV : Int := 0
  lastVr : Nat := 0
  /-- I of the latest record without STALE, with its range (R179; reset 0) -/
  lastI : Int := 0
  lastIr : Nat := 0
  /-- samples still excluded after a break strobe (SLIDE_BLANK, R154; reset 0) -/
  blank : Nat := 0
  /-- samples still excluded after a takeover blank (R344; reset 0) -/
  hush : Nat := 0
  /-- the threshold events were on hold ahead of the latest strobe (R187; reset false) -/
  tevWas : Bool := false
  /-- reservation written and not yet confirmed (R183; reset none) -/
  rsvAsked : Option Nat := none
  /-- open pool block: its records, newest first (R191; reset empty) -/
  block : List BRec := []
  /-- blocks passed to the network engine, oldest first (R191, R379; reset empty) -/
  ready : List Blk := []
  /-- aggregate window: samples, newest first, and previous means (R189, R190; reset empty) -/
  agg : List Samp := []
  aggMeanV : Int := 0
  aggMeanI : Int := 0
  /-- edges and record flags of the window in progress, and of the one behind a boundary that has been reached (R189; reset none) -/
  marks : AggMarks := {}
  marksNext : AggMarks := {}
  /-- sums of V and I over the last 10 ms for the load power, and their number (R316; reset 0) -/
  pwrV : Int := 0
  pwrI : Int := 0
  pwrN : Nat := 0
  /-- the same over the calibration point in progress, and the samples of its settling still to come (R316, R323; reset 0) -/
  capV : Int := 0
  capI : Int := 0
  capN : Nat := 0
  capSkip : Nat := 0
  /-- TEV_V and TEV_I have evaluated a value since EN, a start or a hold (R185, R187; reset false) -/
  tevInitV : Bool := false
  tevInitI : Bool := false
  /-- auto-range counts, and what they were before the latest tick (R156; reset 0) -/
  arUp : Nat := 0
  arDn : Nat := 0
  arUpWas : Nat := 0
  arDnWas : Nat := 0
  /-- auto-range asks for a step up (true) or down (R157; reset none) -/
  arAsk : Option Bool := none
  deriving DecidableEq, Repr

/-- The answer to a unit's endpoint claim (R207, R213, R237). -/
inductive Claim where
  | none
  | asked
  | granted (alt : Bool) (ep : Nat)
  | conflict
  | skip
  deriving DecidableEq, Repr

/-- Chanter states (Table "Chanter states", R227). -/
inductive ChtSt where
  | idle | wait | settle | dwell
  deriving DecidableEq, Repr

/-- A unit of a sweep (R205, R206). -/
structure SUnit where
  /-- element address of its entry (R200; reset 0) -/
  addr : Nat := 0
  /-- its entry and parameter entry, as fetched (R200; reset 0) -/
  entry : BitVec 128 := 0
  param : BitVec 128 := 0
  /-- step, pulse or repetition index (R205; reset 0) -/
  k : Nat := 0
  /-- SETPOINT at the begin strobe of the entry's first unit (R205; reset 0) -/
  base : Int := 0
  /-- its claim, and the local endpoint it names (R207, R213; reset none, 0) -/
  claim : Claim := .none
  l : Nat := 0
  /-- trigger taken (R214; reset false) -/
  trig : Bool := false
  /-- re-execution (R229; reset false) -/
  rep : Bool := false
  deriving DecidableEq, Repr

/-- The Chanter of a channel (R206 to R229). -/
structure Chanter where
  /-- state (R227; reset IDLE) -/
  st : ChtSt := .idle
  /-- PAUSED bit (R225; reset 0) -/
  paused : Bool := false
  /-- an entry with the PAUSE flag has ended: the next begins at RESUME (R206, R225; reset false) -/
  held : Bool := false
  /-- the unit between its apply and its end strobe, and whether there is one (R212; reset none) -/
  cur : SUnit := {}
  live : Bool := false
  /-- the unit that has begun and waits for its apply strobe, and whether there is one (R206; reset none) -/
  nu : SUnit := {}
  begun : Bool := false
  /-- a unit begins at the present strobe: the address to fetch its entry from, none for the entry in progress (R206;
  reset none) -/
  due : Option (Option Nat) := none
  /-- a fetch failed: the halt takes effect at the end strobe of the unit before (R204; reset none) -/
  halt : Option Nat := none
  /-- ticks counted in the dwell since settle (R206; reset 0) -/
  count : Nat := 0
  /-- ticks since the waveform point in force (R222; reset 0) -/
  wtick : Nat := 0
  /-- the PULSE on level has given way to the base level (R205; reset false) -/
  fell : Bool := false
  /-- the unit in progress was interrupted: it begins again at the next strobe (R229; reset false) -/
  again : Bool := false
  /-- the trigger that ends an indefinite dwell has been taken (R210; reset false) -/
  stopTrig : Bool := false
  /-- the unit in progress connects an endpoint that the channel did not hold (R209; reset false) -/
  joins : Bool := false
  /-- the unit in progress has started a Slide (R209; reset false) -/
  slides : Bool := false
  deriving DecidableEq, Repr

/-- What a channel holds of endpoints (R237 to R251). -/
structure Hold where
  /-- endpoint held (R239; reset none) -/
  ep : Option Nat := none
  /-- granted on the alternate (R237; reset false) -/
  alt : Bool := false
  /-- a connection or break has not settled (Table EP_HELD; reset false) -/
  settling : Bool := false
  /-- endpoints being broken, still reserved, each with the instant in ns from which its break settles (R239, R246; reset
  none) -/
  old : List (Nat × Option Nat) := []
  /-- endpoint claimed and not yet made (R239; reset none) -/
  coming : Option Nat := none
  /-- instant from which connection settling counts, in ns (R246; reset none) -/
  makeFrom : Option Nat := none
  /-- the connects and releases by EP_CONNECT that wait until nothing settles any more (R240; reset none) -/
  ans : List Ans := []
  /-- EP_CONNECT names these local endpoints and their claims wait (R240; reset none) -/
  want : List (Nat × Ans) := []
  /-- bias accumulator in ns (R251; reset 0) -/
  bias : Nat := 0
  deriving DecidableEq, Repr

/-- A logical channel: its output state, law, Slide, records, Chanter and endpoint. -/
structure Chan where
  /-- output state (R94; reset OFF, R454) -/
  out : OutState := .off
  /-- TRANSIT (R94; reset 0) -/
  transit : Bool := false
  /-- STATE messages last sent of the channel (R411; reset none) -/
  told : List MirrorState := []
  /-- step of the partner's Slide, from its STATE messages (R411; reset 0) -/
  peerStep : Nat := 0
  /-- SLIDE_STATUS of the partner (R405; reset 0) -/
  peerSlide : Nat := 0
  /-- the state that RESUME returns to (R102; reset FORCE) -/
  before : OutState := .force
  /-- slice position that carries the channel, none when RETIRED (R91; reset home, R13) -/
  onSpare : Bool := false
  /-- isolation switches ISO_F, ISO_S, ISO_I (R90; reset 0, 1, 0) -/
  isoF : Bool := false
  isoS : Bool := true
  isoI : Bool := false
  /-- BG mode (R84; reset OFF) -/
  bg : BgMode := .off
  /-- driver powered (R90; reset 0) -/
  drv : Bool := false
  /-- a break-before-make handover keeps the switches open until the next strobe (R93; reset false) -/
  apart : Bool := false
  /-- DAC code at the last strobe (R79; reset 0) -/
  dac : Int := 0
  /-- the bumpless load that the present strobe asks for, as the accumulator value it continues from in 2^-40 (R125; reset
  none) -/
  due : Option Int := none
  /-- charge in nW that an admitted request on its way to a strobe will raise the channel's to (R35, R37; reset 0) -/
  pledge : Nat := 0
  /-- instant in ns of the strobe of an ARM, until a strobe at least 20 µs later has come (R99; reset none) -/
  armFrom : Option Nat := none
  /-- request that the ARM answers (R99; reset none) -/
  armAns : List Ans := []
  /-- who asked for the OFF ramp and is answered at its end, and its cause code (R103; reset none) -/
  offAns : List Origin := []
  offCause : Nat := 0
  /-- an OFF waits for the strobe after a break (Table "Slide collisions"; reset false) -/
  offWait : Bool := false
  /-- objects written at the present strobe, which a range change there does not convert (R140; reset none) -/
  written : List Obj := []
  /-- end of a ramp of the safe ramp generator in ns: the SAFE ramp, or an open-loop OFF ramp (R103, R104; reset none) -/
  rampEnd : Option Nat := none
  /-- what the last evaluation left, and what the one before it left (R113, R129) -/
  run : LawRun := {}
  old : LawRun := {}
  /-- COMPL_ENTER and COMPL_EXIT counts (R122; reset 0) -/
  limTicks : Nat := 0
  freeTicks : Nat := 0
  /-- loop samples of the last tick (R168; reset 0) -/
  v : Int := 0
  i : Int := 0
  /-- clamp or limiter action in the tick period that ended at the last tick (R80, R113; reset false) -/
  act : Bool := false
  /-- the tick is held: by a missed staging or a takeover blank (R29, R343; reset false) -/
  held : Bool := false
  /-- ticks left of the takeover blank (R343; reset 0) -/
  blank : Nat := 0
  /-- the spare drives from the next strobe (R342; reset false) -/
  taking : Bool := false
  /-- the law omits the integral increment in the next tick (R147; reset false) -/
  noInc : Bool := false
  /-- HELD of LOOP_STATUS (R129; reset 0) -/
  heldBit : Bool := false
  /-- staging bank, open while LAW_HOLD (R131; reset closed) -/
  bank : Option (List (Obj × Int)) := none
  /-- HOLD of LOOP_STATUS (R131; reset 0) -/
  holdBit : Bool := false
  /-- programmed limit with the range it was set on: code, range, and whether it is a current (R141; reset the
  default of COMPL_LIM on I1M) -/
  lim : Int := 0x1999
  limRange : Nat := 5
  /-- programmed TEV levels and hystereses, each with its range (R188; reset the defaults on V12 and I1M) -/
  tevV : Int := 0x400000
  tevVr : Nat := 2
  tevVh : Int := 0
  tevVhr : Nat := 2
  tevI : Int := 0x400000
  tevIr : Nat := 5
  tevIh : Int := 0
  tevIhr : Nat := 5
  /-- Slide (R142) -/
  slide : Slide := {}
  /-- apertures and records (R172) -/
  aper : Aper := {}
  /-- Reed zones, 0 INSIDE, 1 ABOVE, 2 BELOW, 3 none yet (Table REED_STATUS; reset 3) -/
  zoneV : Nat := 3
  zoneI : Nat := 3
  /-- the next sample of a Reed follows an INSIDE one (R282; reset true) -/
  freshV : Bool := true
  freshI : Bool := true
  /-- sticky trip bits V_HI, V_LO, I_HI, I_LO (Table REED_STATUS; reset 0) -/
  seen : Nat := 0
  /-- Chanter (R225) -/
  cht : Chanter := {}
  /-- endpoint (R239) -/
  hold : Hold := {}
  /-- calibration runs on the channel, measures its slice, holds it in MUTE (Table CAL_STATUS; reset 0) -/
  calBusy : Bool := false
  calMeas : Bool := false
  calHold : Bool := false
  /-- records carry STALE: a span of R321, or the overlap of a handover (R92; reset false) -/
  calSpan : Bool := false
  /-- ENVELOPE (Table CAL_STATUS; reset 0) -/
  envelope : Bool := false
  deriving DecidableEq, Repr

/-- The filter stages of one modulator of a slot (R163 to R168). -/
structure Filt where
  /-- quantiser codes, newest first (R162, R165; reset empty) -/
  cic : List Int := []
  /-- half-band inputs, newest first (R165; reset empty) -/
  hb : List Int := []
  /-- calibrated samples, newest first (R171; reset empty) -/
  cal : List Int := []
  /-- pre-averaged samples, newest first (R168; reset empty) -/
  pre : List Int := []
  /-- pre-averager sum and number (R168; reset 0) -/
  acc : Int := 0
  accN : Nat := 0
  /-- overloads detected (with the substitute) and inputs returned (none), newest first, each with its place on the frame grid in
  quarters of a ns (R163; reset empty) -/
  ovl : List (Nat × Option Int) := []
  deriving DecidableEq, Repr

/-- A slice with its calibration in force (R78, R167, R314). Key g × 33 + p. -/
structure SliceSt where
  /-- voltage and current filter stages (R165) -/
  fv : Filt := {}
  fi : Filt := {}
  /-- temperature of the slice, and its sum and number over the 10 ms (R314; reset 0) -/
  temp : Int := 0
  tempSum : Int := 0
  tempN : Nat := 0
  /-- sum and number of the temperature readings of the capture in progress (R311; reset 0) -/
  capSum : Int := 0
  capN : Nat := 0
  /-- sum and number of temperature readings, in 1/128 °C, and load power as a fraction of µW, at the last thermal
  computation (R314; reset none) -/
  therm : Option (Int × Nat × Int × Nat) := none
  /-- the same from a computation that is in force from the next strobe (R314; reset none) -/
  thermNext : Option (Int × Nat × Int × Nat) := none
  deriving DecidableEq, Repr

/-- States of the filter engine (R194). -/
inductive FiltSt where
  | stopped | filling | running
  deriving DecidableEq, Repr

/-- A calibration element (Table "Calibration element", R311). -/
structure CalElem where
  offset : Int
  gain : Int
  aux : Nat
  tcOff : Int
  tcGain : Int
  theta : Nat
  tCap : Int
  pCap : Nat
  capTime : Nat
  source : Nat
  commit : Nat
  valid : Bool
  deriving DecidableEq, Repr

/-- The calibration command of a group (R317 to R328). -/
structure CalCmd where
  /-- phase: 0 idle, 1 measuring, 2 writing NVM, 3 awaiting the commit strobe (Table CAL_STATE; reset 0) -/
  phase : Nat := 0
  /-- slice positions still to measure, the present one first (R320; reset empty) -/
  todo : List Nat := []
  /-- element ranges of the slice still to measure, the present one first (R323; reset empty) -/
  ranges : List Nat := []
  /-- point means of the present element so far, newest first (R323; reset empty) -/
  points : List Int := []
  /-- the repeated external check of the present slice has passed (R319; reset false) -/
  checked : Bool := false
  /-- the start check is still running, and what the write answers (R319; reset none) -/
  starting : Option (Nat × Nat) := none
  /-- the spare carries the channel of the present slice (R320; reset false) -/
  carried : Bool := false
  /-- an element was measured in hold (R322; reset false) -/
  heldAny : Bool := false
  /-- new elements, by element number (R323; reset empty) -/
  fresh : List (Nat × CalElem) := []
  deriving DecidableEq, Repr

/-- A monitor accumulator (Table "Monitor accumulator", R269). -/
structure Acc where
  sum : Int := 0
  count : Nat := 0
  mn : Int := 32767
  mx : Int := -32768
  full : Bool := false
  pairFail : Bool := false
  aged : Bool := false
  newcfg : Bool := false
  clips : Nat := 0
  deriving DecidableEq, Repr

/-- An entry whose conversions are deciding: its number and value, and the converter slices that decide (R257, R265). -/
structure Deciding where
  e : Nat
  v : Nat
  slA : Nat
  slB : Nat
  deriving DecidableEq, Repr

/-- A 1 µA test current of a slot: the ball it acts on, a channel's SH 0 to 31 or Gg_SL 32, and whether it pulls up (R273). -/
structure Pull where
  ball : Nat
  up : Bool
  deriving DecidableEq, Repr

/-- Phases of a monitor (R265). -/
inductive MonPhase where
  | down | startup | slot | deciding
  deriving DecidableEq, Repr

/-- The monitor of a group (R257 to R275). -/
structure Mon where
  /-- phase (R265; reset powered down) -/
  phase : MonPhase := .down
  /-- entries copied at the start, the present slot first: number and value (R263; reset empty) -/
  run : List (Nat × Nat) := []
  /-- entries whose conversions are deciding, the oldest first (R265; reset none) -/
  deciding : List Deciding := []
  /-- the slice of A and of B that has taken the latest conversion (R257; reset 4, 4) -/
  lastA : Nat := 4
  lastB : Nat := 4
  /-- test currents of the slot (R273; reset none) -/
  pulls : List Pull := []
  /-- the conversion is an urgent request, with what it answers (R268; reset none) -/
  urgent : Option Ans := none
  /-- a trigger waits behind an urgent request (R266; reset false) -/
  waits : Bool := false
  /-- entries in force for NEWCFG (R263; reset 0 each) -/
  inForce : SMap Nat := []
  /-- accumulators: entry e of A at e, of B at 16 + e (R269; reset empty) -/
  acc : SMap Acc := []
  /-- spare of A and B, 7 when rotation has stopped (Table MON_SLICES; reset 4, 4) -/
  spareA : Nat := 4
  spareB : Nat := 4
  /-- failed slices of A and B, one bit each (Table MON_SLICES; reset 0) -/
  failA : Nat := 0
  failB : Nat := 0
  /-- slices that have yet to be recalibrated after TBM loss (R275; reset 0) -/
  agedA : Nat := 0
  agedB : Nat := 0
  deriving DecidableEq, Repr

/-- A handover or takeover of a group in a pair (R414, R417). -/
structure PairGrp where
  /-- role of the partner for the group, from its heartbeats (R409; reset 0) -/
  partner : Nat := 0
  /-- handover: strobes until h, ACK received, when it began in ns, and the request it answers (R417; reset none) -/
  give : Option Nat := none
  acked : Bool := false
  asked : Nat := 0
  ans : Ans := none
  /-- this member receives a handover at the strobe counted down to 0, and drives with its partner at 0 (R417; reset none) -/
  take : Option Nat := none
  /-- the partner's mirror of the group is incomplete or lags (R404, R410; reset false) -/
  behind : Bool := false
  /-- STATE messages that have arrived, with the strobes left until they come into force, oldest first (R410; reset empty) -/
  due : List (Nat × MirrorState) := []
  deriving DecidableEq, Repr

/-- A group (R12). -/
structure Group where
  /-- tick rate code in force (R18, R39; reset 0) -/
  rate : Nat := 0
  /-- frame-grid microseconds whose samples have been delivered (R18; reset 0) -/
  ticks : Nat := 0
  /-- when the latest tick came, in ns (R163; reset 0) -/
  tickAt : Nat := 0
  /-- powered (R458; reset true) -/
  powered : Bool := true
  pwrAns : Ans := none
  /-- control engine runs (R134; reset stopped) -/
  ctl : Bool := false
  /-- a start of the control engine waits for its frame start (R134; reset none) -/
  ctlStart : Option (List Ans) := none
  /-- filter engine state (R194; reset STOPPED) -/
  filt : FiltSt := .stopped
  /-- frames of filling so far (R194; reset 0) -/
  fill : Nat := 0
  /-- a start of the filter engine waits for its frame start (R194; reset none) -/
  filtStart : Option (List Ans) := none
  /-- changes that arrived and those frozen at clock 48 (R27; reset empty) -/
  arrived : List Change := []
  frozen : List Change := []
  /-- changes that arrive in the next tick: auto-range steps (R157; reset empty) -/
  later : List Change := []
  /-- the latest tick is evaluated and its staging is still open (R27; reset false) -/
  opened : Bool := false
  /-- channels whose APERTURE_N a change of the latest strobe set behind what the Chanters delivered to it (R27, R230; reset none) -/
  lateAper : List Nat := []
  /-- Reed actions of the next tick, in order (R285; reset empty) -/
  trips : List Change := []
  /-- producer edges that reach the router in the next tick (R215; reset empty) -/
  edges : List Nat := []
  /-- holder of the spare: 0 free, 1 recovery, 2 calibration, and the position it carries (R14; reset 0) -/
  spare : Nat := 0
  spareFor : Nat := 0
  /-- make-before-break handover for calibration: strobes left, and whether it goes home (R92; reset 0, false) -/
  hand : Nat := 0
  back : Bool := false
  /-- calibration command (R317) -/
  cal : CalCmd := {}
  /-- monitor (R257) -/
  mon : Mon := {}
  /-- Reed self-test pass: slice and test in progress, and a pass waiting (R286; reset none) -/
  test : Option (Nat × Nat) := none
  testNext : Bool := false
  /-- slices that failed a test in the pass in progress, one bit each (R287; reset 0) -/
  testFail : Nat := 0
  /-- pair (R404) -/
  pair : PairGrp := {}
  /-- lowest pace margin of the frame, and PACE_LOW reported in it (R24; reset none) -/
  pace : Option Nat := none
  paceSaid : Bool := false
  /-- lowest pace margin of the last 1 ms and 100 ms (R456; reset none) -/
  pace1 : Option Nat := none
  pace100 : Option Nat := none
  /-- frame-grid microsecond at which the aggregate window in progress began, and the period in µs in force then (R189;
  reset 0, the default of AGG_PERIOD) -/
  windows : Nat := 0
  aggP : Nat := 1000000
  /-- frame-grid microseconds at the latest write of AGG_PERIOD (R189; reset 0) -/
  aggFrom : Nat := 0
  /-- TIME80 in ns of the start of the window in progress, and whether PTP was LOCKED then (R189, R377; reset 0, false) -/
  aggTime : Nat := 0
  aggLocked : Bool := false
  deriving DecidableEq, Repr

/-- What a request asks for, by address or by object (R373). -/
inductive Target where
  | raw (idx sub : Nat)
  | obj (o : Obj) (i e : Nat)
  deriving DecidableEq, Repr

/-- The operation of a KOP request (Table "KOP messages", R373). -/
inductive ReqOp where
  | read (t : Target)
  | write (t : Target) (v : WireVal)
  | nop
  | close
  | blockOpen (idx sub : Nat) (dirWrite : Bool) (offset count : Nat)
  | blockSeg (offset count : Nat) (data : List Byte)
  | blockClose (crc : Nat)
  | blockAbort
  /-- a write, or a message of a block transfer, that carries a non-zero reserved field (R7) -/
  | reserved (op : ReqOp)
  deriving DecidableEq, Repr

/-- A request in a session's order (R50). -/
structure Req where
  seq : Nat
  port : Nat
  op : ReqOp
  eth : Nat
  deriving DecidableEq, Repr

/-- A response (R60, R373): its request, its status, and the value or bytes that its body carries. -/
structure Resp where
  req : Req
  status : Status
  body : Val
  deriving DecidableEq, Repr

/-- A block transfer (R63, R64). `crc` is the CRC-32 register over the bytes moved. -/
structure Block where
  idx : Nat
  sub : Nat
  dirWrite : Bool
  next : Nat
  left : Nat
  crc : BitVec 32
  deriving DecidableEq, Repr

/-- A pending secure opening (R375). -/
structure Pend where
  ip : Nat
  udp : Nat
  cnonce : List Byte
  snonce : List Byte
  since : Nat
  deriving DecidableEq, Repr

/-- A session number 1..8 (R48 to R54). -/
structure Session where
  /-- 0 closed, 1 plain, 2 secure (R48; reset 0) -/
  kind : Nat := 0
  /-- peer address and UDP port (R371; reset 0) -/
  ip : Nat := 0
  udp : Nat := 0
  /-- the REQ_SEQ that executes next, none before the first request (R50; reset none) -/
  next : Option Nat := none
  /-- requests that wait for a missing predecessor (R50; reset empty) -/
  waiting : List Req := []
  /-- requests in issue order not yet answered, oldest first, with their response once known (R50; reset empty) -/
  outst : List (Req × Option (Status × Val)) := []
  /-- the last 256 responses, newest first (R53; reset empty) -/
  kept : List Resp := []
  /-- time of the last request received, in ns (R54; reset 0) -/
  lastRx : Nat := 0
  /-- open block transfer (R63; reset none) -/
  block : Option Block := none
  /-- session key KS of an open secure session (R375; reset empty) -/
  ks : List Byte := []
  /-- later requests wait behind an image commit (R74; reset false) -/
  gated : Bool := false
  /-- REQ_SEQ of an executed CLOSE whose response has not left (R54; reset none) -/
  closing : Option Nat := none
  /-- openings of this number so far (model's own, keeps a late answer from a later session; reset 0) -/
  inc : Nat := 0
  deriving DecidableEq, Repr

/-- The requests that a session's close left in issue order without a gap (R54): the session number, whether it was secure, whether
they wait behind an image commit (R74), what they ask for, oldest first, and the session's open block transfer. Their responses are
discarded. -/
structure Orphan where
  sess : Nat
  secure : Bool
  gated : Bool
  ops : List ReqOp
  block : Option Block
  deriving DecidableEq, Repr

/-- A report in the intake queue (R350), with its class and stamp. -/
structure Report where
  m : FaultMsg
  cls : FClass
  at_ : Nat
  deriving DecidableEq, Repr

/-- A run of folded reports of one source (R351). -/
structure Run where
  src : Nat
  first : Report
  last : Report
  count : Nat
  deriving DecidableEq, Repr

/-- A report that the logger has yet to write, with the COAL and COUNT of its element, and whether it has the place that is reserved
for GRAVE reports (R350, R351). -/
structure Queued where
  r : Report
  coal : Nat := 0
  count : Nat := 1
  reserved : Bool := false
  /-- the run of its source that was open when this GRAVE report came: its elements go ahead (R351, R352; reset none) -/
  ahead : Option Run := none
  deriving DecidableEq, Repr

/-- Sources under release, the request it answers, and the group that MON_RESTART recalibrates (R272, R341). -/
structure Release where
  srcs : List Nat
  ans : Ans
  mon : Option Nat := none
  deriving DecidableEq, Repr

/-- The fault collector (R330 to R355). -/
structure Collector where
  /-- messages that units hold until the intake accepts them, oldest first (R330; reset empty) -/
  inbox : List FaultMsg := []
  /-- leaky buckets in µs, by source (R335; reset 0) -/
  bucket : SMap Nat := []
  /-- sources whose first DEADLINE has been seen (R31, R335; reset none) -/
  dead1 : List Nat := []
  /-- fenced sources: the source whose report fenced it plus 1, and whether by DEADLINE (R337, R338; reset none) -/
  fenced : SMap (Nat × Bool) := []
  /-- fences on their way to a group: µs of classification and source, in the order of both (R337, R342; reset empty) -/
  arriving : List (Nat × Nat) := []
  /-- intake queue, oldest first (R350; reset empty) -/
  queue : List Queued := []
  /-- open runs in the order in which they opened (R351; reset empty) -/
  runs : List Run := []
  /-- fault log ring by element offset (R352; reset empty, reloaded from NVM at boot) -/
  log : SMap Nat := []
  /-- error line states, and lines waiting for their coded message (R332; reset 0b01, none) -/
  lines : SMap Nat := []
  lineWait : List Nat := []
  /-- time of the latest coded message of a cluster plus 1, in ns (R332; reset none) -/
  lineMsg : SMap Nat := []
  /-- reports classified in the telemetry interval (R438; reset 0) -/
  interval : Nat := 0
  /-- releases whose self-tests run, the oldest first (R341; reset none) -/
  release : List Release := []
  deriving DecidableEq, Repr

/-- An assertion whose slots have not all their outcome (R304): its number, event channel, selector, start, merged
edges, denied and no-op slots, ASSERT_NO, outcomes still due, and whether it is logged. -/
structure Asrt where
  id : Nat
  ev : Nat
  cause : Nat
  time : Nat
  merged : Bool
  denied : Nat
  noop : Nat
  no : Nat
  left : Nat
  log : Bool
  deriving DecidableEq, Repr

/-- The event router (R289 to R305). -/
structure Router where
  /-- assertions whose slots have not all their outcome, and the number of the next one (R304; reset none, 0) -/
  opn : List Asrt := []
  nextId : Nat := 0
  /-- EVI levels (R307; reset from the balls, DESIGN CHOICE 0, log 2) -/
  evi : Nat := 0
  /-- static levels and running pulse timers of the EVO balls (R295; reset 0) -/
  evo : Nat := 0
  pulses : Nat := 0
  /-- earliest end of a running pulse in ns, by ball (R295; reset 0) -/
  evoEnd : SMap Nat := []
  /-- start of the last assertion of an event channel plus 1, in ns; its number plus 1; and the place of its element in the event
  log plus 1 (R290, R304; reset none) -/
  started : SMap Nat := []
  lastId : SMap Nat := []
  lastLog : SMap Nat := []
  /-- event log ring (R304; reset empty) -/
  log : SMap Nat := []
  /-- an element was dropped before the next one (R304; reset false) -/
  loss : Bool := false
  deriving DecidableEq, Repr

/-- A matrix transaction (R245): its channel (none for BREAK_ALL), its line, the time in ns at which it entered arbitration,
the words not yet sent (endpoint, operation, phase), and, for a restart of a line (R244), the request it answers. -/
structure Txn where
  ch : Option Nat
  line : Nat
  since : Nat
  words : List (Nat × Nat × Nat)
  restart : Bool := false
  ans : Ans := none
  deriving DecidableEq, Repr

/-- A matrix word that has been sent: its bits, resends so far, consecutive busy echoes, and whether its echo has confirmed
it (R244). -/
structure Word1 where
  w : BitVec 32
  resends : Nat := 0
  busy : Nat := 0
  ok : Bool := false
  deriving DecidableEq, Repr

/-- A claim on its way: the µs of its arrival, its channel, and whether a unit of the channel's Chanter makes it (R238, R240). -/
structure ClaimReq where
  us : Nat
  ch : Nat
  unit : Bool
  deriving DecidableEq, Repr

/-- The matrix controller (R237 to R255). -/
structure Matrix where
  /-- reservations: physical endpoint to channel plus 1 (R239; reset none) -/
  resv : SMap Nat := []
  /-- reservations of the partner (R412; reset none) -/
  partner : SMap Nat := []
  /-- claims waiting, in the order in which they are answered (R238; reset empty) -/
  claims : List ClaimReq := []
  /-- transactions waiting for SP0 (R247; reset empty) -/
  waiting : List Txn := []
  /-- the transaction that holds SP0, its start in ns (after a collision, the instant of that), the words it has sent, the words to send again, and the word whose
  echo comes next (R244, R248; reset none) -/
  cur : Option Txn := none
  start : Nat := 0
  sent : List Word1 := []
  again : List (BitVec 32) := []
  await : Option (BitVec 32) := none
  /-- word tags by line (R241; reset 0) -/
  tag : SMap Nat := []
  /-- collisions of the transaction (R394; reset 0) -/
  collisions : Nat := 0
  /-- the first transfer since the start or restart has not been counted yet (R402; reset false) -/
  first : Bool := false
  /-- SEL_CFG, SEL_LEAD and SEL_LAG of the transaction as it began, and how long it has waited for SP0, in ns (R248, R390, R392; reset 0) -/
  cfg : Nat := 0
  lead : Nat := 0
  lag : Nat := 0
  waited : Nat := 0
  /-- ledger with the counts not yet committed, and the dirty lines (R249, R254; reset from NVM) -/
  ledger : SMap Nat := []
  dirty : List Nat := []
  /-- the endpoints whose ledger lines the cache holds (R254; reset none) -/
  lines : List Nat := []
  /-- endpoint map (R234; reset default) -/
  map : SMap Nat := []
  /-- a commit runs, with its lines and the values that it writes; requests that it answers; requests for the next one (R437; reset
  none) -/
  committing : Option (List (Nat × Nat)) := none
  commitAns : List Ans := []
  commitNext : List Ans := []
  commitAt : Nat := 0
  /-- another commit follows the one that runs at once (R347, R437; reset false) -/
  commitMore : Bool := false
  deriving DecidableEq, Repr

/-- How a port drives a ball: not at all, to both levels, or to the low level only (R385). -/
inductive Drive where
  | highZ | pushPull | lowOnly
  deriving DecidableEq, Repr

/-- The drive of SPn_SCK, SPn_SDO, SPn_RSTB and of the selects SPn_CS0 to SPn_CS7 (Table "Serial port balls"). -/
structure SpBalls where
  sck : Drive := .highZ
  sdo : Drive := .highZ
  rstb : Drive := .highZ
  cs : Drive := .highZ
  deriving DecidableEq, Repr

/-- A serial port (R391 to R400). -/
structure Serial where
  /-- the port masters a transaction (Table SP_STATUS; reset 0) -/
  mastering : Bool := false
  /-- selected as a slave (Table SP_STATUS; reset 0) -/
  slave : Bool := false
  /-- a transaction waits for the idle condition (R392; reset 0) -/
  busBusy : Bool := false
  /-- MM_FAULT and STROBE_ERR (Table SP_STATUS; reset 0) -/
  mmFault : Bool := false
  strobeErr : Bool := false
  /-- the base configuration has applied and the device is awake: before, and in deep sleep, every ball is high-impedance (R385;
  reset false) -/
  on : Bool := false
  /-- role in force: a write of SP_ROLE takes effect once the transaction in progress has ended (R391; reset 0, the default of
  SP_ROLE) -/
  role : Nat := 0
  deriving DecidableEq, Repr

/-- The SP1 mailbox and list (R398 to R400). -/
structure Sp1 where
  /-- transmit queue, head first (R398; reset empty) -/
  txq : List Nat := []
  /-- receive queue, oldest first (R398; reset empty) -/
  rxq : List Nat := []
  /-- reply being sent as a slave (R397; reset none) -/
  reply : Option Nat := none
  /-- the reply came from the queue (R397; reset false) -/
  fromQueue : Bool := false
  /-- select of the transaction in progress, and the SEL_CFG that it began with (R390; reset 0, the default) -/
  sel : Nat := 0
  cfg : Nat := 0x22000
  /-- list running: select, its words, and what it answers; a poll has started it (R399; reset none) -/
  list : Option (Nat × List Nat × Ans) := none
  poll : Bool := false
  /-- GOs waiting, oldest first (R399; reset empty) -/
  goWait : List (Nat × Ans) := []
  deriving DecidableEq, Repr

/-- DHCP client states (R361). -/
inductive Dhcp where
  | init | selecting | requesting | bound | renewing | rebinding
  deriving DecidableEq, Repr

/-- A network port (R357 to R363). -/
structure Port where
  /-- link up (R358; reset down) -/
  link : Bool := false
  /-- DHCP client state, DISCOVERs sent and the time of the last message in ns (R361; reset init) -/
  dhcp : Dhcp := .init
  tries : Nat := 0
  sent : Nat := 0
  /-- lease: start in ns, length, T1, T2 in s (R361; reset 0) -/
  leaseAt : Nat := 0
  lease : Nat := 0
  t1 : Nat := 0
  t2 : Nat := 0
  mask : Nat := 0
  router : Nat := 0
  /-- the server that made the latest offer, and the address offered; the transaction identifier, and the address of the frame that the
  server's latest message came in (R361; reset 0) -/
  server : Nat := 0
  offered : Nat := 0
  xid : Nat := 0
  serverMac : Nat := 0
  /-- an address has taken effect and its gratuitous ARP has not left yet (R361; reset false) -/
  garp : Bool := false
  /-- ARP cache: address, MAC, time learnt in ns, newest first (R362; reset empty) -/
  arp : List (Nat × Nat × Nat) := []
  /-- addresses being resolved, with the time of the last request (R362; reset empty) -/
  asking : List (Nat × Nat) := []
  /-- time from which link and address have held, in ns (R381; reset none) -/
  goodFrom : Option Nat := none
  deriving DecidableEq, Repr

/-- A record stream (R376 to R381). -/
structure Stream where
  /-- the port that carries a single-port stream when it has moved (R381; reset none) -/
  movedTo : Option Nat := none
  /-- requests that wait for the last block of a stopped stream (R380; reset none) -/
  ans : List Ans := []
  /-- aggregates on their way, oldest first, at most two windows of a group (R191, R378; reset empty) -/
  aggs : List AggPkt := []
  deriving DecidableEq, Repr

/-- Time: the TBP counter, servo and calendar (R364 to R369, R440). Times in ns. -/
structure Clock where
  /-- time since reset; only an idle step advances it (log 1; reset 0) -/
  up : Nat := 0
  /-- TBP counter minus `up` (R364; reset 0) -/
  tbp : Int := 0
  /-- rate trim of the counter in ppb, from -200,000 to 200,000, and the fraction of a ns that it has gathered, in 10^-9 ns
  (R364, R367; reset 0) -/
  rate : Int := 0
  part : Int := 0
  /-- calendar minus `up`, and the fraction of a ns that RTC_TRIM has gathered, in 10^-9 ns (R440; reset 0) -/
  rtc : Int := 0
  rtcPart : Int := 0
  /-- frames since the frame counter started, and the TBP stamps of the last frame start and of the one before it (R18, R19; reset 0)
  -/
  frames : Nat := 0
  stamp : Int := 0
  stampWas : Int := 0
  /-- sources heard of: port, clock, time of the last Announce in ns (R365; reset none) -/
  heard : List (Nat × PtpClock × Nat) := []
  /-- sequence number of the next PTP request (R365; reset 0), the one that awaits its response with its time in ns, the earliest time of
  the next one, and its interval as a power of 2 of 1/16 s (R365; reset none, 0, DESIGN CHOICE 1 s, log 96) -/
  ptpSeq : Nat := 0
  reqAt : Option (Nat × Nat) := none
  reqNext : Nat := 0
  reqExp : Nat := 4
  /-- a Sync that awaits its Follow_Up: identity, sequence, time in ns, correction; receipt minus origin and corrections of the last Sync,
  and what a two-step Pdelay_Resp has brought, both in 2^-16 ns (R365; reset none) -/
  sync2 : Option (Nat × Nat × Nat × Int) := none
  syncDiff : Option Int := none
  pdelay : Option Int := none
  /-- selected source by port; time of the last Sync and Announce; good offsets in a row (R365 to R367; reset none) -/
  src0 : Option Nat := none
  src1 : Option Nat := none
  lastSync : Nat := 0
  lastAnnounce : Nat := 0
  good : Nat := 0
  /-- TAI second of the next PPSIN edge, as written (R369; reset none) -/
  ppsNext : Option Nat := none
  /-- PPSOUT level, and when it falls in ns (R369; reset 0) -/
  ppsOut : Bool := false
  ppsEnd : Nat := 0
  /-- PPSOUT_OFFSET before its latest write, and the TAI second from which that write holds (R369; reset 0) -/
  ppsOld : Int := 0
  ppsFrom : Nat := 0
  /-- the same of PPSOUT_WIDTH (R369; reset 0) -/
  ppsWOld : Nat := 0
  ppsWFrom : Nat := 0
  /-- counter steps, and their number at the last packet of a channel (its number) or of a group's aggregates in a stream (key
  512 + 16k + g) (R368; reset 0) -/
  stepNo : Nat := 0
  stepSeen : SMap Nat := []
  /-- last RTC_TRIM store in ns (R440; reset 0) -/
  trimAt : Nat := 0
  /-- present state of timebases 0..24: 0 absent, 1 starting, 2 running, 4 lost (R20, Table TB_STATUS; reset absent
  before boot stage 0, DESIGN CHOICE, log 2), and those lost since TB_STATUS was last read, one bit each -/
  tb : SMap Nat := []
  tbSeen : Nat := 0
  /-- timebases found off in the last window, one bit each (R20; reset 0) -/
  tbWarn : Nat := 0
  /-- when REFCLK was found lost, in ns, and whether that has been reported as GRAVE (R20; reset none, false) -/
  refAt : Option Nat := none
  refSaid : Bool := false
  deriving DecidableEq, Repr

/-- The pair link (R403 to R422). -/
structure Pair where
  /-- valid cell and witness edge last seen, in ns (R409, R418; reset 0) -/
  lastCell : Nat := 0
  lastWitness : Nat := 0
  /-- heartbeat and witness found silent (R414, R418; reset false) -/
  hbLost : Bool := false
  witSilent : Bool := false
  /-- last cell per lane (R408; reset 0) -/
  lane0 : Nat := 0
  lane1 : Nat := 0
  /-- a FAIL cell has been sent (R416; reset false) -/
  failSent : Bool := false
  /-- cell counters of the transmit lanes (R408; reset 0) -/
  seq0 : Nat := 0
  seq1 : Nat := 0
  /-- messages that wait for a cell, oldest first: the time in ns, the group, and of STATE messages the strobe as a frame-grid microsecond
  (R410; reset empty) -/
  outSt : List (Nat × Nat × Nat × MirrorState) := []
  outCf : List (Nat × Nat × MirrorConfig) := []
  deriving DecidableEq, Repr

/-- One half of the configuration area (R73, R74): read back as triples, map and identity. -/
structure Half where
  valid : Bool := false
  id : Nat := 0
  base : List Triple := []
  overlays : SMap (List Triple) := []
  map : List (Nat × Nat) := []
  deriving DecidableEq, Repr

/-- A mode switch (R68 to R70): target, who asked, and with what rights. -/
structure Switch where
  target : Nat
  org : Origin
  owner : Nat
  secure : Bool
  deriving DecidableEq, Repr

/-- The configuration engine (R66 to R76). -/
structure Config1 where
  /-- switch under validation or applying, and those that wait (R70; reset none) -/
  cur : Option Switch := none
  waiting : List Switch := []
  /-- groups that have yet to apply (R69; reset 0) -/
  groupsLeft : List Nat := []
  /-- the overlays of the active half are in use: not after a boot on defaults (R76, R451; reset false) -/
  loaded : Bool := false
  /-- the base in force, taken at boot or by LOAD_BASE, and the overlay in force, taken by its switch: a commit changes neither (R75;
  reset empty) -/
  base : List Triple := []
  overlay : List Triple := []
  /-- staged image bytes (R62, R72; reset 0) -/
  image : SMap Byte := []
  /-- an image commit runs: session and answer, the half it writes (R74; reset none) -/
  commit : Option (Ans × Half × List (Nat × List Int)) := none
  /-- waveforms by number (R218; in NVM) -/
  waves : SMap (List Int) := []
  deriving DecidableEq, Repr

/-- What NVM and the VAON domain keep across resets other than power-on (R450). -/
structure Nvm where
  /-- the configuration halves and which is active (R74; a new part holds none, log 3) -/
  half0 : Half := {}
  half1 : Half := {}
  active : Nat := 0
  /-- confirmed reservations by channel (R183; new part 0, log 3) -/
  rsv : SMap Nat := []
  /-- session keys (R77; new part empty) -/
  keys : SMap (List Byte) := []
  /-- committed ledger (R249; new part 0) -/
  ledger : SMap Nat := []
  /-- calibration halves as differences from the factory copy, active half, halves whose CRC fails (R312) -/
  cal0 : SMap (Option CalElem) := []
  cal1 : SMap (Option CalElem) := []
  calActive : Nat := 0
  calBad : Nat := 0
  factoryBad : List Nat := []
  /-- log copies (R304, R353; new part empty) -/
  flog : SMap Nat := []
  elog : SMap Nat := []
  flogNewest : Nat := 0
  elogNewest : Nat := 0
  /-- lifetime counters (R77, R326, R356, R445, R466; new part 0) -/
  boots : Nat := 0
  imageCommits : Nat := 0
  calCommits : Nat := 0
  flogTotal : Nat := 0
  nvmPasses : Nat := 0
  /-- calendar trim, set and validity (R440, R441; new part 0, never set) -/
  rtcTrim : Int := 0
  rtcValid : Bool := false
  /-- writes of a physical page by bank × 257 + page, writes to a bank since its last gap move, gap moves of a bank (R432; new
  part 0) -/
  wear : SMap Nat := []
  since : SMap Nat := []
  gap : SMap Nat := []
  /-- pages moved, by bank × 256 + page: the page of the reserve plus 1 (R434), or 257 plus the bank whose gap page holds it (R435; new
  part none) -/
  moved : SMap Nat := []
  deriving DecidableEq, Repr

/-- Supplies, boot and sleep (R446 to R465). -/
structure Power where
  /-- boot stage 0..4 in progress, 5 when the boot is done (R452; reset 0) -/
  stage : Nat := 0
  /-- when stage 1 began, in ns (R452; reset 0) -/
  bootFrom : Nat := 0
  /-- rails lost, one bit each (R446; reset 0) -/
  lost : Nat := 0
  /-- deep sleep entry phase: 0 none, 1 ramps, 2 quiesce, 3 commit, 4 power-down; its answer (R459; reset 0) -/
  entry : Nat := 0
  ans : Ans := none
  /-- asleep (R460; reset false) -/
  asleep : Bool := false
  /-- a wake source arrived: cause and event channel, and when in ns (R462; reset none) -/
  wake : Option (Nat × Nat) := none
  wakeAt : Nat := 0
  /-- a host reset is due at this time in ns (R449; reset none) -/
  resetAt : Option Nat := none
  /-- adaptive control released by fallback (R455; reset false) -/
  vddcFell : Bool := false
  /-- 10 ms periods above and below the BUDGET_HOT limits, and above the declared sum (R465; reset 0) -/
  hotN : Nat := 0
  coolN : Nat := 0
  overN : Nat := 0
  powerSaid : Bool := false
  /-- TBA ticks since the last Reed sample in deep sleep (R280; reset 0) -/
  sleepTicks : Nat := 0
  /-- device temperatures and rails last measured (R438; reset 0) -/
  meas : Measured := ⟨800, 0, 0, 0⟩
  deriving DecidableEq, Repr

/-- Drone (R425 to R441). -/
structure Drone where
  /-- SRAM scrub slices done in the pass, and the start of the pass (R428; reset 0) -/
  sram : Nat := 0
  sramFrom : Nat := 0
  /-- NVM scrub slices done in the pass (R429; reset 0) -/
  nvm : Nat := 0
  /-- telemetry ring and next frame number (R438; reset empty, 0) -/
  tlm : SMap Nat := []
  frameNo : Nat := 0
  sramCe : Nat := 0
  nvmCe : Nat := 0
  lostAt : Nat := 0
  /-- elements in the event log intake: those written since Drone last drained it (R304; reset 0) -/
  intake : Nat := 0
  /-- bank whose copy to the reserve runs (R435; reset none) -/
  copying : Option Nat := none
  /-- pages whose write waits in the buffer, by bank and page, oldest first (R431, R435; reset none), and when a page was last written,
  in ns plus 1, by bank × 256 + page (R431; reset never) -/
  writes : List (Nat × Nat) := []
  pageAt : SMap Nat := []
  /-- due instants of the SRAM slice, the NVM slice, the log copy and the ledger commit, in ns, and the TAI second of the last
  telemetry frame (R425; set at the end of the boot, reset 0) -/
  dueSram : Nat := 0
  dueNvm : Nat := 0
  dueLog : Nat := 0
  dueLed : Nat := 0
  tlmSec : Nat := 0
  /-- instants in ns at which the last error line exercise and the last periodic Reed self-test pass fell due (R425; set at the end of the
  boot, reset 0) -/
  lineAt : Nat := 0
  reedAt : Nat := 0
  deriving DecidableEq, Repr

/-- MTRGO (R267). -/
structure Mtrgo where
  /-- the ball is high, and since when in ns (R267; reset low) -/
  high : Bool := false
  since : Nat := 0
  deriving DecidableEq, Repr

/-- What a pair cell carries (Table "Pair cell"): a HEARTBEAT's frame count, member, roles, safe latch and receive lanes (R409); STATE
messages with the strobes, as frame-grid microseconds, at which they come into force (R410); the strobe h of a handover likewise (R417). -/
inductive PairCell where
  | heartbeat (frame id : Nat) (roles : List Nat) (safe : Bool) (hears : Nat)
  | state (items : List (Nat × MirrorState))
  | config (item : MirrorConfig)
  | fail
  | groupFail (g : Nat)
  | handover (g at_ : Nat)
  | ack (g : Nat)
  deriving DecidableEq, Repr

/-- What leaves the block: responses, other frames and stream packets, each with its frame's bytes; serial words, pair cells. -/
inductive Tx where
  | resp (port sess : Nat) (r : Resp) (frame : List Byte)
  | handshake (port sess : Nat) (status : Status) (frame : List Byte)
  | frame (port kind : Nat) (frame : List Byte)
  | packet (port stream : Nat) (frame : List Byte)
  | sp0 (line : Nat) (word : BitVec 32)
  | sp1 (sel : Nat) (words : List Nat)
  | spBack (word : Nat)
  | cell (lane seq : Nat) (c : PairCell) (chars : List Byte)
  deriving DecidableEq, Repr

/-- THE STATE. -/
structure State where
  /-- object registers by address (index × 256 + subindex); an unlisted one reads as its default (R44) -/
  od : SMap Val := []
  /-- channels (R94) -/
  chan : SMap Chan := []
  /-- slices, key g × 33 + p (R78) -/
  slice : SMap SliceSt := []
  /-- groups (R12) -/
  grp : SMap Group := []
  /-- sessions 1..8 (R48) -/
  sess : SMap Session := []
  /-- closed sessions whose requests have yet to execute, oldest first (R54; reset empty) -/
  orphans : List Orphan := []
  /-- pending secure openings by number (R375; reset none) -/
  pend : SMap (Option Pend) := []
  /-- calibration elements in force, by slice × 12 + range; none is the factory element (R311, R325; reset none) -/
  cal : SMap (Option CalElem) := []
  /-- sweep memory (R198; reset the HALT pattern) -/
  sweep : SMap (BitVec 128) := []
  /-- fault collector (R330) -/
  flt : Collector := {}
  /-- event router (R289) -/
  rtr : Router := {}
  /-- matrix controller (R237) -/
  mtx : Matrix := {}
  /-- serial ports SP0 and SP1 (R384) -/
  sp0 : Serial := {}
  sp1 : Serial := {}
  mbox : Sp1 := {}
  /-- network ports NET0 and NET1 (R357) -/
  net0 : Port := {}
  net1 : Port := {}
  /-- streams 0..31 (R376) -/
  strm : SMap Stream := []
  /-- time (R364) -/
  clk : Clock := {}
  /-- pair link (R403) -/
  pair : Pair := {}
  /-- configuration engine (R66) -/
  cfg : Config1 := {}
  /-- NVM and the VAON domain (R450) -/
  nvm : Nvm := {}
  /-- supplies, boot, sleep (R446) -/
  pwr : Power := {}
  /-- Drone (R425) -/
  drn : Drone := {}
  /-- MTRGO generator (R267) -/
  mtrgo : Mtrgo := {}
  /-- safe latch and the report that set it, as a log element (R347, R349; reset clear) -/
  latch : Bool := false
  cause : Option Nat := none
  /-- the cause register of the stop detector of TBA, as a log element: its report waits for TBA or the next boot (R21; reset
  none) -/
  stopCause : Option Nat := none
  /-- BREAK_ALL of the safe state is still due (R255; reset false) -/
  safeBreak : Bool := false
  /-- nSAFE asserted (Table "Balls during start-up", R454; reset asserted) -/
  nSafe : Bool := true
  /-- what has left the block, oldest last (model's own) -/
  tx : List Tx := []
  /-- counter of free values (model's own, DESIGN CHOICE; reset 0) -/
  fresh : Nat := 0
  /-- waiting commands, first in first out (model's own; reset empty) -/
  pending : List Instr := []
  deriving DecidableEq, Repr

/-- The machine right after a power-on reset of a new part: every object at its default, every channel OFF, the
boot in stage 0 with RESET_CAUSE 0, nSAFE asserted, nothing stored in NVM (R44, R449, R450, R454). -/
def State.reset : State := {}

end Sys2Proof.Machine
end

