-- ==== Sys2Proof/Machine/Ops.lean ====
section
/-! DEFINITION. The named operations over the state that every command shares: object registers, unit records,
time, changes that wait for a strobe, fault messages, the output budget, and the answering of requests. -/
namespace Sys2Proof.Machine
open Sys2Proof

/-! ### Object registers (R40, R44) -/

/-- Address of an element of an object: index × 256 + subindex (R40). -/
def objKey (o : Obj) (i e : Nat) : Nat :=
  let d := o.desc
  (d.base + d.stride * i) * 256 + (d.sub + e)

/-- Type names and wire lengths (Table "Data types", R43). -/
def typeInfo : List (String × Nat) :=
  [("", 0), ("BOOL", 1), ("U8", 1), ("U16", 2), ("U32", 4), ("U64", 8), ("I8", 1), ("I16", 2), ("I32", 4), ("I64", 8),
   ("FRAC24", 3), ("FRAC18", 3), ("F32", 4), ("TIME80", 10), ("STR", 0), ("BLOB", 0)]

/-- Source type defaults N, W and severe action (Table "Source types", R336). -/
def srcDefaults : List (Nat × Nat × Nat) :=
  [(4, 3600000, 0), (8, 1000, 0), (8, 1000, 0), (4, 1000, 0), (4, 1000, 0), (4, 60000, 0), (16, 1000, 0), (16, 1000, 0),
   (4, 1000, 0), (4, 1000, 1), (4, 1000, 0), (4, 1000, 0), (8, 10000, 0), (8, 1000, 0), (8, 1000, 0), (4, 1000, 1),
   (16, 10000, 1), (8, 3600000, 0), (1, 1000, 0), (1, 1000, 1), (1, 1000, 0), (1, 1000, 1), (1, 1000, 1)]

/-- The default of an object's element (R44). Objects whose default is a list or depends on the instance are named;
the others take the number of their row. -/
def objDefault (o : Obj) (i e : Nat) : Val :=
  match o with
  | .VENDOR => .bytes (ascii "Utondorn Microsystems")
  | .PART => .bytes (ascii "SZ5128")
  | .SILICON => .bytes (ascii "B1")
  | .TYPE_LEN => .num (typeInfo.getD i ("", 0)).2
  | .TYPE_NAME => .bytes (ascii (typeInfo.getD i ("", 0)).1)
  | .CHT_START | .CHT_POS | .SW_BASE => .num (i * 256)
  | .LOOP_FIR | .REC_FIR => .num (if e < 2 then 65536 else 0)
  | .FLT_N => .num (srcDefaults.getD i (0, 0, 0)).1
  | .FLT_W => .num (srcDefaults.getD i (0, 0, 0)).2.1
  | .FLT_SEVERE_ACT => .num (srcDefaults.getD i (0, 0, 0)).2.2
  | .STREAM_CHANNELS => .bytes (List.replicate 64 0#8)
  | .MON_ENTRY => .num 0
  | _ =>
    let d := o.desc
    match d.ty with
    | .STR | .BLOB => .bytes []
    | _ => .num d.dflt

/-- The number of a value; bytes read as their big-endian number. -/
def Val.int : Val → Int
  | .num n => n
  | .bytes b => beNat b

/-- The bytes of a value. -/
def Val.blob : Val → List Byte
  | .num _ => []
  | .bytes b => b

/-- The stored value of an object's element. -/
def State.rdV (s : State) (o : Obj) (i : Nat := 0) (e : Nat := 0) : Val :=
  s.od.get (fun _ => objDefault o i e) (objKey o i e)

/-- The stored number of an object's element. -/
def State.rd (s : State) (o : Obj) (i : Nat := 0) (e : Nat := 0) : Int := (s.rdV o i e).int

/-- The stored number of an unsigned object. -/
def State.rdN (s : State) (o : Obj) (i : Nat := 0) (e : Nat := 0) : Nat := (s.rd o i e).toNat

/-- The stored truth value of a BOOL object. -/
def State.rdT (s : State) (o : Obj) (i : Nat := 0) (e : Nat := 0) : Bool := s.rd o i e != 0

/-- The state with a value stored in an object's element. -/
def State.wrV (s : State) (o : Obj) (i e : Nat) (v : Val) : State :=
  { s with od := s.od.put (fun _ => objDefault o i e) (objKey o i e) v }

/-- The state with a number stored in an object's element. -/
def State.wr (s : State) (o : Obj) (i e : Nat) (v : Int) : State := s.wrV o i e (.num v)

/-- A counter raised by `n`; it stops at its maximum ("saturating", R44). -/
def State.inc (s : State) (o : Obj) (i : Nat := 0) (n : Nat := 1) : State :=
  let v := s.rd o i + n
  s.wr o i 0 (if o.desc.hi < v then o.desc.hi else v)

/-! ### Unit records -/

def State.ch (s : State) (c : Nat) : Chan := s.chan.get (fun _ => {}) c
def State.modCh (s : State) (c : Nat) (f : Chan → Chan) : State :=
  { s with chan := s.chan.put (fun _ => {}) c (f (s.ch c)) }
def State.gr (s : State) (g : Nat) : Group := s.grp.get (fun _ => {}) g
def State.modGr (s : State) (g : Nat) (f : Group → Group) : State :=
  { s with grp := s.grp.put (fun _ => {}) g (f (s.gr g)) }
def State.sl (s : State) (k : Nat) : SliceSt := s.slice.get (fun _ => {}) k
def State.modSl (s : State) (k : Nat) (f : SliceSt → SliceSt) : State :=
  { s with slice := s.slice.put (fun _ => {}) k (f (s.sl k)) }
def State.se (s : State) (n : Nat) : Session := s.sess.get (fun _ => {}) n
def State.modSe (s : State) (n : Nat) (f : Session → Session) : State :=
  { s with sess := s.sess.put (fun _ => {}) n (f (s.se n)) }
def State.st (s : State) (n : Nat) : Stream := s.strm.get (fun _ => {}) n
def State.modSt (s : State) (n : Nat) (f : Stream → Stream) : State :=
  { s with strm := s.strm.put (fun _ => {}) n (f (s.st n)) }
/-- Network port NET0 or NET1. -/
def State.port (s : State) (n : Nat) : Port := if n = 0 then s.net0 else s.net1
def State.modPort (s : State) (n : Nat) (f : Port → Port) : State :=
  if n = 0 then { s with net0 := f s.net0 } else { s with net1 := f s.net1 }
/-- Serial port SP0 or SP1. -/
def State.sp (s : State) (n : Nat) : Serial := if n = 0 then s.sp0 else s.sp1
def State.modSp (s : State) (n : Nat) (f : Serial → Serial) : State :=
  if n = 0 then { s with sp0 := f s.sp0 } else { s with sp1 := f s.sp1 }
def State.modMon (s : State) (g : Nat) (f : Mon → Mon) : State := s.modGr g fun r => { r with mon := f r.mon }
def State.modCht (s : State) (c : Nat) (f : Chanter → Chanter) : State := s.modCh c fun h => { h with cht := f h.cht }
def State.modHold (s : State) (c : Nat) (f : Hold → Hold) : State := s.modCh c fun h => { h with hold := f h.hold }
def State.modSlide (s : State) (c : Nat) (f : Slide → Slide) : State := s.modCh c fun h => { h with slide := f h.slide }
def State.modAper (s : State) (c : Nat) (f : Aper → Aper) : State := s.modCh c fun h => { h with aper := f h.aper }

/-- The group of a channel (R5). -/
def grpOf (c : Nat) : Nat := c / 32
/-- The home slice position of a channel (R5). -/
def homeOf (c : Nat) : Nat := c % 32
/-- The channels of a group, ascending (R5). -/
def chansOf (g : Nat) : List Nat := rangeFrom (32 * g) 32
/-- The groups. -/
def allGroups : List Nat := List.range 16
/-- The channels. -/
def allChans : List Nat := List.range 512
/-- The slice position that carries a channel (R91). -/
def State.pos (s : State) (c : Nat) : Nat := if (s.ch c).onSpare then 32 else homeOf c
/-- The number of the slice that carries a channel: g × 33 + p (R331). -/
def State.sliceOf (s : State) (c : Nat) : Nat := grpOf c * 33 + s.pos c
/-- Apply `f` for each of a list. -/
def State.each {α : Type} (s : State) (l : List α) (f : State → α → State) : State := l.foldl f s

/-! ### Time (R364; log 1) -/

/-- Nanoseconds since reset. -/
def State.now (s : State) : Nat := s.clk.up
/-- The TBP counter in ns of TAI (R364). -/
def State.tbp (s : State) : Nat := ((s.clk.up : Int) + s.clk.tbp).toNat
/-- The calendar in ns of TAI, with its 15-bit fraction of a second (R440; a read rounds the fraction down to ns, DEDUCED,
log 97). -/
def State.rtc (s : State) : Nat :=
  let n := ((s.clk.up : Int) + s.clk.rtc).toNat
  n / 1000000000 * 1000000000 + n % 1000000000 * 32768 / 1000000000 * 1000000000 / 32768
/-- The time stamp of the present instant (R9, R364). -/
def State.stampNow (s : State) : Nat := time80 s.tbp
/-- The tick period of a group in µs (R18). -/
def State.tickUs (s : State) (g : Nat) : Nat := 2 ^ (s.gr g).rate
/-- Load strobes until at least `us` µs have passed (R99, R143, R149). -/
def State.strobesFor (s : State) (g us : Nat) : Nat := ceilDiv us (s.tickUs g)
/-- The present state of a timebase (R20). -/
def State.tb (s : State) (t : Nat) : Nat := s.clk.tb.get (fun _ => 0) t
/-- A timebase set to a state; a loss shows in TB_STATUS until it is read (Table TB_STATUS). -/
def State.setTb (s : State) (t v : Nat) : State :=
  { s with clk := { s.clk with tb := s.clk.tb.put (fun _ => 0) t v
                               tbSeen := if v = 4 then setBit s.clk.tbSeen t true else s.clk.tbSeen } }
/-- Timebases of the monitors, the PTP counter, the calendar and the collector (Table "Timebases"). -/
def tbM : Nat := 16
def tbP : Nat := 19
def tbC : Nat := 23
def tbA : Nat := 24
/-- The group has load strobes: it is powered and its TBGg runs (R20, R47). -/
def State.strobes (s : State) (g : Nat) : Bool := (s.gr g).powered && s.tb g == 2

/-- A free value: its number, and the state with the next number. -/
def State.draw (s : State) : Nat × State := (s.fresh, { s with fresh := s.fresh + 1 })

/-! ### Fault messages (R330, R331) -/

def srcSlice (g p : Nat) : Nat := g * 33 + p
def srcCtl (g : Nat) : Nat := 0x210 + g
def srcLoop (g : Nat) : Nat := 0x220 + g
def srcRec (g : Nat) : Nat := 0x230 + g
def srcSlide (g : Nat) : Nat := 0x240 + g
def srcCrook (g : Nat) : Nat := 0x250 + g
def srcMon (g : Nat) : Nat := 0x260 + g
def srcCht (c : Nat) : Nat := 0x280 + c
def srcLine (l : Nat) : Nat := 0x480 + l
def srcMtx : Nat := 0x488
def srcRouter : Nat := 0x490
def srcCal : Nat := 0x491
def srcOd : Nat := 0x492
def srcNet (n : Nat) : Nat := 0x493 + n
def srcPtp : Nat := 0x495
def srcSp (n : Nat) : Nat := 0x496 + n
def srcPair : Nat := 0x498
def srcDrone : Nat := 0x499
def srcSram : Nat := 0x49A
def srcCfg : Nat := 0x49C
def srcColl : Nat := 0x49D
def srcSup : Nat := 0x49E
def srcTb (t : Nat) : Nat := 0x4A0 + t
def srcBank (b : Nat) : Nat := 0x4C0 + b
def srcCluster (k : Nat) : Nat := 0x4D0 + k

/-- The source type of a source (Table "Fault sources", R331); none for a reserved number. -/
def srcType (n : Nat) : Option Nat :=
  if n < 0x210 then some 0 else if n < 0x220 then some 1 else if n < 0x240 then some 2 else if n < 0x250 then some 3
  else if n < 0x260 then some 4 else if n < 0x270 then some 5 else if n < 0x280 then none else if n < 0x480 then some 6
  else if n < 0x488 then some 7 else if n = 0x488 then some 8 else if n < 0x490 then none else if n = 0x490 then some 9
  else if n = 0x491 then some 10 else if n = 0x492 then some 11 else if n < 0x496 then some 12
  else if n < 0x498 then some 13 else if n = 0x498 then some 14 else if n = 0x499 then some 15
  else if n = 0x49A then some 16 else if n = 0x49B then none else if n = 0x49C then some 11 else if n = 0x49D then some 22
  else if n = 0x49E then some 19 else if n = 0x49F then none else if n < 0x4B9 then some 18 else if n < 0x4C0 then none
  else if n < 0x4D0 then some 17 else if n < 0x4E0 then some 20 else if n < 0x4EA then some 21 else none

/-- A unit sends the collector one coded message; it waits at the unit until the intake takes it (R330). -/
def State.report (s : State) (src kind addr detail : Nat) (cls : FClass := .note) : State :=
  { s with flt := { s.flt with inbox := s.flt.inbox ++ [⟨src, kind, addr, detail, cls⟩] } }

/-- The source is fenced (R337). -/
def State.fencedSrc (s : State) (n : Nat) : Bool := (s.flt.fenced.get (fun _ => (0, false)) n).1 != 0

/-- The status of a request that needs a fenced unit: FENCED, or DEADLINE when the fence came from escalated
DEADLINE reports; none where the unit is not fenced (R338). -/
def State.fenceStatus (s : State) (n : Nat) : Option Status :=
  let f := s.flt.fenced.get (fun _ => (0, false)) n
  if f.1 = 0 then none else some (if f.2 then .DEADLINE else .FENCED)

/-- The first of the statuses found. -/
def firstStatus (l : List (Option Status)) : Option Status := l.findSome? id

/-- A matrix line is fenced: itself, the matrix controller, or SP0 (R336 types 7, 8, 13). -/
def State.lineFenced (s : State) (l : Nat) : Bool :=
  s.fencedSrc (srcLine l) || s.fencedSrc srcMtx || s.fencedSrc (srcSp 0)

/-- The device is in RUN while a group is powered, else in IDLE (R457). -/
def State.runState (s : State) : State :=
  if s.rd .PWR_STATE = 1 ∨ s.rd .PWR_STATE = 2 then
    s.wr .PWR_STATE 0 0 (if allGroups.any fun g => (s.gr g).powered then 1 else 2)
  else s

/-! ### Serial ports (R384, R385, R391) -/

/-- What a port drives (Table "Serial port balls", R385, R401). -/
def State.spBalls (s : State) (n : Nat) : SpBalls :=
  let x := s.sp n
  if !x.on ∨ n = 1 ∧ s.fencedSrc (srcSp 1) then {}
  else if x.role = 0 then { sck := .pushPull, sdo := .pushPull, cs := .pushPull }
  else if x.mastering then { sck := .pushPull, sdo := .pushPull, cs := .lowOnly }
  else if x.slave then
    { sdo := .pushPull, rstb := if bit s.mbox.cfg 3 then .pushPull else .highZ }
  else {}

/-- The transaction of a port has ended: it neither masters nor answers, and the role as written is in force (R391). -/
def State.spEnd (s : State) (n : Nat) : State :=
  s.modSp n fun x => { x with mastering := false, slave := false, role := s.rdN .SP_ROLE n }

/-- The balls of both ports come into use, or go high-impedance (R385). -/
def State.spPower (s : State) (on : Bool) : State :=
  s.each [0, 1] fun s n => s.modSp n fun x => { x with on := on, role := s.rdN .SP_ROLE n }

/-- SP_ROLE is written: in force at once where no transaction is in progress (R391). -/
def State.spRole (s : State) (n : Nat) (v : Int) : State :=
  let busy := if n = 0 then s.mtx.cur.isSome else s.mbox.list.isSome || s.sp1.slave
  let s := s.wr .SP_ROLE n 0 v
  if busy then s else s.modSp n fun x => { x with role := v.toNat, busBusy := false }

/-! ### NVM areas (R430, R436) -/

/-- The area of an NVM bank (Table "NVM banks"). -/
def bankArea (b : Nat) : Nat :=
  if b < 8 then 0 else if b < 12 then 1 else if b = 12 then 2 else if b = 13 then 3 else if b = 14 then 4 else 5

/-- The bank takes no writes (R436): it is fenced, no copy to the reserve runs, and no reserve in service replaces it. -/
def State.bankDead (s : State) (b : Nat) : Bool :=
  s.fencedSrc (srcBank b) && s.drn.copying != some b && (s.rdN .NVM_RESERVE_USE != b || s.fencedSrc (srcBank 15))

/-- Where a page has moved to (R434, R435); 0 where it stands in its own bank. -/
def State.moved (s : State) (p : Nat × Nat) : Nat := s.nvm.moved.get (fun _ => 0) (p.1 * 256 + p.2)

/-- A page that no write reaches: its bank is dead, or the bank that it has moved to is (R434 to R436). -/
def State.pageDead (s : State) (p : Nat × Nat) : Bool :=
  let m := s.moved p
  s.bankDead p.1 || (m != 0 && (if m ≤ 256 then s.fencedSrc (srcBank 15) else s.bankDead (m - 257)))

/-- The page of the endpoint ledger that holds endpoint k: its bank, and its place there (Table "NVM banks"). -/
def ledPage (k : Nat) : Nat × Nat := (k / 512 % 8, k / 4096 % 256)
/-- Both copies of device record r (R430): 0 reservations, 1 session keys, 2 lifetime counters, 3 calendar trim (places DESIGN CHOICE,
log 107). -/
def recPages (r : Nat) : List (Nat × Nat) := [(14, 32 + r), (14, 48 + r)]
/-- Pages of copy k of the calibration area: 0 the factory copy, then the halves (places DESIGN CHOICE, log 107). -/
def calPages (k : Nat) : List (Nat × Nat) := (rangeFrom (50 * k) 50).map fun p => (13, p)
/-- Pages of a waveform (R218): 4,096 points each. -/
def wavePages (n : Nat) : Nat := ceilDiv n 4096
/-- Pages of NVM that hold points `off` to `off + cnt - 1` of waveform n: library pages follow one another by waveform, three pages of NVM
each (places DESIGN CHOICE, log 107). -/
def State.wavePlaces (s : State) (n off cnt : Nat) : List (Nat × Nat) :=
  let base := ((List.range n).map fun m => wavePages (s.rdN .WAVE_LEN m)).sum
  if cnt = 0 then []
  else (rangeFrom (3 * (base + off / 4096)) (3 * ((off + cnt - 1) / 4096 - off / 4096 + 1))).map fun x => (8 + x / 256 % 4, x % 256)

/-- Pages enter the write buffer (R431), each once; a write that reaches no page is dropped (R436). -/
def State.nvmPut (s : State) (l : List (Nat × Nat)) : State :=
  { s with drn := { s.drn with writes := s.drn.writes ++ l.filter fun p => !s.pageDead p && !s.drn.writes.contains p } }

/-- Page writes of the ledger and the logs that are dropped count (R436). -/
def State.nvmDrop (s : State) (l : List (Nat × Nat)) : State :=
  s.inc .NVM_DROPPED 0 (l.filter fun p => p.1 < 8 ∨ p.1 = 14 ∧ p.2 < 32).length

/-- After a fence the waiting writes of a bank that takes none are dropped, and a commit goes on without their lines (R436). -/
def State.nvmSweep (s : State) : State :=
  let s := s.nvmDrop (s.drn.writes.filter s.pageDead)
  { s with drn := { s.drn with writes := s.drn.writes.filter fun p => !s.pageDead p }
           mtx := { s.mtx with committing := s.mtx.committing.map fun l => l.filter fun x => !s.pageDead (ledPage x.1) } }

/-- Drone works: the boot is over and the device is awake. -/
def State.droneUp (s : State) : Bool := s.pwr.stage == 5 && !s.pwr.asleep

/-- An activity starts: at its due instant or, where its resource was not free, after it; a start later than the tolerated delay counts
(R425). -/
def State.started (s : State) (o : Obj) (due delay : Nat) : State := if due + delay < s.now then s.inc o else s

/-- An activity of period `p` ns that last fell due at `last` is due again (R425). -/
def State.dueAgain (s : State) (last p : Nat) : Bool := decide (last + p ≤ s.now)

/-- The latest instant at which it has fallen due: its schedule stays its own, whenever it starts (R425). -/
def State.lastDue (s : State) (last p : Nat) : Nat := last + (s.now - last) / p * p

/-- A wake source (R462): the first one counts, and of two at one instant the lower cause (R463). -/
def State.wakeBy (s : State) (cause n : Nat) : State :=
  let new := match s.pwr.wake with
    | none => true
    | some (k, _) => decide (s.pwr.wakeAt = s.now ∧ cause < k)
  if new then { s with pwr := { s.pwr with wake := some (cause, n), wakeAt := s.now } } else s

/-! ### Changes that wait for a strobe (R27, R46, R47) -/

/-- The instant lies between clock 44 and clock 48 of the tick whose strobe comes next, 31.25 ns a clock (R28, R207). At 1 MHz those
clocks fall into the next tick. -/
def State.afterClock44 (s : State) (g : Nat) : Bool :=
  let x := s.now - (s.gr g).tickAt + (if s.tickUs g = 1 then 1000 else 0)
  decide (1375 ≤ x ∧ x < 1500)

/-- A change reaches a group's engines (R27). -/
def State.push (s : State) (g : Nat) (a : Ans) (w : What) (adm : Option Bool := none) : State :=
  let late := s.afterClock44 g
  s.modGr g fun r => { r with arrived := r.arrived ++ [⟨a, w, adm, late⟩] }

/-- What has left the block. -/
def State.send (s : State) (t : Tx) : State := { s with tx := s.tx ++ [t] }

/-! ### The mirror of a pair (R410 to R412) -/

/-- The group of a channel's or group's object; the others have none. -/
def groupOfObj (o : Obj) (i : Nat) : Option Nat :=
  let b := o.desc.base
  if b = 0x8000 ∨ b = 0xA000 then some (grpOf i) else if 0x4000 ≤ b ∧ b < 0x4100 then some i else none

/-- This member mirrors the group to its partner: it is in role 1 or 2, and the pair is formed (R411, R421). -/
def State.mirrors (s : State) (g : Nat) : Bool :=
  s.rd .PAIR_STATE == 2 && (s.rd .PAIR_ROLE g == 1 || s.rd .PAIR_ROLE g == 2)

/-- The group of a STATE message (R410). -/
def stampedGroup : MirrorState → Nat
  | .output c _ _ | .param c _ _ _ _ _ _ | .chanter c _ _ _ _ | .grid c _ _ | .slide c _ _ | .reserve c _ | .release c _ | .next c _ => grpOf c
  | .confirmedMake g _ | .synced g _ => g

/-- STATE messages that come into force at a strobe wait for the next cells (R410). -/
def State.stateOut (s : State) (at_ : Nat) (l : List MirrorState) : State :=
  { s with pair := { s.pair with outSt := s.pair.outSt ++ l.map fun m => (s.now, stampedGroup m, at_, m) } }

/-- A message of a STATE cell for a group that is mirrored, in force at its next strobe. -/
def State.tell (s : State) (g : Nat) (m : MirrorState) : State :=
  if s.mirrors g then s.stateOut ((s.gr g).ticks + s.tickUs g) [m] else s

/-- A message of a CONFIG cell for a group that is mirrored waits for its cell. -/
def State.tellConfig (s : State) (g : Nat) (m : MirrorConfig) : State :=
  if s.mirrors g then { s with pair := { s.pair with outCf := s.pair.outCf ++ [(s.now, g, m)] } } else s

/-- Objects whose values STATE cells carry (Table "Mirrored items"). -/
def inState : Obj → Bool
  | .FORCE_MODE | .SETPOINT | .COMPL_LIM | .V_RANGE | .I_RANGE | .APERTURE_N => true
  | _ => false

/-- A write in force of another object of a channel or group unit (R411). -/
def State.configOut (s : State) (o : Obj) (i e : Nat) (v : Int) : State :=
  match groupOfObj o i with
  | some g => if inState o then s else s.tellConfig g (.object (objKey o i e / 256) (objKey o i e % 256) v)
  | none => s

/-! ### Output states and the output budget (R34 to R37, R94) -/

/-- The code of an output state (Table OUT_STATE). -/
def OutState.code : OutState → Nat
  | .off => 0 | .armed => 1 | .force => 2 | .compl => 3 | .mute => 4 | .safe => 5 | .retired => 6

/-- The state is connected to the load: FORCE, COMPL or MUTE. -/
def OutState.live : OutState → Bool
  | .force | .compl | .mute => true
  | _ => false

/-- The law is evaluated: FORCE or COMPL. -/
def OutState.loop : OutState → Bool
  | .force | .compl => true
  | _ => false

/-- The state is charged (R34). -/
def OutState.charged : OutState → Bool
  | .armed | .force | .compl | .mute => true
  | _ => false

/-- The channel counts as a booster channel on its booster range (R86). -/
def State.boosted (s : State) (c : Nat) : Bool := s.rdT .BOOST_DECL c && s.rd .I_RANGE c == s.rd .BOOST_RANGE c

/-- The charge of a channel in nW, were it charged (R34). -/
def State.fullCharge (s : State) (c : Nat) : Nat := if s.boosted c then 5000000 else s.rdN .DECL_I c * 15

/-- The charge of a channel in nW (R34). -/
def State.charge (s : State) (c : Nat) : Nat := if (s.ch c).out.charged then s.fullCharge c else 0

/-- What a channel commits of the budget: its charge, or what an admitted request will raise it to at its strobe (R35, R37;
DESIGN CHOICE, log 69). -/
def State.commits (s : State) (c : Nat) : Nat := if s.charge c < (s.ch c).pledge then (s.ch c).pledge else s.charge c

/-- The sum of all charges in nW (R34), those of admitted requests on their way included. A channel that the table does not list
is OFF and charged nothing. -/
def State.charges (s : State) : Nat := (s.chan.map fun p => s.commits p.1).sum

/-- The cap in nW (R35). -/
def budgetCap : Nat := 6000000000

/-- The governor admits a request that leaves `after` (R35): the sum is within the cap, or the request does not
raise it, and BUDGET_HOT refuses raising requests (R465). -/
def State.admits (s after : State) : Bool :=
  decide (after.charges ≤ s.charges) || (decide (after.charges ≤ budgetCap) && !s.rdT .BUDGET_HOT)

/-- A request refused by the governor is counted (R38). -/
def State.refuseBudget (s : State) : State := s.inc .BUDGET_REFUSALS

/-- A transition of the output state with its cause; STATE_CHANGES counts it (R95, R106). -/
def State.setOut (s : State) (c : Nat) (st : OutState) (transit : Bool) (cause : Nat) : State :=
  ((s.modCh c fun h => { h with out := st, transit := transit }).wr .OUT_CAUSE c 0 cause).inc .STATE_CHANGES c

/-! ### Status codes (R60) -/

/-- Status codes (Table "Status codes", R60). -/
def Status.num : Status → Nat
  | .OK => 0x0000 | .NO_OBJECT => 0x0101 | .NO_SUBINDEX => 0x0102 | .READ_ONLY => 0x0103 | .WRITE_ONLY => 0x0104
  | .SECURE_ONLY => 0x0105 | .NOT_OWNER => 0x0106 | .RWS_RUNNING => 0x0107 | .BLOCK_ONLY => 0x0108
  | .TYPE_MISMATCH => 0x0201 | .OUT_OF_RANGE => 0x0202 | .BAD_VALUE => 0x0203 | .RESERVED_NONZERO => 0x0204
  | .BUSY => 0x0301 | .SEQ_OLD => 0x0302 | .AUTH_FAIL => 0x0303 | .SESSION_FULL => 0x0304 | .BLOCK_BUSY => 0x0305
  | .BLOCK_OFFSET => 0x0401 | .BLOCK_SEGMENT => 0x0402 | .BLOCK_CHECK => 0x0403 | .BLOCK_ABORTED => 0x0404
  | .IMAGE_INVALID => 0x0405 | .IMAGE_VERSION => 0x0406 | .NVM_FAULT => 0x0407 | .OVERLAY_EMPTY => 0x0408
  | .SAFE_STATE => 0x0501 | .OUTPUT_BUDGET => 0x0502 | .STATE_CONFLICT => 0x0503 | .DEADLINE => 0x0504
  | .FENCED => 0x0505 | .PAIR_STANDBY => 0x0506 | .ENDPOINT_CONFLICT => 0x0601 | .ENDPOINT_RETIRED => 0x0602
  | .RANGE_REFUSED => 0x0603 | .BOOSTER_UNDECLARED => 0x0604 | .CAL_EXT_ACTIVE => 0x0605
  | .CAL_STD_RANGE => 0x0606 | .CAL_BUSY => 0x0607 | .MONITOR_DROPPED => 0x0608

/-- The status is a violation (Table "Status codes", R60). -/
def Status.violation : Status → Bool
  | .NO_OBJECT | .NO_SUBINDEX | .READ_ONLY | .WRITE_ONLY | .SECURE_ONLY | .NOT_OWNER | .RWS_RUNNING | .BLOCK_ONLY
  | .TYPE_MISMATCH | .OUT_OF_RANGE | .BAD_VALUE | .RESERVED_NONZERO | .AUTH_FAIL | .BLOCK_OFFSET => true
  | _ => false

/-- A violation enters the log ring, VIOL_TOTAL and the session's count (R61, R77). -/
def State.violate (s : State) (sess op idx sub : Nat) (st : Status) : State :=
  let s := s.inc .VIOL_TOTAL
  let s := if sess = 0 then s else s.inc .SESSION_VIOLATIONS sess
  let k := s.rdN .VIOL_NEWEST % 64
  let t := s.stampNow
  let n := (t / 4294967296 * 4294967296 + t % 4294967296) * 2 ^ 48 + sess * 2 ^ 44 + op * 2 ^ 40 + idx * 2 ^ 24
    + sub * 2 ^ 16 + st.num
  (s.wrV .VIOL_ENTRY 0 k (.bytes (beBytes 16 n))).wr .VIOL_NEWEST 0 0 (k + 1)

end Sys2Proof.Machine
end

