-- ==== Sys2Proof/Machine/Law.lean ====
section
/-! DEFINITION. The control law of a channel (R108 to R117, R125 to R128): exact integer arithmetic. A datum d stands
for d / 2^23, a coefficient code c for c / 2^17, an accumulator a for a / 2^40. -/
namespace Sys2Proof.Machine
open Sys2Proof

/-- Saturation to the accumulator range (R110, R111). -/
def accSat (x : Int) : Int := clampI (-(2 ^ 47)) (2 ^ 47 - 1) x
/-- Saturation to the integrator clamp (R110). -/
def integSat (x : Int) : Int := clampI (-(2 ^ 41)) (2 ^ 41 - 1) x
/-- sat24 (R112). -/
def sat24 (x : Int) : Int := clampI (-(2 ^ 23)) (2 ^ 23 - 1) x
/-- round24 (R112). -/
def round24 (x : Int) : Int := sat24 (roundEven x (2 ^ 17))
/-- The DAC code of an accumulator ahead of saturation. -/
def round20raw (x : Int) : Int := roundEven x (2 ^ 21)
/-- round20 (R112). -/
def round20 (x : Int) : Int := clampI (-(2 ^ 19)) (2 ^ 19 - 1) (round20raw x)

/-- A coefficient: 18-bit code and 4-bit shift (R110). -/
structure Coef where
  c : Int
  s : Nat

/-- Product of a datum and a coefficient, saturated (R111). -/
def Coef.mul (k : Coef) (d : Int) : Int := accSat (k.c * d * 2 ^ k.s)
/-- Value of a coefficient in units of 2^-17. -/
def Coef.val (k : Coef) : Int := k.c * 2 ^ k.s
/-- Saturating sum (R111). -/
def qadd (a b : Int) : Int := accSat (a + b)

/-- A coefficient set (R108). -/
structure KSet where
  kp : Coef
  ki : Coef
  kd : Coef
  kb : Coef

/-- The parameters of one evaluation (R113, R119). `rp` and `lim` are the effective setpoint and limit (R121). -/
structure LawPar where
  fi : Bool
  kP : KSet
  kL : KSet
  ff : Coef
  notch : Option (List Coef)
  rp : Int
  lim : Int
  noInc : Bool

/-- The regulated and the limited sample of the roles (Table "Controller roles"). -/
def LawPar.roles (p : LawPar) (v i : Int) : Int × Int := if p.fi then (i, v) else (v, i)

/-- The errors of a tick (R113). -/
def LawPar.errs (p : LawPar) (v i : Int) : Int × Int × Int :=
  let (yp, yl) := p.roles v i
  (sat24 (p.rp - yp), sat24 (p.lim - yl), sat24 (-p.lim - yl))

/-- One step of the biquad: its output and the law with its state moved on (R116). -/
def biquad (b : List Coef) (x : Int) (l : Law) : Int × Law :=
  match b with
  | [b0, b1, b2, a1, a2] =>
    let a := qadd (qadd (qadd (qadd (b0.mul x) (b1.mul l.x1)) (b2.mul l.x2)) (-(a1.mul l.y1))) (-(a2.mul l.y2))
    let y := round24 a
    (y, { l with x2 := l.x1, x1 := x, y2 := l.y1, y1 := y })
  | _ => (x, l)

/-- Adjustment of the integrators for a changed proportional value (R126). -/
def kpAdjust (p : LawPar) (e : Int × Int × Int) (l : Law) : Law :=
  let dP := p.kP.kp.val - l.kpP
  let dL := p.kL.kp.val - l.kpL
  { l with ip := integSat (l.ip - dP * e.1), ih := integSat (l.ih - dL * e.2.1), il := integSat (l.il - dL * e.2.2)
           kpP := p.kP.kp.val, kpL := p.kL.kp.val }

/-- What an evaluation gives: the law moved on, the staged code, saturation, and the selection coded 0 P, 1 LH, 2 LL. -/
structure LawOut where
  law : Law
  code : Int
  sat : Bool
  sel : Nat

/-- The law of one tick (R113 to R117). -/
def lawStep (p : LawPar) (v i : Int) (l : Law) : LawOut :=
  let (yp, yl) := p.roles v i
  let (ep, eh, el) := p.errs v i
  let dp := sat24 (l.ypPrev - yp)
  let dl := sat24 (l.ylPrev - yl)
  let up := qadd (qadd (p.kP.kp.mul ep) l.ip) (p.kP.kd.mul dp)
  let uh := qadd (qadd (p.kL.kp.mul eh) l.ih) (p.kL.kd.mul dl)
  let ul := qadd (qadd (p.kL.kp.mul el) l.il) (p.kL.kd.mul dl)
  let m := if ul > up then ul else up
  let (sel, usel) := if uh < m then (1, uh) else if ul > up then (2, ul) else (0, up)
  let x := round24 usel
  let (w, l1) := match p.notch with
    | some b => biquad b x l
    | none => (x, l)
  let t := qadd (w * 2 ^ 17) (p.ff.mul p.rp)
  let c := round20 t
  let s := c * 2 ^ 21 - t
  let upd (ig : Int) (k : KSet) (e u : Int) : Int :=
    let aw := round24 (qadd (qadd (x * 2 ^ 17) s) (-u))
    let inc := if p.noInc then 0 else k.ki.mul e
    integSat (qadd (qadd ig inc) (k.kb.mul aw))
  { law := { l1 with ip := upd l.ip p.kP ep up, ih := upd l.ih p.kL eh uh, il := upd l.il p.kL el ul
                     ypPrev := yp, ylPrev := yl, lastX := x, t := t, ep := ep, eh := eh, el := el
                     kpP := p.kP.kp.val, kpL := p.kL.kp.val, fi := p.fi }
    code := c
    sat := decide (c ≠ round20raw t)
    sel := sel }

/-- The bumpless load on accumulator value `a` (R125): the next evaluated tick continues from it. -/
def bumplessQ (p : LawPar) (v i : Int) (a : Int) (l : Law) : Law :=
  let (yp, yl) := p.roles v i
  let (ep, eh, el) := p.errs v i
  let xt := round24 (qadd a (-(p.ff.mul p.rp)))
  let set (k : KSet) (e : Int) : Int := integSat (qadd (xt * 2 ^ 17) (-(k.kp.mul e)))
  { l with x1 := xt, x2 := xt, y1 := xt, y2 := xt, ip := set p.kP ep, ih := set p.kL eh, il := set p.kL el
           ypPrev := yp, ylPrev := yl, lastX := xt, ep := ep, eh := eh, el := el
           kpP := p.kP.kp.val, kpL := p.kL.kp.val, fi := p.fi }

/-- The bumpless load that continues from DAC code `c` (R125). -/
def bumpless (p : LawPar) (v i c : Int) (l : Law) : Law := bumplessQ p v i (c * 2 ^ 21) l

/-- The notch at rest on the last x (R126: NOTCH_EN set, or notch coefficients changed). -/
def notchRest (l : Law) : Law := { l with x1 := l.lastX, x2 := l.lastX, y1 := l.lastX, y2 := l.lastX }

/-- Table "Notch acceptance", exactly, on codes b0, b1, b2, a1, a2 with their shifts (R116). -/
def notchOk (b : List Coef) : Bool :=
  match b with
  | [b0, b1, b2, a1, a2] =>
    let one : Int := 2 ^ 17
    let den := one + a1.val + a2.val
    decide (-one < a2.val ∧ a2.val < one) &&
    decide (-(one + a2.val) < a1.val ∧ a1.val < one + a2.val) &&
    decide (64 * ((b0.val + b1.val + b2.val) - den) ≤ den ∧ -den ≤ 64 * ((b0.val + b1.val + b2.val) - den))
  | _ => false

/-! ### Ranges (R81) and scalings (R8, R79, R109) -/

/-- Code span of a voltage range in µV: twice its nominal full scale (Table "Range codes", R8). -/
def spanV (r : Nat) : Int := if r = 0 then 1000000 else if r = 1 then 5000000 else 25000000
/-- Driver span VSPAN of a voltage range in µV (Table "Driver span", R79). -/
def vspan (r : Nat) : Int := if r = 0 then 1200000 else if r = 1 then 3600000 else 15000000
/-- Nominal full scale of a current range in nA (Table "Range codes", R81). -/
def fsI (r : Nat) : Nat := 10 ^ (r + 1)
/-- The range is internal (R81). -/
def internalI (r : Nat) : Bool := r < 6
/-- +110 % of nominal full scale in FRAC24 (R8). -/
def over110 : Int := 0x466666

/-- decl (R121). -/
def declCode (nA ir : Nat) : Int :=
  let x : Int := (nA * 2 ^ 22 / fsI ir : Nat)
  if over110 < x then over110 else x

/-- The DAC preset of ARMED from the samples of the tick (R99): the sense voltage, with the shunt drop on an internal
range, whose full scale is 0.5 V (R4). -/
def presetCode (v i : Int) (vr ir : Nat) : Int :=
  let n := v * spanV vr + (if internalI ir then i * 1000000 else 0)
  clampI (-(2 ^ 19)) (2 ^ 19 - 1) (roundEven (n * 2 ^ 19) (2 ^ 23 * vspan vr))

/-- The driver target of a DAC code in µV, rounded to the nearest, within the clamp (R79, R80). -/
def targetUv (dac : Int) (vr : Nat) : Int := clampI (-14300000) 14300000 (roundEven (dac * vspan vr) (2 ^ 19))

/-- A code on one range as a code on another, by the ratio of full scales, rounded to the nearest, ties to even, and
held within ±110 % (R140). -/
def rescale (x num den : Int) : Int := clampI (-over110) over110 (roundEven (x * num) den)

/-! ### Parameters in force of a channel (R119, R121) -/

/-- Coefficients of the V set (R135). -/
def State.kV (s : State) (c : Nat) : KSet :=
  let h := s.rdN .V_SHIFTS c
  ⟨⟨s.rd .VKP c, bits h 12 4⟩, ⟨s.rd .VKI c, bits h 8 4⟩, ⟨s.rd .VKD c, bits h 4 4⟩, ⟨s.rd .VKB c, bits h 0 4⟩⟩
/-- Coefficients of the I set (R135). -/
def State.kI (s : State) (c : Nat) : KSet :=
  let h := s.rdN .I_SHIFTS c
  ⟨⟨s.rd .IKP c, bits h 12 4⟩, ⟨s.rd .IKI c, bits h 8 4⟩, ⟨s.rd .IKD c, bits h 4 4⟩, ⟨s.rd .IKB c, bits h 0 4⟩⟩
/-- The notch set in force (R116, R135). -/
def State.notch (s : State) (c : Nat) : List Coef :=
  let h := s.rdN .NOTCH_SHIFTS c
  [⟨s.rd .NB0 c, bits h 16 4⟩, ⟨s.rd .NB1 c, bits h 12 4⟩, ⟨s.rd .NB2 c, bits h 8 4⟩, ⟨s.rd .NA1 c, bits h 4 4⟩,
   ⟨s.rd .NA2 c, bits h 0 4⟩]
/-- decl of the channel, where it takes part (R121). -/
def State.decl (s : State) (c : Nat) : Option Int :=
  let ir := s.rdN .I_RANGE c
  if internalI ir then some (declCode (s.rdN .DECL_I c) ir) else none

/-- The current limit of the OFF ramp of an FI channel ahead of decl: the larger of the magnitude of the clamped setpoint and
10 % of nominal full scale (R128; 10 % as floor(0.05 × 2^23), DEDUCED, log 9). -/
def State.rampFree (s : State) (c : Nat) : Int :=
  let sp := s.rd .SETPOINT c
  let sp := match s.decl c with | some d => clampI (-d) d sp | none => sp
  if (sp.natAbs : Int) < 419430 then 419430 else sp.natAbs

/-- The current limit of the OFF ramp of an FI channel, bounded by decl (R128). -/
def State.rampLimit (s : State) (c : Nat) : Int :=
  let m := s.rampFree c
  match s.decl c with
  | some d => if d < m then d else m
  | none => m

/-- The parameters of the next evaluation of a channel's law, and whether decl set the limit or clamped the setpoint
(R113, R121, R128). While an OFF ramp runs, the law runs in FV on the ramp reference; for an FI channel decl sets its limit where
it is the smaller one. -/
def State.lawPar (s : State) (c : Nat) : LawPar × Bool :=
  let h := s.ch c
  let fiObj := s.rd .FORCE_MODE c == 1
  let fi := fiObj && h.run.ramp.isNone
  let sp := match h.run.ramp with
    | some r => roundEven r 25000000
    | none => s.rd .SETPOINT c
  let d := s.decl c
  let lim0 := if fiObj && h.run.ramp.isSome then s.rampLimit c else s.rd .COMPL_LIM c * 64
  let rp := match fi, d with
    | true, some d => clampI (-d) d sp
    | _, _ => sp
  let lim := match fi, d with
    | false, some d => if d < lim0 then d else lim0
    | _, _ => lim0
  let ff := s.rdN .FF_SHIFTS c
  ({ fi := fi
     kP := if fi then s.kI c else s.kV c
     kL := if fi then s.kV c else s.kI c
     ff := if fi then ⟨s.rd .IKFF c, bits ff 0 4⟩ else ⟨s.rd .VKFF c, bits ff 4 4⟩
     notch := if s.rdT .NOTCH_EN c then some (s.notch c) else none
     rp := rp, lim := lim, noInc := h.noInc || h.act },
   rp != sp || lim != lim0 || (fiObj && h.run.ramp.isSome && d == some lim && lim != s.rampFree c))

end Sys2Proof.Machine
end

