-- ==== Sys2Proof/Machine/Coeff.lean ====
section
/-! DEFINITION. Calibration elements (R309 to R312): layout, nominal values, and the elements in force. -/
namespace Sys2Proof.Machine
open Sys2Proof

/-- Number of element r of slice k (R308): 12 elements a slice. -/
def elemNo (k r : Nat) : Nat := k * 12 + r

/-- The factory copy of element n (R312, "factory"; log 7): its fields are the part's own. SOURCE reads 1, COMMIT 0 and
VALID 1 (Table "Calibration element"). -/
def factoryEl (n : Nat) : CalElem :=
  let f (k : Nat) : Nat := (Config.factoryCal n k).toNat
  { offset := sext 24 (f 0), gain := (f 1 % 2 ^ 24 : Nat), aux := f 2, tcOff := sext 16 (f 3), tcGain := sext 16 (f 4)
    theta := f 5 % 2 ^ 16, tCap := sext 16 (f 6), pCap := f 7, capTime := f 8 * 2 ^ 16 + f 9 % 2 ^ 16
    source := 1, commit := 0, valid := true }

/-- The element of a copy; an element the copy does not list is the factory one (R312). -/
def calOf (m : SMap (Option CalElem)) (n : Nat) : CalElem := (m.get (fun _ => none) n).getD (factoryEl n)

/-- Nominal values, which an element of range r without VALID gives: RSH 1, or trims 0 (R312). -/
def nominalEl (r : Nat) (e : CalElem) : CalElem :=
  if e.valid then e
  else { e with offset := 0, gain := 2 ^ 22, aux := if r < 3 then 0 else 2 ^ 30, tcOff := 0, tcGain := 0, theta := 0 }

/-- Element r of slice k in force (R311, R312). -/
def State.calEl (s : State) (k r : Nat) : CalElem := nominalEl r (calOf s.cal (elemNo k r))

/-- The bytes of an element (Table "Calibration element", R311). -/
def calBytes (e : CalElem) : List Byte :=
  beBytes 3 (code 24 e.offset) ++ beBytes 3 (code 24 e.gain) ++ beBytes 4 e.aux ++ beBytes 2 (code 16 e.tcOff) ++
  beBytes 2 (code 16 e.tcGain) ++ beBytes 2 e.theta ++ beBytes 2 (code 16 e.tCap) ++ beBytes 4 (e.pCap % 2 ^ 32) ++
  beBytes 6 e.capTime ++ beBytes 1 e.source ++ beBytes 2 e.commit ++ beBytes 1 (if e.valid then 128 else 0)

/-! ### Effective coefficients (R314) -/

/-- dt of an element in K as a fraction, from the slice's last thermal computation (R314). -/
def dtOf (e : CalElem) (t : Option (Int × Nat × Int × Nat)) : Int × Int :=
  match t with
  | none => (0, 1)
  | some (ts, tn, pn, pd) =>
    if e.valid then
      let t1 : Int := (ts - e.tCap * tn) * (16000000 * pd)
      let p1 : Int := e.theta * (pn - e.pCap * pd) * (128 * tn)
      (t1 + p1, 128 * tn * (16000000 * pd))
    else (0, 1)

/-- dt in units of 1/128 K, rounded half to even (R314, R315). -/
def dt128 (e : CalElem) (t : Option (Int × Nat × Int × Nat)) : Int :=
  let (n, d) := dtOf e t
  if d = 0 then 0 else roundEven (128 * n) d

/-- The magnitude of dt reaches `t`/128 K, exactly (R315). -/
def dtReaches (e : CalElem) (th : Option (Int × Nat × Int × Nat)) (t : Int) : Bool :=
  let (n, d) := dtOf e th
  decide (t * d.natAbs ≤ 128 * (n.natAbs : Int))

/-- Effective offset, gain and shunt ratio of an element (R314): each rounded half to even to its field. -/
def effective (e : CalElem) (t : Option (Int × Nat × Int × Nat)) : Int × Int × Int :=
  let (n, d) := dtOf e t
  if d = 0 then (e.offset, e.gain, e.aux) else
    (roundEven (e.offset * (32 * d) + e.tcOff * n) (32 * d), roundEven (e.gain * (2 ^ 28 * d + e.tcGain * n)) (2 ^ 28 * d),
     roundEven (e.aux * (2 ^ 28 * d + e.tcGain * n)) (2 ^ 28 * d))

/-- Effective coefficients of range r of slice k, r by the table of element ranges (R308). -/
def State.effAt (s : State) (k r : Nat) : Int × Int × Int := effective (s.calEl k r) (s.sl k).therm

/-- The same of the slice that carries channel c. -/
def State.effEl (s : State) (c r : Nat) : Int × Int × Int := s.effAt (s.sliceOf c) r

/-- The calibrated resistance of the shunt of current range r in slice k, in mΩ / 2^30 (R81, R145, R314). -/
def State.shuntAt (s : State) (k r : Nat) : Nat := 5 * 10 ^ (10 - r) * (s.effAt k (r + 3)).2.2.toNat

/-- The same in the slice that carries channel c. -/
def State.shunt (s : State) (c r : Nat) : Nat := s.shuntAt (s.sliceOf c) r

/-- A voltage sample through its calibration (R167). -/
def calV (k : Int × Int × Int) (x : Int) : Int := sat24 (roundEven (k.2.1 * (x - k.1)) (2 ^ 22))

/-- A current sample through its calibration; `num / den` is the resistance that the shunt voltage is divided by, over
the nominal shunt of the range in force (R146, R167). -/
def calI (k : Int × Int × Int) (num den : Nat) (x : Int) : Int :=
  if num = 0 then 0 else sat24 (roundEven (k.2.1 * (x - k.1) * den) (2 ^ 22 * num))

end Sys2Proof.Machine
end

