-- ==== Sys2Proof/Machine/Wire.lean ====
section
/-! DEFINITION. Frames as they leave a port (R359, R361 to R363, R365, R376): Ethernet from the destination address on, VLAN tags,
IPv4, UDP, DHCP and PTP. What their standards fix and the spec does not print is PRESUMED (log 94). -/
namespace Sys2Proof.Machine
open Sys2Proof

/-- The broadcast MAC address. -/
def macAll : Nat := 0xFFFFFFFFFFFF

/-- The sum of 16-bit words, most significant byte first; a last odd byte is the upper half of a word. -/
def sum16 : List Byte → Nat
  | a :: b :: l => 256 * a.toNat + b.toNat + sum16 l
  | [a] => 256 * a.toNat
  | [] => 0

/-- The Internet checksum (RFC 1071): the one's complement of the one's complement sum. -/
def checksum (l : List Byte) : Nat :=
  let fold (n : Nat) := n % 65536 + n / 65536
  65535 - fold (fold (sum16 l))

/-- A frame of a port, from its destination address to its payload, with the port's tag (R359). -/
def State.ether (s : State) (p dst type : Nat) (body : List Byte) : List Byte :=
  let vid := s.rdN .NET_VLAN p
  beBytes 6 dst ++ beBytes 6 (Config.netMac p).toNat ++
    (if vid = 0 then [] else beBytes 2 0x8100 ++ beBytes 2 (s.rdN .NET_PCP p * 8192 + vid)) ++ beBytes 2 type ++ body

/-- An IPv4 packet: DF set, TTL 64 (R363). -/
def ipv4 (proto src dst : Nat) (body : List Byte) : List Byte :=
  let h (c : Nat) := [0x45#8, 0#8] ++ beBytes 2 (20 + body.length) ++ beBytes 2 0 ++ beBytes 2 0x4000 ++ beBytes 1 64 ++
    beBytes 1 proto ++ beBytes 2 c ++ beBytes 4 src ++ beBytes 4 dst
  h (checksum (h 0)) ++ body

/-- A UDP datagram in its IPv4 packet, with its checksum (R363). -/
def udpPacket (src dst sport dport : Nat) (body : List Byte) : List Byte :=
  let n := 8 + body.length
  let u (c : Nat) := beBytes 2 sport ++ beBytes 2 dport ++ beBytes 2 n ++ beBytes 2 c ++ body
  let c := checksum (beBytes 4 src ++ beBytes 4 dst ++ beBytes 2 17 ++ beBytes 2 n ++ u 0)
  ipv4 17 src dst (u (if c = 0 then 0xFFFF else c))

/-- A UDP datagram in a frame of a port, from its address (R363). -/
def State.udpFrame (s : State) (p mac dst sport dport : Nat) (body : List Byte) : List Byte :=
  s.ether p mac 0x0800 (udpPacket (s.rdN .NET_IP p) dst sport dport body)

/-- An ARP packet (RFC 826): operation, sender, target. -/
def arpBytes (op smac sip tmac tip : Nat) : List Byte :=
  beBytes 2 1 ++ beBytes 2 0x0800 ++ [6#8, 4#8] ++ beBytes 2 op ++ beBytes 6 smac ++ beBytes 4 sip ++ beBytes 6 tmac ++ beBytes 4 tip

/-- A message of the DHCP client (R361, RFC 2131): its type, the address in use, the one asked for with its server (none in a renewal), the
client identifier, and the options 1, 3, 51, 58 and 59 asked for. -/
def dhcpBytes (type mac xid own ask server : Nat) : List Byte :=
  [1#8, 1#8, 6#8, 0#8] ++ beBytes 4 xid ++ beBytes 4 0 ++ beBytes 4 own ++ beBytes 12 0 ++ beBytes 6 mac ++ beBytes 202 0 ++
    beBytes 4 0x63825363 ++ [53#8, 1#8] ++ beBytes 1 type ++ [61#8, 7#8, 1#8] ++ beBytes 6 mac ++
    (if ask = 0 then [] else [50#8, 4#8] ++ beBytes 4 ask ++ [54#8, 4#8] ++ beBytes 4 server) ++
    [55#8, 5#8, 1#8, 3#8, 51#8, 58#8, 59#8, 255#8]

/-- Message types of PTP that the model sends (R365, IEEE 1588-2019). -/
def ptpDelayReq : Nat := 1
def ptpPdelayReq : Nat := 2
def ptpPdelayResp : Nat := 3
def ptpPdelayRespFollowUp : Nat := 10

/-- The clock identity of a port: its MAC address with FFFE in its middle. -/
def clockId (mac : Nat) : Nat := mac / 2 ^ 24 * 2 ^ 40 + 0xFFFE * 2 ^ 24 + mac % 2 ^ 24

/-- A PTP message: its header with version 2, the domain, correctionField and the sequence, and its body. -/
def ptpBytes (type domain mac seq : Nat) (corr : Int) (body : List Byte) : List Byte :=
  beBytes 1 type ++ [2#8] ++ beBytes 2 (34 + body.length) ++ beBytes 1 domain ++ [0#8] ++
    beBytes 2 (if type = ptpPdelayResp then 0x0200 else 0) ++ beBytes 8 (code 64 corr) ++ beBytes 4 0 ++ beBytes 8 (clockId mac) ++ beBytes 2 1 ++ beBytes 2 seq ++
    beBytes 1 (if type = ptpDelayReq then 1 else 5) ++ [0x7F#8] ++ body

/-- A PTP message in a frame of a port, to its group (Table "PTP options"). -/
def State.ptpFrame (s : State) (p type seq : Nat) (body : List Byte) (corr : Int := 0) : List Byte :=
  let peer := decide (type ≠ ptpDelayReq)
  let msg := ptpBytes type (s.rdN .PTP_DOMAIN) (Config.netMac p).toNat seq corr body
  if s.rd .PTP_TRANSPORT = 1 then s.ether p (if peer then 0x0180C200000E else 0x011B19000000) 0x88F7 msg
  else
    let port := if type = ptpPdelayRespFollowUp then 320 else 319
    s.udpFrame p (if peer then 0x01005E00006B else 0x01005E000181) (if peer then 0xE000006B else 0xE0000181) port port msg

end Sys2Proof.Machine
end

