-- ==== Sys2Proof/Machine/Kop.lean ====
section
/-! DEFINITION. KOP on the wire (R43, R370, R373, R375): finding an object by its address, the wire form of values,
the bytes of a response, and the answering of requests in issue order (R50 to R54). -/
namespace Sys2Proof.Machine
open Sys2Proof

/-! ### Addresses (R40) -/

/-- The address lies in the object's row: instance and element. -/
def objHit (o : Obj) (idx sub : Nat) : Option (Obj × Nat × Nat) :=
  let d := o.desc
  let i := if d.stride = 0 then 0 else (idx - d.base) / d.stride
  if d.base ≤ idx ∧ d.base + d.stride * i = idx ∧ d.first ≤ i ∧ i < max d.cnt 1 ∧ d.sub ≤ sub ∧ sub < d.sub + d.elems
  then some (o, i, sub - d.sub) else none

/-- The object, instance and element at an address (R40). A diagnostic of a reserved source number does not exist
(R331, R356). -/
def findObj (idx sub : Nat) : Option (Obj × Nat × Nat) :=
  if 0xF000 ≤ idx ∧ srcType (idx - 0xF000) = none then none else Obj.all.findSome? fun o => objHit o idx sub

/-- The objects at an index. -/
def objsAt (idx : Nat) : List Obj :=
  if 0xF000 ≤ idx ∧ srcType (idx - 0xF000) = none then [] else Obj.all.filter fun o => (objHit o idx o.desc.sub).isSome

/-- The highest subindex defined at an index, which subindex 0 gives (R40); none where no object stands there. -/
def topSub (idx : Nat) : Option Nat :=
  match objsAt idx with
  | [] => none
  | l => some ((l.map fun o => o.desc.sub + o.desc.elems - 1).foldl max 0)

/-- The large tables: highest subindex, element size in bytes, elements (Table "Large tables", R62). Waveforms hold
as many elements as WAVE_LEN says; their bound here is the largest. -/
def largeTable (idx : Nat) : Option (Nat × Nat × Nat) :=
  if idx = 0xC000 then some (1, 16, 131072) else if idx = 0xC100 then some (1, 8, 1048576)
  else if idx = 0xC200 then some (1, 8, 1048576) else if idx = 0xC300 then some (64, 3, 65536)
  else if idx = 0xC400 then some (1, 16, 4096) else if idx = 0xC410 then some (1, 16, 4096)
  else if idx = 0xC500 then some (1, 32, 6336) else if idx = 0xC600 then some (1, 64, 3600)
  else if idx = 0xC700 then some (1, 1, 524288) else none

/-! ### Wire forms (R43) -/

/-- Type codes (Table "Data types"). -/
def tyCode : Ty → Nat
  | .BOOL => 1 | .U8 => 2 | .U16 => 3 | .U32 => 4 | .U64 => 5 | .I8 => 6 | .I16 => 7 | .I32 => 8 | .I64 => 9
  | .FRAC24 => 10 | .FRAC18 => 11 | .F32 => 12 | .TIME80 => 13 | .STR => 14 | .BLOB => 15

/-- Wire length in bytes, 0 for variable (Table "Data types"). -/
def tyLen (t : Ty) : Nat := (typeInfo.getD (tyCode t) ("", 0)).2

/-- A value on the wire (R43). -/
def wireOf (t : Ty) (v : Val) : List Byte :=
  match t with
  | .STR => beBytes 1 v.blob.length ++ v.blob
  | .BLOB => beBytes 2 v.blob.length ++ v.blob
  | _ => beBytes (tyLen t) (code (8 * tyLen t) v.int)

/-! ### Responses (R370, R373, R375) -/

/-- Index and subindex of a target. -/
def Target.addr : Target → Nat × Nat
  | .raw idx sub => (idx, sub)
  | .obj o i e => (objKey o i e / 256, objKey o i e % 256)

/-- The operation, whatever its reserved fields carry. -/
def ReqOp.bare : ReqOp → ReqOp
  | .reserved op => op.bare
  | op => op

/-- The operation of a message with a non-zero reserved field: what belongs to a write, or to a transfer that may write, is marked (R7;
DEDUCED, log 29). -/
def ReqOp.marked : ReqOp → ReqOp
  | .write t v => .reserved (.write t v)
  | .blockOpen idx sub w off n => if w then .reserved (.blockOpen idx sub w off n) else .blockOpen idx sub w off n
  | .blockSeg off n data => .reserved (.blockSeg off n data)
  | .blockClose crc => .reserved (.blockClose crc)
  | .blockAbort => .reserved .blockAbort
  | op => op

/-- The TYPE of a request's message (Table "KOP messages"). -/
def ReqOp.type : ReqOp → Nat
  | .reserved op => op.type
  | .read _ => 0x10 | .write .. => 0x11 | .nop => 0x04 | .close => 0x03 | .blockOpen .. => 0x20 | .blockSeg .. => 0x21
  | .blockClose _ => 0x22 | .blockAbort => 0x22

/-- Body of a response (Table "KOP messages", R373). -/
def respBody (r : Resp) : List Byte :=
  match r.req.op.bare with
  | .read t =>
    let (idx, sub) := t.addr
    let ty : Option Ty := if sub = 0 ∧ (topSub idx).isSome then some .U8 else (findObj idx sub).map fun x => x.1.desc.ty
    beBytes 2 idx ++ beBytes 1 sub ++ beBytes 1 ((ty.map tyCode).getD 0) ++
      (if r.status = .OK then (match ty with | some y => wireOf y r.body | none => []) else [])
  | .write t _ => beBytes 2 t.addr.1 ++ beBytes 1 t.addr.2 ++ [0#8]
  | .blockOpen .. => if r.body.blob.isEmpty then beBytes 4 0 else r.body.blob
  | .blockSeg .. => if r.body.blob.isEmpty then beBytes 4 0 else r.body.blob
  | .nop | .close | .blockClose _ | .blockAbort | .reserved _ => []

/-- A response datagram: header, body and, in a secure session, the MAC (R370, R375). -/
def datagram (x : Session) (n type seq : Nat) (st : Status) (body : List Byte) : List Byte :=
  let m := x.kind == 2 && 0x03 ≤ type
  let h := [0x4B#8, 0x50#8, 0x01#8] ++ beBytes 1 type ++ beBytes 1 n ++ beBytes 1 (0x80 + 64 * b2n m) ++
    beBytes 2 body.length ++ beBytes 4 seq ++ beBytes 2 st.num ++ beBytes 2 ((n - 1) * 256 + seq % 256)
  h ++ body ++ (if m then hmac x.ks (h ++ body) else [])

/-! ### Answers (R50 to R54) -/

/-- A port can carry frames: its link is up and it is not fenced (R371), and the response of PWR_CMD, the last datagram before deep sleep,
has not left (R459). -/
def State.portUsable (s : State) (n : Nat) : Bool := (s.port n).link && !s.fencedSrc (srcNet n) && s.pwr.entry != 4

/-- A port can carry KOP, streams and PTP over UDP: it also has an address (R361). -/
def State.portUp (s : State) (p : Nat) : Bool := s.portUsable p && s.rd .NET_IP p != 0

/-- The port by which a response to a request of port `p` leaves; none when both are unusable (R371). A port without an address
carries none (R361; DEDUCED, log 95). -/
def State.respPort (s : State) (p : Nat) : Option Nat :=
  if s.portUp p then some p else if s.portUp (1 - p) then some (1 - p) else none

/-- A KOP datagram in a frame of a port, from port 47120 to a session's peer (R362, R370). -/
def State.kopFrame (s : State) (p mac ip udp : Nat) (datagram : List Byte) : List Byte := s.udpFrame p mac ip 47120 udp datagram

/-- A response leaves the block, and its frame is counted (R371, R383). -/
def State.emit (s : State) (n : Nat) (r : Resp) : State :=
  match s.respPort r.req.port with
  | some p =>
    let x := s.se n
    (s.send (.resp p n r (s.kopFrame p r.req.eth x.ip x.udp (datagram x n r.req.op.type r.req.seq r.status (respBody r))))).inc
      .NET_TX_FRAMES p
  | none => s

/-- Bytes of an element of a table. -/
def elemSize (idx : Nat) : Nat := ((largeTable idx).map fun t => t.2.1).getD 1

/-- Bytes of elements in a segment (R63, SEG_MAX of R373). -/
def State.segBytes (s : State) : Nat :=
  if [0, 1].all fun p => s.rd .NET_MODE p == 0 || s.rdT .NET_JUMBO p then 8192 else 1408
/-- Elements in a segment of a table (SEG_MAX of R373). -/
def State.segMax (s : State) (idx : Nat) : Nat := s.segBytes / elemSize idx

/-- A refused segment of a block read carries its whole body, the elements it cannot give set to 0, at most SEG_MAX of them (R373;
DEDUCED, log 28). -/
def State.whole (s : State) (n : Nat) (r : Resp) : Resp :=
  match r.req.op.bare, (s.se n).block with
  | .blockSeg _ cnt _, some b =>
    if b.dirWrite || r.status == .OK then r
    else
      let h := if r.body.blob.isEmpty then beBytes 4 0 else r.body.blob
      { r with body := .bytes (h ++ List.replicate (min cnt (s.segMax b.idx) * elemSize b.idx) 0#8) }
  | _, _ => r

/-- A response leaves and is kept (R53). -/
def State.respond (s : State) (n : Nat) (r : Resp) : State :=
  let r := s.whole n r
  (s.modSe n fun x => { x with kept := (r :: x.kept).take 256 }).emit n r

/-- The requests that stand in issue order from REQ_SEQ `m` on without a gap, at most `k` (R50, R54; 0 follows 0xFFFFFFFF, R443). -/
def inOrder (l : List Req) : Nat → Nat → List Req
  | 0, _ => []
  | k + 1, m => match l.find? fun q => q.seq = m with
    | some q => q :: inOrder l k ((m + 1) % 4294967296)
    | none => []

/-- What a session leaves in issue order without a gap, up to a CLOSE (R54). -/
def Session.left (x : Session) : List ReqOp :=
  match x.next with
  | some m => ((inOrder x.waiting x.waiting.length m).map (·.op)).takeWhile fun op => op ≠ .close
  | none => []

/-- Points of a stored waveform (R218). -/
def wavePoints (s : State) (n : Nat) : List Int := s.cfg.waves.get (fun _ => []) n

/-- CRC-32 of a stored waveform (Table "Waveform objects", R219). -/
def waveCrc (l : List Int) : Nat := crc32 (l.flatMap fun x => beBytes 3 (code 24 x))

/-- A transfer has ended, however it ends: a waveform's CRC follows a write (R64, R219). -/
def State.transferEnd (s : State) (b : Option Block) : State :=
  match b with
  | some b => if b.dirWrite ∧ b.idx = 0xC300 then s.wr .WAVE_CRC (b.sub - 1) 0 (waveCrc (wavePoints s (b.sub - 1))) else s
  | none => s

/-- The session closes: its number is free and its responses are gone; requests in issue order without a gap have yet to execute, on
the transfer that is open, and the others are gone too (R54, R64). -/
def State.dropSession (s : State) (n : Nat) : State :=
  let x := s.se n
  let s := if x.left.isEmpty then s.transferEnd x.block
    else { s with orphans := s.orphans ++ [⟨n, x.kind == 2, x.gated, x.left, x.block⟩] }
  s.modSe n fun x => { inc := x.inc }

/-- Answered requests at the head of the issue order send their responses (R50). -/
def flushGo (n : Nat) : List (Req × Option (Status × Val)) → State → State
  | (q, some (st, v)) :: rest, s => flushGo n rest (s.respond n ⟨q, st, v⟩)
  | rest, s => s.modSe n fun x => { x with outst := rest }

/-- Responses leave in issue order; a CLOSE closes its session as its response leaves (R50, R54). -/
def State.flush (s : State) (n : Nat) : State :=
  let s := flushGo n (s.se n).outst s
  if (s.se n).closing.isSome && (s.se n).outst.isEmpty then s.dropSession n else s

/-- The outstanding list with the response of request `q` known. -/
def setAnswer (q : Nat) (r : Status × Val) :
    List (Req × Option (Status × Val)) → List (Req × Option (Status × Val))
  | [] => []
  | (q', x) :: l => if q'.seq = q ∧ x = none then (q', some r) :: l else (q', x) :: setAnswer q r l

/-- OP, INDEX and SUB of a request in the violation log (Table "Violation log entry", R61). -/
def ReqOp.viol : ReqOp → Option (Nat × Nat × Nat)
  | .reserved op => op.viol
  | .read t => some (0, t.addr.1, t.addr.2)
  | .write t _ => some (1, t.addr.1, t.addr.2)
  | .blockOpen idx sub w _ _ => some (if w then 3 else 2, idx, sub)
  | _ => none

/-- A deferred request is answered: its response is known, and leaves in issue order (R46, R50). A request whose
session has closed since is answered to nobody (R54). -/
def State.answerRaw (s : State) (a : Ans) (st : Status) (v : Val := .num 0) : State :=
  match a with
  | none => s
  | some (k, q) =>
    let n := k % 16
    if (s.se n).inc = k / 16 then
      (s.modSe n fun x => { x with outst := setAnswer q (st, v) x.outst }).flush n
    else s

/-- The same, with the violation log's entry for a status that is a violation (R60, R61). -/
def State.answer (s : State) (a : Ans) (st : Status) (v : Val := .num 0) : State :=
  match a with
  | none => s
  | some (k, q) =>
    let n := k % 16
    let r := (s.se n).outst.find? fun p => p.1.seq = q ∧ p.2 = none
    let s := if st.violation ∧ (s.se n).inc = k / 16 then
        match r.bind fun p => p.1.op.viol with
        | some (op, idx, sub) => s.violate n op idx sub st
        | none => s
      else s
    s.answerRaw a st v

/-- Several waiting requests are answered. -/
def State.answers (s : State) (l : List Ans) (st : Status) : State := s.each l fun s a => s.answer a st

/-- The mark under which a request of session `n` waits for its answer. -/
def State.ansOf (s : State) (n q : Nat) : Ans := some (n + 16 * (s.se n).inc, q)

/-- A request answers once its effect is in force: at the strobe of group `g`, or at once where the group has no
strobes, its change then waiting for the first one (R46, R47). -/
def State.pushHost (s : State) (g : Nat) (a : Ans) (w : What) (adm : Option Bool := none) : State :=
  if s.strobes g then s.push g a w adm else (s.push g none w adm).answer a .OK

end Sys2Proof.Machine
end

