-- ==== Sys2Proof/Machine/Events.lean ====
section
/-! DEFINITION. Outcomes of actions and requests: the event log, denied and no-op actions of the router, and the
reply to whoever asked for an effect (R59, R299, R304, R305). -/
namespace Sys2Proof.Machine
open Sys2Proof

/-- Elements of the log rings (R304, R352). -/
def ringSize : Nat := 4096

/-- Bits of an event log element (Table "Event log element", R304). In deep sleep TIME holds calendar seconds. -/
def evElement (a : Asrt) (loss : Bool) : Nat :=
  (a.time / 4294967296 * 4294967296 + a.time % 4294967296) * 2 ^ 48 + a.ev * 2 ^ 40 + a.cause * 2 ^ 24
    + b2n loss * 2 ^ 23 + b2n a.merged * 2 ^ 22 + a.denied * 2 ^ 18 + a.noop * 2 ^ 14 + a.no % 2 ^ 14

/-- An element enters the event log; one that finds the intake full is dropped and counted (R304). -/
def State.evLog (s : State) (a : Asrt) : State :=
  if s.drn.intake ≥ 32 then
    { s.inc .EV_LOG_DROPS with rtr := { s.rtr with loss := true } }
  else
    let k := if s.rd .EV_LOG_TOTAL = 0 ∧ s.rtr.log.isEmpty then 0 else (s.rdN .EV_LOG_NEWEST + 1) % ringSize
    let last := if s.rtr.lastId.get (fun _ => 0) a.ev = a.id + 1 then s.rtr.lastLog.put (fun _ => 0) a.ev (k + 1) else s.rtr.lastLog
    let s := { s with rtr := { s.rtr with log := s.rtr.log.put (fun _ => 0) k (evElement a s.rtr.loss), loss := false, lastLog := last }
                      drn := { s.drn with intake := s.drn.intake + 1 } }
    (s.wr .EV_LOG_NEWEST 0 0 k).inc .EV_LOG_TOTAL

/-- One outcome of an assertion is known; the element is written once every slot has its outcome (R304). -/
def State.asrtStep (s : State) (id slot : Nat) (denied noop : Bool) : State :=
  match s.rtr.opn.find? (·.id = id) with
  | none => s
  | some a =>
    let a := { a with denied := if denied then setBit a.denied slot true else a.denied
                      noop := if noop then setBit a.noop slot true else a.noop
                      left := a.left - 1 }
    if a.left = 0 then
      let s := { s with rtr := { s.rtr with opn := s.rtr.opn.filter (·.id ≠ id) } }
      if a.log then s.evLog a else s
    else { s with rtr := { s.rtr with opn := s.rtr.opn.map fun b => if b.id = id then a else b } }

/-- An action of event channel `n`, slot `k`, fails a check with a status for one target (R59, R299). -/
def State.deny (s : State) (n k : Nat) (st : Status) : State :=
  let s := (s.report srcRouter 0x24 (st.num * 256 + n) k).inc .EV_DENIED n
  if st.violation then s.violate 0 7 (0x3000 + n) (0x12 + k) st else s

/-- The reply to whoever asked for an effect: a host request is answered; an event action that fails is denied, one
that changes nothing is counted (R46, R299). A Reed action that changes nothing is counted by its caller. -/
def State.reply (s : State) (o : Origin) (st : Status) (noop : Bool := false) : State :=
  match o with
  | .host a => s.answer a st
  | .event n k id =>
    let s := if st ≠ .OK then s.deny n k st else if noop then s.inc .EV_NOOPS n else s
    s.asrtStep id k (decide (st ≠ .OK)) noop
  | _ => s

/-- The cause code of a transition by who asked for it (Table "Transition causes", R98). -/
def Origin.cause : Origin → Nat
  | .host _ => 1
  | .event .. => 2
  | .reed => 3
  | .auto | .sweep | .mode => 1

end Sys2Proof.Machine
end

