-- ==== Sys2Proof/Machine/Endpoint.lean ====
section
/-! DEFINITION. Endpoints: the map, the ledger, claims, and the matrix transactions of a channel (R233 to R255). -/
namespace Sys2Proof.Machine
open Sys2Proof

/-- The default endpoint map element k (Table "Endpoint map element", R234). -/
def mapDefault (k : Nat) : Nat := k * 2 ^ 44 + k / 2 ^ 17 * 2 ^ 20 + 2 ^ 15
/-- Element k of the running map (R236). -/
def State.mapEl (s : State) (k : Nat) : Nat := s.mtx.map.get mapDefault k
/-- Select line of a physical endpoint (R234). -/
def State.lineOf (s : State) (p : Nat) : Nat := bits (s.mapEl p) 20 3
/-- Ledger element of a physical endpoint, counts not yet committed included (R249). -/
def State.ledgerEl (s : State) (p : Nat) : Nat := s.mtx.ledger.get (fun _ => 0) p
/-- RELAY of a ledger element. -/
def ledRelay (n : Nat) : Nat := n / 2 ^ 36
/-- BIAS_S of a ledger element. -/
def ledBias (n : Nat) : Nat := bits n 4 32
/-- A ledger element from its fields (Table "Ledger element"). -/
def ledMake (relay bias : Nat) (ret warn manual sat : Bool) : Nat :=
  relay * 2 ^ 36 + bias * 2 ^ 4 + b2n ret * 8 + b2n warn * 4 + b2n manual * 2 + b2n sat
/-- Lines of the write-back cache (R254). -/
def cacheLines : Nat := 16384

/-- The channel that reserves a physical endpoint (R239). -/
def State.resvBy (s : State) (p : Nat) : Option Nat :=
  let a := s.mtx.resv.get (fun _ => 0) p
  if a = 0 then none else some (a - 1)

/-- A line of the cache can give way: it is clean, and no channel has reserved its endpoint (R254). -/
def State.evictable (s : State) (p : Nat) : Bool :=
  !s.mtx.dirty.contains p && (s.resvBy p).isNone

/-- The cache holds the line of an endpoint, or has a place for it (R254). -/
def State.cacheRoom (s : State) (p : Nat) : Bool :=
  s.mtx.lines.contains p || decide (s.mtx.lines.length < cacheLines) || s.mtx.lines.any s.evictable

/-- The line of an endpoint is loaded, on a free place or in place of one that can give way (R254). -/
def State.loadLine (s : State) (p : Nat) : State :=
  let l := s.mtx.lines
  let l' := if l.contains p then l else if l.length < cacheLines then p :: l
    else match l.find? s.evictable with | some q => p :: l.erase q | none => l
  { s with mtx := { s.mtx with lines := l' } }

/-- A ledger element changed: its line is dirty until the next commit (R254). -/
def State.setLedger (s : State) (p n : Nat) : State :=
  let s := s.loadLine p
  { s with mtx := { s.mtx with ledger := s.mtx.ledger.put (fun _ => 0) p n
                               dirty := if s.mtx.dirty.contains p then s.mtx.dirty else p :: s.mtx.dirty } }

/-- The reservations of a channel's group are mirrored: a formed pair, with the group in role 1, 2 or 5 (R412). -/
def State.sharesResv (s : State) (c : Nat) : Bool := s.mirrors (grpOf c) || (s.rd .PAIR_STATE == 2 && s.rd .PAIR_ROLE (grpOf c) == 5)

/-- A message of a reservation, in force at the next strobe of its group (R410, R412). -/
def State.shareResv (s : State) (c : Nat) (m : MirrorState) : State :=
  s.stateOut ((s.gr (grpOf c)).ticks + s.tickUs (grpOf c)) [m]

/-- A reservation set or ended (R239). -/
def State.setResv (s : State) (p : Nat) (c : Option Nat) : State :=
  let old := s.mtx.resv.get (fun _ => 0) p
  let s := { s with mtx := { s.mtx with resv := s.mtx.resv.put (fun _ => 0) p ((c.map (· + 1)).getD 0) } }
  match c with
  | some c => if s.sharesResv c then s.shareResv c (.reserve (Fin.ofNat 512 c) p) else s
  | none =>
    if old ≠ 0 ∧ s.sharesResv (old - 1) then s.shareResv (old - 1) (.release (Fin.ofNat 512 (old - 1)) p) else s

/-- usable(x) of R237. -/
def State.usable (s : State) (p : Nat) : Bool :=
  bit (s.mapEl p) 15 && !bit (s.ledgerEl p) 3 && !s.lineFenced (s.lineOf p)

/-- The answer to a claim of local endpoint l by channel c (R237): skip, conflict, or granted with the physical
endpoint and whether it is the alternate. -/
def State.resolve (s : State) (c l : Nat) : Claim :=
  let m := s.mapEl (c * 2048 + l)
  let route := bits m 44 20
  let alt := bits m 24 20
  let pick : Option (Bool × Nat) :=
    if s.usable route then some (false, route)
    else if bit m 23 && s.usable alt then some (true, alt) else none
  match pick with
  | none => .skip
  | some (isAlt, p) =>
    if (s.ch c).hold.ep = some p then .granted isAlt p
    else
      let other := match s.resvBy p with | some d => d ≠ c | none => false
      if other || s.mtx.partner.get (fun _ => 0) p ≠ 0 then .conflict else .granted isAlt p

/-- An element takes its place in a list that its key orders, behind those of the same key: claims by the µs of their arrival and
their channel (R238). -/
def insertBy {α : Type} (k : α → Nat × Nat) (x : α) : List α → List α
  | [] => [x]
  | y :: l => if (k y).1 < (k x).1 ∨ ((k y).1 = (k x).1 ∧ (k y).2 ≤ (k x).2) then y :: insertBy k x l else x :: y :: l

/-- A claim of channel c reaches the matrix controller (R207, R238). -/
def State.askClaim (s : State) (c : Nat) (unit : Bool) : State :=
  { s with mtx := { s.mtx with claims := insertBy (fun x => (x.us, x.ch)) ⟨s.now / 1000, c, unit⟩ s.mtx.claims } }

/-- A transaction of a channel, or of none for BREAK_ALL (R245). -/
def newTxn (ch : Option Nat) (line since : Nat) (words : List (Nat × Nat × Nat)) : Txn :=
  { ch := ch, line := line, since := since, words := words }

/-- A transaction enters arbitration (R247). -/
def State.addTxn (s : State) (t : Txn) : State := { s with mtx := { s.mtx with waiting := s.mtx.waiting ++ [t] } }

/-- Matrix operations (Table "Matrix word", R241). -/
def opNop : Nat := 0
def opMake : Nat := 1
def opBreak : Nat := 2
def opBreakAll : Nat := 3

/-- One second of bias time in the ledger, saturating (R251). -/
def State.biasSecond (s : State) (p : Nat) : State :=
  let n := s.ledgerEl p
  let b := if 4294967295 ≤ ledBias n then 4294967295 else ledBias n + 1
  s.setLedger p (ledMake (ledRelay n) b (bit n 3) (bit n 2) (bit n 1) (bit n 0 || b == 4294967295))

/-- A second of bias time of channel c's endpoint counts here and, where the group is mirrored, in the partner's ledger (R251, R411,
R412). -/
def State.biasCount (s : State) (c p : Nat) : State := (s.biasSecond p).tellConfig (grpOf c) (.bias p)

/-- The bias remainder goes to the ledger at release, and the accumulator clears (R251). -/
def State.biasRelease (s : State) (c p : Nat) : State :=
  let r := (s.ch c).hold.bias / 1000
  let s := if 500000 ≤ r then s.biasCount c p else s
  s.modHold c fun h => { h with bias := 0 }

/-- The unit that has begun holds a grant of the endpoint (R213, R239). -/
def Chanter.granted (t : Chanter) (p : Nat) : Bool :=
  t.begun && match t.nu.claim with | .granted _ q => q == p | _ => false

/-- The reservation of an endpoint ends, unless the channel holds, awaits or still breaks it, or its next unit has been granted it
(R239). -/
def State.freeResv (s : State) (c p : Nat) : State :=
  let h := (s.ch c).hold
  if h.ep = some p ∨ h.coming = some p ∨ (h.old.any fun x => x.1 = p) ∨ (s.ch c).cht.granted p then s else s.setResv p none

/-- A request of the host waits for the connection or release that it asks for (R240). -/
def Hold.asked (h : Hold) (a : Ans) : Hold := { h with ans := if a.isNone then h.ans else h.ans ++ [a] }

/-- The requests that wait for a connection or release are answered once nothing of it settles (R240). -/
def State.holdAnswer (s : State) (c : Nat) : State :=
  let h := (s.ch c).hold
  if !h.old.isEmpty ∨ h.coming.isSome then s
  else (s.modHold c fun h => { h with settling := false, ans := [] }).answers h.ans .OK

/-- A release of the held endpoint requests SP0 (R245). The endpoint stays reserved until its break has settled. An
endpoint that is not yet being made is given up. -/
def State.releaseEp (s : State) (c : Nat) (a : Ans := none) : State :=
  let h := (s.ch c).hold
  match h.ep with
  | none =>
    let s := s.modHold c fun h => { h.asked a with coming := none }
    (match h.coming with | some p => s.freeResv c p | none => s).holdAnswer c
  | some p =>
    let s := (s.biasRelease c p).modHold c fun h =>
      { h.asked a with ep := none, old := h.old ++ [(p, none)], coming := none, makeFrom := none, alt := false, settling := true }
    s.addTxn (newTxn (some c) (s.lineOf p) s.now [(p, opBreak, 0), (0, opNop, 0)])

/-- A granted endpoint is connected in place of the one held (R245, R246): on one select line in one transaction,
across lines in two. One that takes the place of another before its MAKE has been asked for waits for the same break. -/
def State.connectEp (s : State) (c p : Nat) (alt : Bool) (a : Ans := none) : State :=
  let h := (s.ch c).hold
  match h.ep, h.coming with
  | none, some q => (s.modHold c fun h => { h.asked a with alt := alt, coming := some p }).freeResv c q
  | none, none =>
    let s := s.modHold c fun h =>
      { h.asked a with ep := some p, alt := alt, settling := true, makeFrom := none, coming := some p, bias := 0 }
    s.addTxn (newTxn (some c) (s.lineOf p) s.now [(p, opMake, 0), (0, opNop, 0)])
  | some q, _ =>
    if q = p then (s.modHold c fun h => { h.asked a with alt := alt }).holdAnswer c
    else
      let one := s.lineOf q = s.lineOf p
      let s := (s.biasRelease c q).modHold c fun h =>
        { h.asked a with ep := if one then some p else none, alt := alt, old := h.old ++ [(q, none)], settling := true
                         makeFrom := none, coming := some p }
      s.addTxn (newTxn (some c) (s.lineOf q) s.now
        (if one then [(q, opBreak, 1), (p, opMake, 2), (0, opNop, 0)] else [(q, opBreak, 0), (0, opNop, 0)]))

/-- The claim of a unit that has not applied is given up: no word has been sent, so its reservation ends at once (R239). -/
def State.dropClaim (s : State) (c : Nat) : State :=
  let s := { s with mtx := { s.mtx with claims := s.mtx.claims.filter fun x => !(x.ch == c && x.unit) } }
  let k := (s.ch c).cht.nu.claim
  let s := s.modCht c fun t => { t with nu := { t.nu with claim := .none } }
  match k with
  | .granted _ p => s.freeResv c p
  | _ => s

/-! ### Transactions that fail, and reservations that end (R244, R255) -/

/-- The unit in progress waits for its connection, or the one that is to re-execute does (R209, R229). -/
def Chanter.joining (t : Chanter) : Bool := t.joins && ((t.live && t.st == .settle) || (t.begun && t.nu.rep))

/-- A unit whose connection is lost is passed over, as for SKIP (R213, R244). -/
def State.passOver (s : State) (c : Nat) : State :=
  let t := (s.ch c).cht
  if !t.joining then s
  else if t.live then (s.modCht c fun t => { t with cur := { t.cur with claim := .skip } }).inc .CHT_SKIPS c
  else s.modCht c fun t => { t with nu := { t.nu with claim := .skip } }

/-- A transaction that waits makes endpoint p for channel c. -/
def State.makeWaits (s : State) (c p : Nat) : Bool :=
  s.mtx.waiting.any fun t => t.ch == some c && t.words.any fun w => w.1 == p && w.2.1 == opMake

/-- The MAKE of the endpoint that a channel awaits enters arbitration, once every endpoint that it gives up has settled (R245,
R246). -/
def State.makeNext (s : State) (c : Nat) : State :=
  let h := (s.ch c).hold
  match h.old, h.ep, h.coming with
  | [], none, some q =>
    (s.modHold c fun h => { h with ep := some q }).addTxn (newTxn (some c) (s.lineOf q) s.now [(q, opMake, 0), (0, opNop, 0)])
  | _, _, _ => s.holdAnswer c

/-- A channel loses what it held and awaited among the endpoints of `hit`: the requests that asked for it answer FENCED, and a unit that
waited for the connection is passed over (R244). A connection of another transaction goes on, with the request that it answers. -/
def State.holdLose (s : State) (c : Nat) (hit : Nat → Bool) (keep : Bool) : State :=
  let h := (s.ch c).hold
  let lost (x : Option Nat) : Bool := match x with | some p => hit p | none => false
  let gone := lost h.coming || (h.coming.isSome && !keep)
  let held := if h.coming.isNone || gone || (s.ch c).cht.joining then [] else h.ans.drop (h.ans.length - 1)
  let told := h.ans.take (h.ans.length - held.length)
  let clear := lost h.ep || gone
  let s := s.modHold c fun h =>
    { h with ep := if clear then none else h.ep, alt := h.alt && !clear, bias := if clear then 0 else h.bias
             makeFrom := if clear then none else h.makeFrom, coming := if gone then none else h.coming
             old := h.old.filter fun x => !hit x.1, ans := held }
  let s := s.modHold c fun h => { h with settling := h.coming.isSome || !h.old.isEmpty }
  let s := match h.coming with
    | some p => if gone && !hit p then s.freeResv c p else s
    | none => s
  (if gone then s.passOver c else s).answers told .FENCED

/-- The endpoints that a transaction breaks or makes (R245). -/
def State.txnEps (s : State) (t : Txn) : List Nat :=
  ((s.mtx.sent.map fun x => (bits x.w.toNat 12 20, bits x.w.toNat 9 3)) ++ t.words.map fun w => (w.1, w.2.1)).filterMap
    fun x => if x.2 = opMake ∨ x.2 = opBreak then some x.1 else none

/-- What a failed transaction on `eps` leaves its channel (R240, R244): none of its endpoints held, all of them still reserved. What
another transaction of the channel breaks or makes stays as it is. -/
def State.failChannel (s : State) (c : Nat) (eps : List Nat) : State :=
  let keep := match (s.ch c).hold.coming with | some p => s.makeWaits c p | none => false
  s.holdLose c (fun p => eps.contains p) keep

/-- A channel holds and awaits nothing more (R255). -/
def Hold.cleared (h : Hold) : Hold := { want := h.want }

/-- Every reservation ends, every relay open (R255). -/
def State.endAll (s : State) : State :=
  let s := s.each (s.chan.map fun x => x.1) fun s c =>
    let h := (s.ch c).hold
    let s := match h.ep with | some p => s.biasRelease c p | none => s
    (s.modHold c Hold.cleared).answers h.ans .FENCED
  s.each (s.mtx.resv.map (·.1)) fun s p => s.setResv p none

/-- The reservations on a line end, its relays open (R244): what waits to be broken or made on it is dropped, a unit with a grant on it
is passed over, and a channel that awaits an endpoint of another line goes on to it (DEDUCED, log 89). -/
def State.endLine (s : State) (line : Nat) : State :=
  let on := fun p => s.lineOf p == line
  let s := { s with mtx := { s.mtx with waiting := s.mtx.waiting.filter fun t => t.line != line || t.ch.isNone } }
  let s := s.each (s.chan.map fun x => x.1) fun s c =>
    let h := (s.ch c).hold
    let hit (x : Option Nat) : Bool := match x with | some p => on p | none => false
    let s := if hit h.ep || (h.old.any fun x => on x.1) || hit h.coming then
        let s := match h.ep with | some p => if on p then s.biasRelease c p else s | none => s
        let s := s.holdLose c on true
        if (s.ch c).hold.coming.isSome then s.makeNext c else s
      else s
    match (s.ch c).cht.nu.claim with
    | .granted _ p => if on p then s.modCht c fun t => { t with nu := { t.nu with claim := .skip } } else s
    | _ => s
  s.each ((s.mtx.resv.map (·.1)).filter on) fun s p => s.setResv p none

/-- A BREAK_ALL of the safe state is over: after the last of them every reservation ends (R255). -/
def State.breakAllOver (s : State) : State :=
  if s.mtx.waiting.any fun u => u.ch.isNone && !u.restart then s else s.endAll

end Sys2Proof.Machine
end

