-- ==== Sys2Proof/Machine/Sweep.lean ====
section
/-! DEFINITION. Sweep entries as bits (R201 to R205), and the halt of a Chanter (R215, R225). -/
namespace Sys2Proof.Machine
open Sys2Proof

/-! ### Layouts (Tables "Sweep entry layout" and "Parameter entry layout") -/

/-- The content of sweep memory at reset: the HALT pattern (R198). -/
def sweepReset : Nat → BitVec 128 := fun _ => 0xA0000000000000000000000000000000#128
/-- Element `a` of sweep memory (R198). -/
def State.sweepEl (s : State) (a : Nat) : BitVec 128 := s.sweep.get sweepReset a

def eKind (n : Nat) : Nat := bits n 125 3
def eFm (n : Nat) : Nat := bits n 124 1
def eLevel (n : Nat) : Int := sext 24 (bits n 100 24)
/-- COMPL as a FRAC18 code. -/
def eCompl (n : Nat) : Int := sext 18 (bits n 82 18)
def eVr (n : Nat) : Nat := bits n 80 2
def eIr (n : Nat) : Nat := bits n 76 4
def eAper (n : Nat) : Nat := bits n 71 5
def eEpEn (n : Nat) : Bool := bit n 70
def eEp (n : Nat) : Nat := bits n 59 11
def eTrigEn (n : Nat) : Bool := bit n 58
def eTrig (n : Nat) : Nat := bits n 50 8
def eRact (n : Nat) : Nat := bits n 48 2
def eNext (n : Nat) : Nat := bits n 31 17
def eDwellU (n : Nat) : Nat := bits n 29 2
def eDwell (n : Nat) : Nat := bits n 9 20
def eFmKeep (n : Nat) : Bool := bit n 8
def eLvlKeep (n : Nat) : Bool := bit n 7
def eCmpKeep (n : Nat) : Bool := bit n 6
def ePause (n : Nat) : Bool := bit n 5
def eDoneEv (n : Nat) : Bool := bit n 4
def eEpRel (n : Nat) : Bool := bit n 3
def eStop (n : Nat) : Bool := bit n 2

def pLevel (n : Nat) : Int := sext 24 (bits n 101 24)
def pCount (n : Nat) : Nat := bits n 85 16
def pEpStep (n : Nat) : Nat := bits n 74 11
def pWidth (n : Nat) : Nat := bits n 54 20
def pWave (n : Nat) : Nat := bits n 48 6
def pStart (n : Nat) : Nat := bits n 32 16
def pDiv (n : Nat) : Nat := bits n 16 16
def pEnd (n : Nat) : Nat := bits n 0 16

/-- Aperture lengths of the aperture codes (Table "Aperture codes", R176). -/
def aperLen : List Nat := [0, 1, 2, 5, 10, 20, 50, 100, 200, 500, 1000, 2000, 5000, 10000, 20000, 50000, 100000, 200000,
  500000, 1000000]

/-- Saturation of a level to ±110 % (R205). -/
def levelSat (x : Int) : Int := clampI (-over110s) over110s x
where over110s : Int := 0x466666

/-- The check of one written element of sweep memory (R203): the status of the first failure. -/
def sweepCheck (n : Nat) : Status :=
  if eKind n = 4 then .OK
  else if bits n 0 2 ≠ 0 then .RESERVED_NONZERO
  else if eKind n ≥ 6 then .BAD_VALUE
  else if (eIr n ≥ 9 ∧ eIr n ≠ 15) ∨ eAper n ≥ 20 ∨ eRact n = 3 then .BAD_VALUE
  else if eLevel n < -0x466666 ∨ 0x466666 < eLevel n ∨ eCompl n < 0 ∨ 0x11999 < eCompl n then .BAD_VALUE
  else .OK

/-- The address lies in the region of a channel (R199). -/
def State.inRegion (s : State) (c a : Nat) : Bool :=
  decide (s.rdN .SW_BASE c ≤ a ∧ a < s.rdN .SW_BASE c + s.rdN .SW_LEN c)

/-- The entry is followed by a parameter entry (R202). -/
def ePair (n : Nat) : Bool := eKind n == 1 || eKind n == 2 || eKind n == 3

/-- A parameter entry suits its kind: unused fields 0, COUNT and WIDTH as the layout allows; W_DIV and the order of
W_START and W_END as the layout gives them (R202, R204; the last two DEDUCED, log 10). -/
def paramOk (kind dwellU p : Nat) : Bool :=
  eKind p == 4 &&
  (if kind = 1 then pWidth p == 0 && pWave p == 0 && pStart p == 0 && pDiv p == 0 && pEnd p == 0 && pCount p != 0
   else if kind = 2 then pEpStep p == 0 && pWave p == 0 && pStart p == 0 && pDiv p == 0 && pEnd p == 0 && pCount p != 0
     && pWidth p != 0 && dwellU != 3
   else pLevel p == 0 && pEpStep p == 0 && pWidth p == 0 && pDiv p != 0 && decide (pStart p ≤ pEnd p))

/-- The fetch checks in order (R204), with SECDED (R200): the reason of the halt, 0 when the entry may run. A HALT
entry gives reason 2. -/
def State.fetchCheck (s : State) (c a : Nat) (sramBad : Bool) : Nat :=
  let e := (s.sweepEl a).toNat
  let p := (s.sweepEl (a + 1)).toNat
  if !s.inRegion c a then 4
  else if sramBad then 8
  else if ePair e && !s.inRegion c (a + 1) then 4
  else if eKind e != 4 && eKind e != 5 && !eStop e && !s.inRegion c (eNext e) then 4
  else if eKind e = 4 then 3
  else if ePair e && !paramOk (eKind e) (eDwellU e) p then 3
  else if eKind e = 5 then (if e % 2 ^ 125 = 0 then 2 else 3)
  else if eKind e = 3 ∧ (s.rdN .WAVE_LEN (pWave p) = 0 ∨ s.rdN .WAVE_LEN (pWave p) ≤ pEnd p) then 9
  else 0

/-- Units of an entry; none where only a command ends them (R205). -/
def unitsOf (u : SUnit) : Option Nat :=
  let e := u.entry.toNat
  if ePair e then (if eKind e = 3 ∧ pCount u.param.toNat = 0 then none else some (pCount u.param.toNat)) else some 1

/-- The unit is its entry's last (R205). -/
def SUnit.last (u : SUnit) : Bool :=
  match unitsOf u with | some n => decide (n ≤ u.k + 1) | none => false

/-- Ticks of a dwell unit (R201). -/
def dwellTicks (e : Nat) : Nat := eDwell e * 1000 ^ eDwellU e

/-- The dwell of a unit in ticks, at least 1; none for an indefinite dwell (R205, R210). In a PULSE and in the last repetition of a WAVE a
DWELL of 0 adds no tick to the WIDTH or the points, which are at least one (DEDUCED, log 112). -/
def SUnit.dwell (u : SUnit) : Option Nat :=
  let e := u.entry.toNat
  let p := u.param.toNat
  let d := dwellTicks e
  let n := if eKind e = 2 then pWidth p * 1000 ^ eDwellU e + d
    else if eKind e = 3 then (pEnd p - pStart p + 1) * pDiv p + (if u.last && eDwellU e != 3 then d else 0)
    else d
  if eDwellU e = 3 ∧ (eKind e ≠ 3 ∨ u.last) then none else some (if n = 0 then 1 else n)

/-- LEVEL as R205 takes it. -/
def SUnit.level0 (u : SUnit) : Int := if eLvlKeep u.entry.toNat then u.base else eLevel u.entry.toNat

/-- The level of the unit at its apply strobe, ahead of saturation, for all kinds but WAVE (R205). -/
def SUnit.level (u : SUnit) : Int :=
  if eKind u.entry.toNat = 1 then u.level0 + u.k * pLevel u.param.toNat else u.level0

/-- The unit applies ranges, force mode, limit and aperture (Table "Entry kinds"). -/
def SUnit.full (u : SUnit) : Bool := eKind u.entry.toNat ≤ 1 || u.k == 0

/-- The unit waits for a trigger (Table "Entry kinds"). -/
def SUnit.waits (u : SUnit) : Bool := eTrigEn u.entry.toNat && (eKind u.entry.toNat != 3 || u.k == 0)

/-- The unit claims an endpoint (Table "Entry kinds"). -/
def SUnit.claims (u : SUnit) : Bool := eEpEn u.entry.toNat && u.full

/-- The local endpoint that the unit names (R205). -/
def SUnit.endpoint (u : SUnit) : Nat :=
  if eKind u.entry.toNat = 1 then (eEp u.entry.toNat + u.k * pEpStep u.param.toNat) % 2048 else eEp u.entry.toNat

/-! ### Edges and halts -/

/-- A producer selector (Table "Producer selector", R292). -/
def selector (cls n edge : Nat) : Nat := cls * 4096 + n * 8 + edge

/-- A Chanter edge reaches the router in the tick after its strobe (R215). -/
def State.chtEdge (s : State) (c edge : Nat) : State :=
  s.modGr (grpOf c) fun g => { g with edges := g.edges ++ [selector 3 c edge] }

/-- A waveform is in use by one Chanter fewer or more (R221). -/
def State.players (s : State) (u : SUnit) (d : Int) : State :=
  if eKind u.entry.toNat = 3 then
    let n := pWave u.param.toNat
    s.wr .WAVE_PLAYERS n 0 (clampI 0 512 (s.rd .WAVE_PLAYERS n + d))
  else s

/-- The waveforms of the Chanter's entries are no longer in use (R221). -/
def State.chtFreeWaves (s : State) (c : Nat) : State :=
  let t := (s.ch c).cht
  let s := if t.live then s.players t.cur (-1) else s
  if t.begun && (!t.live || t.nu.k == 0) then s.players t.nu (-1) else s

/-- The Chanter goes IDLE with a reason (R215, R225, Table "Halt reasons"); an ungranted or unapplied claim is
withdrawn (R225, R239), and reasons 3..9 are reported with the failing entry's address. -/
def State.chtHalt (s : State) (c reason : Nat) : State :=
  let s := (s.chtFreeWaves c).dropClaim c
  let s := s.modCht c fun t => { st := .idle, cur := t.cur }
  let s := s.wr .CHT_HALT c 0 reason
  let s := s.chtEdge c 1
  if 3 ≤ reason then
    (s.chtEdge c 2).report (srcCht c) 0x23 (s.rdN .CHT_POS c) reason
  else s

/-- The Chanter goes IDLE with a reason unless it is IDLE (R230). -/
def State.chtStopIf (s : State) (c reason : Nat) : State :=
  if (s.ch c).cht.st = .idle then s else s.chtHalt c reason

/-- The Chanter is FROZEN: its channel is in MUTE, or calibration runs on it (R228). -/
def State.frozen (s : State) (c : Nat) : Bool :=
  (s.ch c).out == .mute || (s.ch c).calBusy

end Sys2Proof.Machine
end

