-- ==== Sys2Proof/Machine/Slide.lean ====
section
/-! DEFINITION. Range requests, values bound to a range, and the Slide (R137 to R160). -/
namespace Sys2Proof.Machine
open Sys2Proof

/-- The group is standby in a pair: role 3 or 4 (R404, R405). -/
def State.standby (s : State) (g : Nat) : Bool := s.rd .PAIR_ROLE g == 3 || s.rd .PAIR_ROLE g == 4

/-- The group stands by and does not drive with its partner (R413, R417). -/
def State.passive (s : State) (g : Nat) : Bool := s.standby g && (s.gr g).pair.take != some 0

/-- The first fence among the slice of a channel and the engines of its group (R97 step 3, R338). -/
def State.engineFence (s : State) (c : Nat) : Option Status :=
  let g := grpOf c
  if (s.ch c).out = .retired then some .FENCED
  else firstStatus [s.fenceStatus (s.sliceOf c), s.fenceStatus (srcCtl g), s.fenceStatus (srcLoop g)]

/-! ### Values bound to a range (R140, R141, R188) -/

/-- Full-scale ratio of two ranges of a quantity, as numerator and denominator: `true` for current (R140). -/
def fsRatio (cur : Bool) (old new : Nat) : Int × Int :=
  if cur then (fsI old, fsI new) else (spanV old, spanV new)

/-- A FRAC24 code converted between ranges, within ±110 % (R140). -/
def convert24 (cur : Bool) (x : Int) (old new : Nat) : Int :=
  let (a, b) := fsRatio cur old new
  rescale x a b

/-- A FRAC18 limit converted between ranges, within 0..110 % (R141). -/
def convert18 (cur : Bool) (x : Int) (old new : Nat) : Int × Bool :=
  let (a, b) := fsRatio cur old new
  let y := roundEven (x * a) b
  (clampI 0 0x11999 y, decide (0x11999 < y))

/-- The present range of a quantity. -/
def State.rangeOf (s : State) (c : Nat) (cur : Bool) : Nat := if cur then s.rdN .I_RANGE c else s.rdN .V_RANGE c
/-- The limited quantity is the current (R108). -/
def State.limCur (s : State) (c : Nat) : Bool := s.rd .FORCE_MODE c == 0

/-- The limit reads the programmed limit converted to the present range; true when that cuts it (R141). -/
def State.limitCut (s : State) (c : Nat) : Bool :=
  (convert18 (s.limCur c) (s.ch c).lim (s.ch c).limRange (s.rangeOf c (s.limCur c))).2

/-- COMPL_LIM and the threshold levels after a change of ranges: the programmed values converted to the present
ranges (R141, R188). -/
def State.rebind (s : State) (c : Nat) : State :=
  let h := s.ch c
  let cur := s.limCur c
  let vr := s.rangeOf c false
  let ir := s.rangeOf c true
  let pos (x : Int) : Int := clampI 0 over110 x
  let s := s.wr .COMPL_LIM c 0 (convert18 cur h.lim h.limRange (s.rangeOf c cur)).1
  let s := s.wr .TEV_V_LEVEL c 0 (convert24 false h.tevV h.tevVr vr)
  let s := s.wr .TEV_V_HYST c 0 (pos (convert24 false h.tevVh h.tevVhr vr))
  let s := s.wr .TEV_I_LEVEL c 0 (convert24 true h.tevI h.tevIr ir)
  s.wr .TEV_I_HYST c 0 (pos (convert24 true h.tevIh h.tevIhr ir))

/-- The limit just written is the programmed one, on the range of the limited quantity in force (R141). -/
def State.programLimit (s : State) (c : Nat) : State :=
  s.modCh c fun h => { h with lim := s.rd .COMPL_LIM c, limRange := s.rangeOf c (s.limCur c) }

/-- Levels and hystereses of the threshold events. -/
def tevObjs : List Obj := [.TEV_V_LEVEL, .TEV_V_HYST, .TEV_I_LEVEL, .TEV_I_HYST]

/-- The threshold value just written is the programmed one, on the range in force (R188). -/
def State.programTev (s : State) (c : Nat) (o : Obj) : State :=
  let vr := s.rdN .V_RANGE c
  let ir := s.rdN .I_RANGE c
  s.modCh c fun h =>
    match o with
    | .TEV_V_LEVEL => { h with tevV := s.rd .TEV_V_LEVEL c, tevVr := vr }
    | .TEV_V_HYST => { h with tevVh := s.rd .TEV_V_HYST c, tevVhr := vr }
    | .TEV_I_LEVEL => { h with tevI := s.rd .TEV_I_LEVEL c, tevIr := ir }
    | .TEV_I_HYST => { h with tevIh := s.rd .TEV_I_HYST c, tevIhr := ir }
    | _ => h

/-- The auto-range counts restart (R155, R156). -/
def Aper.arClear (a : Aper) : Aper := { a with arUp := 0, arDn := 0, arUpWas := 0, arDnWas := 0, arAsk := none }

/-- The ranges in force change, with every value bound to them (R140, R141). Values that came into force at this strobe,
or that the request carries, are taken on the new ranges. Where the request changes FORCE_MODE too, a kept SETPOINT is converted by
the quantity forced before it, and a kept limit is programmed as it reads then (DESIGN CHOICE, log 70). -/
def State.setRanges (s : State) (c vr ir : Nat) (r : RangeReq) : State :=
  let h := s.ch c
  let ovr := s.rdN .V_RANGE c
  let oir := s.rdN .I_RANGE c
  let cur := !s.limCur c
  let sp := convert24 cur (s.rd .SETPOINT c) (if cur then oir else ovr) (if cur then ir else vr)
  let s := if r.sp.isNone && !h.written.contains .SETPOINT then s.wr .SETPOINT c 0 sp else s
  let s := (s.wr .V_RANGE c 0 vr).wr .I_RANGE c 0 ir
  let s := match r.sp with | some x => s.wr .SETPOINT c 0 x | none => s
  let turns := match r.fm with | some x => s.rd .FORCE_MODE c != x | none => false
  let s := match r.fm with | some x => s.wr .FORCE_MODE c 0 x | none => s
  let s := match r.lim with
    | some x => (s.wr .COMPL_LIM c 0 x).programLimit c
    | none => if h.written.contains .COMPL_LIM || turns then s.programLimit c else s
  let s := s.each (tevObjs.filter h.written.contains) fun s o => s.programTev c o
  let s := s.rebind c
  let cv (x : Int) : Int := convert24 false x ovr vr
  let ci (x : Int) : Int := convert24 true x oir ir
  let lw (l : Law) : Law :=
    if l.fi then { l with ypPrev := ci l.ypPrev, ylPrev := cv l.ylPrev }
    else { l with ypPrev := cv l.ypPrev, ylPrev := ci l.ylPrev }
  let moved := ovr != vr || oir != ir
  s.modCh c fun h => { h with v := cv h.v, i := ci h.i, run := { h.run with law := lw h.run.law, v := cv h.run.v, i := ci h.run.i }
                              aper := if moved then h.aper.arClear else h.aper }

/-! ### Checks and refusals (R138, R139) -/

/-- The target of a request: the ranges it names, the others as in force. -/
def State.target (s : State) (c : Nat) (r : RangeReq) : Nat × Nat :=
  (r.vr.getD (s.rdN .V_RANGE c), r.ir.getD (s.rdN .I_RANGE c))

/-- Steps 6 to 9 of Table "Range request checks". -/
def State.rangeLate (s : State) (c : Nat) (r : RangeReq) : Option (Status × Nat) :=
  let h := s.ch c
  let (vr, ir) := s.target c r
  let ovr := s.rdN .V_RANGE c
  let oir := s.rdN .I_RANGE c
  let big (cur : Bool) (x : Int) (old new : Nat) : Bool :=
    let (a, b) := fsRatio cur old new
    decide (new < old) && decide (0x400000 * b < (x.natAbs : Int) * a)
  let cur := !s.limCur c
  let (a, b) := if cur then fsRatio true oir ir else fsRatio false ovr vr
  let sp := roundEven (s.rd .SETPOINT c * a) b
  let onB (x : Nat) : Bool := !internalI x
  if big false h.run.v ovr vr || big true h.run.i oir ir then some (.RANGE_REFUSED, 2)
  else if r.sp.isNone && !h.written.contains .SETPOINT && (decide (sp < -over110) || decide (over110 < sp)) then
    some (.RANGE_REFUSED, 3)
  else if r.src == .mode && h.out.loop && onB ir != onB oir then some (.RANGE_REFUSED, 7)
  else if s.boosted c && internalI ir && h.out.charged && !s.admits (s.wr .I_RANGE c 0 ir) then some (.OUTPUT_BUDGET, 5)
  else none

/-- Table "Range request checks" (R139): the status and reason code of the first failure. A request during an OFF ramp
conflicts with the state (DEDUCED, log 11). -/
def State.rangeCheck (s : State) (c : Nat) (r : RangeReq) : Option (Status × Nat) :=
  let h := s.ch c
  let (_, ir) := s.target c r
  let fence := firstStatus [s.engineFence c, s.fenceStatus (srcSlide (grpOf c))]
  if s.latch || h.out == .safe then some (.SAFE_STATE, 9)
  else if s.standby (grpOf c) then some (.PAIR_STANDBY, 9)
  else match fence with
  | some st => some (st, 9)
  | none =>
    if h.out = .mute ∨ (h.out.live ∧ h.transit) ∨ h.offWait then some (.STATE_CONFLICT, 4)
    else if h.calBusy then some (.CAL_BUSY, 8)
    else if !internalI ir && !(s.rdT .BOOST_DECL c && s.rd .BOOST_RANGE c == ir) then some (.BOOSTER_UNDECLARED, 6)
    else if h.slide.pend.isSome || (r.src == .mode && h.slide.phase != .idle) then some (.RANGE_REFUSED, 1)
    else s.rangeLate c r

/-- The reply to whoever asked for a range change, and for the requests that it overtook. -/
def State.rangeReply (s : State) (r : RangeReq) (st : Status) : State :=
  s.each (r.src :: r.also) fun s o => s.reply o st

/-- A refusal is recorded (R139): its reason, its count, and the auto-range counts that restart at it (R156). -/
def State.noteRefusal (s : State) (c reason : Nat) : State :=
  (s.modCh c fun h =>
    { h with slide := { h.slide with refusal := reason }, aper := h.aper.arClear }).inc .SLIDE_REFUSED c

/-- A range request is refused (R139): the reason is recorded, a refused auto-range step is reported by the Slide, a
refused sweep entry stops its sweep (R208). -/
def State.rangeRefuse (s : State) (c : Nat) (r : RangeReq) (st : Status) (reason : Nat) : State :=
  let s := s.noteRefusal c reason
  let s := if st = .OUTPUT_BUDGET then s.refuseBudget else s
  let s : State := match r.src with
    | .auto => s.report (srcSlide (grpOf c)) 0x24 (st.num * 256 + s.pos c) 0xFF
    | .sweep => s.chtHalt c (if st = .OUTPUT_BUDGET then 6 else 5)
    | _ => s
  s.rangeReply r st

/-- A request that Slide has accepted is cancelled (R139). -/
def State.rangeCancel (s : State) (c : Nat) (r : RangeReq) (st : Status) (reason : Nat) : State :=
  (s.modSlide c fun l => { l with refusal := reason }).rangeReply r st

/-! ### The steps of a Slide (R143 to R151) -/

/-- The corrected code of the make strobe in units of 2^-40 (R144). The exact quotient is rounded to the nearest
(DEDUCED, log 12). `p` tells that the current shunts change. -/
def makeCode (t i : Int) (vo vn : Int) (fsOld r1 r2 : Nat) (p : Bool) : Int :=
  if p then
    let k : Int := (r1 + r2 : Nat) * 10 ^ 6 * 2 ^ 30
    roundEven (t * vo * k - i * 2 ^ 18 * fsOld * (r1 * r1 : Nat)) (vn * k)
  else roundEven (t * vo) vn

/-- The corrected code of the break strobe in units of 2^-40 (R144). -/
def breakCode (t i : Int) (vn : Int) (fsNew r1 r2 : Nat) : Int :=
  let k : Int := (r1 + r2 : Nat) * 10 ^ 6 * 2 ^ 30
  t + roundEven (i * 2 ^ 18 * fsNew * (r2 * r2 : Nat)) (vn * k)

/-- A corrected value applied as a DAC code, with the bumpless load that continues from it once every parameter of the strobe is in
force (R125, R144). It takes the place of any load that the strobe already asks for. -/
def State.loadQ (s : State) (c : Nat) (q : Int) : State :=
  s.modCh c fun h => { h with dac := round20 q, due := some q }

/-- The bumpless load that the strobe asks for, with the parameters in force after it: at a held tick it waits (R125, R129);
without a load, the adjustment for changed coefficients where the law was evaluated in the tick (R126). -/
def State.lawPass (s : State) (c : Nat) : State :=
  let h := s.ch c
  let p := (s.lawPar c).1
  match h.due with
  | some q =>
    if h.held then s.modCh c fun h => { h with due := none, run := { h.run with load := some q } }
    else s.modCh c fun h => { h with due := none, run := { h.run with law := bumplessQ p h.v h.i q h.run.law, load := none } }
  | none =>
    if h.run.ran && !h.held then
      s.modCh c fun h => { h with run := { h.run with law := kpAdjust p (h.run.law.ep, h.run.law.eh, h.run.law.el) h.run.law } }
    else s

/-- The SLIDE flag of a record (Table "Record flags"). -/
def fSlide : Nat := 2 ^ 12

/-- The Slide window holds at this strobe (R153), and from it on SLIDE_BLANK samples are excluded where it is the break (R154). -/
def Aper.slideStrobe (blank : Option Nat) (a : Aper) : Aper := { a with flags := a.flags ||| fSlide, blank := blank.getD a.blank }

/-- The make strobe (R144): span and scaling switch, the corrected code applies, and the values bound to the ranges are
converted. A change of the voltage range alone breaks at once (R143). The first of two Slides leaves the request's own
values to the second (R151), and takes the voltage range of the request with it (DESIGN CHOICE, log 109). -/
def State.slideMake (s : State) (c : Nat) (r : RangeReq) : State :=
  let h := s.ch c
  let (vr, ir) := match h.slide.leg2 with
    | some _ => (r.vr.getD (s.rdN .V_RANGE c), 5)
    | none => s.target c r
  let ovr := s.rdN .V_RANGE c
  let oir := s.rdN .I_RANGE c
  let q := makeCode h.run.law.t h.i (vspan ovr) (vspan vr) (fsI oir) (s.shunt c oir) (s.shunt c ir) (ir != oir)
  let g := grpOf c
  let up := !internalI ir && internalI oir
  let down := internalI ir && !internalI oir
  let own := if h.slide.leg2.isSome then { r with sp := none, lim := none, fm := none } else r
  let s := s.setRanges c vr ir own
  let s := s.loadQ c q
  s.modCh c fun h =>
    { h with isoF := h.isoF || down, isoI := h.isoI || up, bg := if up then .drive else h.bg
             noInc := if ir = oir then true else h.noInc
             aper := h.aper.slideStrobe (if ir = oir then some (s.rdN .SLIDE_BLANK c) else none)
             slide := { h.slide with phase := if ir = oir then .broken (s.strobesFor g 3) else .made
                                     oldVr := ovr, oldIr := oir, req := some r } }

/-- Strobes from the break strobe to completion: 3 µs, and two at the least for a move off the booster range (R143, R150). -/
def State.brokenFor (s : State) (c oir : Nat) : Nat :=
  let n := s.strobesFor (grpOf c) 3
  if internalI (s.rdN .I_RANGE c) && !internalI oir && n < 2 then 2 else n

/-- The break strobe (R144, R147, R149, R150). In MUTE the break completes on the held code, and the law that the MUTE has frozen is
converted to it (Table "Slide collisions"). -/
def State.slideBreak (s : State) (c : Nat) : State :=
  let h := s.ch c
  let vr := s.rdN .V_RANGE c
  let ir := s.rdN .I_RANGE c
  let oir := h.slide.oldIr
  let t := if h.out = .mute then h.dac * 2 ^ 21 else h.run.law.t
  let q := breakCode t h.i (vspan vr) (fsI ir) (s.shunt c oir) (s.shunt c ir)
  let up := !internalI ir && internalI oir
  let down := internalI ir && !internalI oir
  let n := s.brokenFor c oir
  let s := s.loadQ c q
  s.modCh c fun h =>
    { h with isoF := h.isoF && !up, isoI := h.isoI && !down, bg := if down then .track else h.bg, noInc := true
             aper := h.aper.slideStrobe (some (s.rdN .SLIDE_BLANK c))
             slide := { h.slide with phase := .broken n } }

/-- The Slide starts at this strobe (R143, R149): the make step, which a held tick moves to the next evaluated strobe (R159), or the
preparation of an up-Slide onto the booster range. A change between the booster range and a range below I1M takes two Slides
(R151). -/
def State.slideStart (s : State) (c : Nat) (r : RangeReq) : State :=
  let (_, ir) := s.target c r
  let oir := s.rdN .I_RANGE c
  let onB := !internalI oir
  let toB := !internalI ir
  let leg2 := if (onB && ir < 5) || (toB && oir < 5) then some ir else none
  let s := s.modSlide c fun l => { l with leg2 := leg2, req := some r, auto := r.src == .auto }
  let first := if leg2.isSome then 5 else ir
  if !internalI first && internalI oir then
    let n := s.strobesFor (grpOf c) 20
    s.modCh c fun h => { h with bg := .track, slide := { h.slide with phase := .prep n } }
  else if (s.ch c).run.ran && !(s.ch c).held then s.slideMake c r
  else s.modSlide c fun l => { l with phase := .due }

/-- Ranges that take effect without a Slide, in OFF and ARMED (R138). -/
def State.rangeDirect (s : State) (c : Nat) (r : RangeReq) : State :=
  let (vr, ir) := s.target c r
  (s.setRanges c vr ir r).rangeReply r .OK

/-- A range request at its strobe (R138 to R143): refused, applied directly, started as a Slide, or waiting in the
pending slot. A request for the ranges in force changes nothing and is done. -/
def State.rangeApply (s : State) (c : Nat) (r : RangeReq) : State :=
  match s.rangeCheck c r with
  | some (st, reason) => s.rangeRefuse c r st reason
  | none =>
    let h := s.ch c
    if !h.out.loop then s.rangeDirect c r
    else if h.slide.phase ≠ .idle then s.modSlide c fun l => { l with pend := some r }
    else if s.target c r = (s.rdN .V_RANGE c, s.rdN .I_RANGE c) then s.rangeDirect c r
    else s.slideStart c r

/-- The request of a Slide is answered once its make strobe has passed (R139): OK, or where the second of its two Slides was
never made (R151), the status of the cancellation. -/
def State.slideReply (s : State) (c : Nat) (l : Slide) (st : Status) (reason : Nat) : State :=
  match l.req with
  | some r => if l.leg2.isSome then s.rangeCancel c r st reason else s.rangeReply r .OK
  | none => s

/-- The request in the pending slot is cancelled (R139, Table "Slide collisions"). -/
def State.pendCancel (s : State) (c : Nat) (st : Status) (reason : Nat) : State :=
  match (s.ch c).slide.pend with
  | some r => (s.rangeCancel c r st reason).modSlide c fun l => { l with pend := none }
  | none => s

/-- A Slide completes (R143): SLIDE_COUNT, BG back to OFF on an internal range, and the reply to its request. -/
def State.slideDone (s : State) (c : Nat) : State :=
  let l := (s.ch c).slide
  let s := s.inc .SLIDE_COUNT c
  let s := s.modCh c fun h => { h with bg := if internalI (s.rdN .I_RANGE c) then .off else h.bg
                                       slide := { h.slide with phase := .idle, req := none, leg2 := none } }
  s.slideReply c l .RANGE_REFUSED 4

/-- The path of a channel whose Slide has ended early: that of the ranges in force (R84, R90). -/
def State.pathNow (s : State) (c : Nat) : State :=
  let int := internalI (s.rdN .I_RANGE c)
  s.modCh c fun h =>
    if h.out.live && !h.apart then { h with isoF := int, isoI := !int, bg := if int then .off else .drive } else h

/-- The Slide ends early (Table "Slide collisions"): before its make strobe it is cancelled with a status and a reason,
from then on it is abandoned and answered; the outgoing path breaks, and a request in the pending slot is cancelled. -/
def State.slideEnd (s : State) (c : Nat) (st : Status) (reason : Nat) : State :=
  let l := (s.ch c).slide
  let s := (s.pendCancel c st reason).modSlide c fun l => { l with phase := .idle, req := none, leg2 := none }
  match l.phase, l.req with
  | .idle, _ => s
  | .made, _ | .broken _, _ => (s.pathNow c).slideReply c l st reason
  | _, some r => (s.pathNow c).rangeCancel c r st reason
  | _, none => s

/-- What a MUTE does to a Slide (Table "Slide collisions"): before the make strobe it is cancelled; later its break
completes on the held code. The pending slot is cancelled. -/
def State.slideMute (s : State) (c : Nat) (st : Status := .RANGE_REFUSED) (reason : Nat := 4) : State :=
  match (s.ch c).slide.phase with
  | .made | .broken _ => s.pendCancel c st reason
  | _ => s.slideEnd c st reason

/-- What an OFF does to a Slide (Table "Slide collisions"): before the make strobe it is cancelled; after the break it completes
at the ramp start. -/
def State.slideOff (s : State) (c : Nat) : State :=
  match (s.ch c).slide.phase with
  | .broken _ => (s.pendCancel c .RANGE_REFUSED 4).slideDone c
  | _ => s.slideEnd c .RANGE_REFUSED 4

end Sys2Proof.Machine
end

