-- ==== Sys2Proof/Machine/Output.lean ====
section
/-! DEFINITION. The output states of a channel: switch settings, the transitions with their checks and answers, the OFF
and SAFE ramps, takeover by the spare and retirement (R90 to R105, R342 to R346). -/
namespace Sys2Proof.Machine
open Sys2Proof

/-- Table "Switch settings" (R90) for an output state, where BOOST_DECL is `decl` and the current range is internal or not; SAFE on its
ramp keeps the path that it had (R104). -/
def Chan.switched (h : Chan) (decl int : Bool) : Chan :=
  let live : Chan := { h with isoF := int, isoS := true, isoI := !int, bg := if int then .off else .drive, drv := true }
  match h.out with
  | .off => { h with isoF := false, isoS := true, isoI := decl, bg := .off, drv := false, dac := 0 }
  | .armed => { h with isoF := false, isoS := true, isoI := decl, bg := .off, drv := true }
  | .force | .compl | .mute => live
  | .safe => if h.transit then live else { h with isoF := false, isoS := true, isoI := false, bg := .off, drv := false }
  | .retired => { h with isoF := false, isoS := false, isoI := false, bg := .off, drv := false }

/-- The open switches between the two strobes of a break-before-make handover (R93). -/
def Chan.parted (h : Chan) : Chan := if h.apart then { h with isoF := false, isoS := false, isoI := false, bg := .off } else h

/-- The switch settings for the state and the ranges of a channel (R90); those of a channel that a handover has set apart stay open
(R93). -/
def State.switches (s : State) (c : Nat) : State :=
  let decl := s.rdT .BOOST_DECL c
  let int := internalI (s.rdN .I_RANGE c)
  s.modCh c fun h => (h.switched decl int).parted

/-- The group's control and filter engines run, unfenced (R97). -/
def State.engines (s : State) (g : Nat) : Bool :=
  (s.gr g).ctl && decide ((s.gr g).filt = .running) && !s.fencedSrc (srcCtl g) && !s.fencedSrc (srcLoop g)

/-- The laws of the group are evaluated: its engines run and it has strobes. -/
def State.lawRuns (s : State) (g : Nat) : Bool := s.engines g && s.strobes g

/-- The driver or booster target of a channel at present in µV, along an open-loop OFF ramp where one runs (R103). -/
def State.targetNow (s : State) (c : Nat) : Int :=
  let h := s.ch c
  match h.rampEnd with
  | some t =>
    let left : Int := ((t - s.now) * s.rdN .OFF_SLEW c / 1000 : Nat)
    if h.dac < 0 then -left else left
  | none => targetUv h.dac (s.rdN .V_RANGE c)

/-- The strobe asks for the bumpless load of a transition on the code applied at it (R125, R126); a load of a Slide step comes
first (R144). -/
def State.loadCode (s : State) (c : Nat) : State :=
  s.modCh c fun h => { h with due := h.due <|> some (h.dac * 2 ^ 21) }

/-- Several who wait for the same effect have their reply. -/
def State.replies (s : State) (l : List Origin) (st : Status) : State := s.each l fun s o => s.reply o st

/-- A switch that has been validated stops the control engine of a group at a strobe to come (R68). -/
def State.modeStops (s : State) (g : Nat) : Bool :=
  ((s.gr g).frozen ++ (s.gr g).arrived).any fun x =>
    match x.what with
    | .modeApply _ ts => ts.any fun t => t.o == .CTL_RUN && t.i == g && t.v.int == 0
    | _ => false

/-! ### ARM, ENABLE, RESUME, MUTE (R97 to R102) -/

/-- Steps 1 to 6 of R97 for ARM, ENABLE and RESUME: the first failure. An engine that a validated switch is to stop counts as
stopped (R68). -/
def State.outPre (s : State) (c : Nat) : Option Status :=
  let g := grpOf c
  let ir := s.rdN .I_RANGE c
  if s.latch then some .SAFE_STATE
  else if s.standby g then some .PAIR_STANDBY
  else match s.engineFence c with
  | some st => some st
  | none =>
    if !(s.engines g && s.strobes g) || s.modeStops g then some .STATE_CONFLICT
    else if (s.ch c).calBusy then some .CAL_BUSY
    else if !internalI ir && !s.boosted c then some .BOOSTER_UNDECLARED
    else none

/-- DECL_I as the writes on their way to a strobe leave it. -/
def State.declNext (s : State) (c : Nat) : Nat :=
  let r := s.gr (grpOf c)
  ((r.frozen ++ r.arrived).reverse.findSome? fun x =>
    match x.what with
    | .set o d _ v => if o = .DECL_I ∧ d = c then some v.toNat else none
    | _ => none).getD (s.rdN .DECL_I c)

/-- The governor reviews a request that will raise a channel's charge to `n` (R35, R37): it reserves the charge, or refuses. -/
def State.reserve (s : State) (c n : Nat) : State × Option Bool :=
  let s' := s.modCh c fun h => { h with pledge := if h.pledge < n then n else h.pledge }
  if s.admits s' then (s', some true) else (s, some false)

/-- The governor reviews an ARM as it reaches it (R37). One of a channel outside OFF is left to its strobe. -/
def State.armReview (s : State) (c : Nat) : State × Option Bool :=
  if (s.ch c).out = .off then s.reserve c (if s.boosted c then 5000000 else s.declNext c * 15) else (s, none)

/-- The governor reviews a write of DECL_I as it reaches it (R37). One of a channel that is charged nothing is left to its strobe. -/
def State.declReview (s : State) (c n : Nat) : State × Option Bool :=
  if s.commits c = 0 && !(s.ch c).out.charged then (s, none)
  else if s.boosted c || n * 15 ≤ s.commits c then (s, some true)
  else s.reserve c (n * 15)

/-- ARM at its strobe (R97, R99). `adm` is the governor's decision where the ARM reached it on arrival (R37). -/
def State.armAt (s : State) (c : Nat) (o : Origin) (adm : Option Bool := none) : State :=
  let h := s.ch c
  if h.out ≠ .off then s.reply o .STATE_CONFLICT
  else match s.outPre c with
  | some st => s.reply o st
  | none =>
    let s' := s.setOut c .armed true o.cause
    if !adm.getD (s.admits s') then s.refuseBudget.reply o .OUTPUT_BUDGET
    else
      let s := (s'.switches c).modCh c fun h => { h with dac := 0, armFrom := some s.now }
      match o with
      | .host a => s.modCh c fun h => { h with armAns := h.armAns ++ [a] }
      | _ => s.reply o .OK

/-- ENABLE at its strobe (R97, R100, R126). -/
def State.enableAt (s : State) (c : Nat) (o : Origin) : State :=
  let h := s.ch c
  if h.out ≠ .armed ∨ h.transit then s.reply o .STATE_CONFLICT
  else match s.outPre c with
  | some st => s.reply o st
  | none =>
    let s := ((s.setOut c .force false o.cause).switches c).loadCode c
    (s.modCh c fun h => { h with before := .force, limTicks := 0, freeTicks := 0 }).reply o .OK

/-- RESUME at its strobe (R97, R102): the frozen law continues; where FORCE_MODE has changed since, the bumpless load that R126 leaves
to RESUME continues from the held code (DEDUCED, log 71). -/
def State.resumeAt (s : State) (c : Nat) (o : Origin) : State :=
  let h := s.ch c
  if h.out ≠ .mute ∨ h.transit then s.reply o .STATE_CONFLICT
  else match s.outPre c with
  | some st => s.reply o st
  | none =>
    let s := s.setOut c h.before false o.cause
    (if h.run.law.fi != (s.rd .FORCE_MODE c == 1) then s.loadCode c else s).reply o .OK

/-- MUTE in force at this strobe from FORCE or COMPL (R101); `none` where it does nothing (R95). -/
def State.muteAt (s : State) (c cause : Nat) : Option State :=
  let h := s.ch c
  if h.out.loop && !h.transit then
    let s := s.setOut c .mute false cause
    some ((s.modCh c fun k => { k with before := h.out, run := { k.run with excur := 0 } }).slideMute c)
  else none

/-! ### OFF (R103, R128) -/

/-- The safe ramp generator runs the OFF ramp from the present target, open-loop at OFF_SLEW (R96, R103). -/
def State.rampOpen (s : State) (c : Nat) : State :=
  let t := (s.targetNow c).natAbs
  s.modCh c fun h => { h with run := { h.run with ramp := none }
                              rampEnd := some (s.now + ceilDiv (t * 1000) (s.rdN .OFF_SLEW c)) }

/-- A closed-loop OFF ramp that its engines no longer carry goes on open-loop (R96, R103). -/
def State.rampHand (s : State) (c : Nat) : State := if (s.ch c).run.ramp.isSome then s.rampOpen c else s

/-- The OFF ramp starts (R103, R128): closed-loop from the sense voltage where the law runs, else by the safe ramp
generator at OFF_SLEW. A channel held for calibration on its own slice has no live sample: its ramp runs open-loop (R328). The Slide ends; the Chanter
halts (Table "Halt reasons"). -/
def State.rampStart (s : State) (c : Nat) (cause : Nat) (a : List Origin) : State :=
  let s := (s.slideOff c).chtStopIf c 7
  let s := s.modCh c fun h => { h with transit := true, offCause := cause, offAns := h.offAns ++ a, offWait := false }
  if s.lawRuns (grpOf c) ∧ ¬ ((s.ch c).calHold ∧ (s.ch c).calMeas) then
    let s := s.modCh c fun h => { h with run := { h.run with ramp := some (h.v * 25000000), rampOn := false } }
    if s.rd .FORCE_MODE c = 1 then s.loadCode c else s
  else s.rampOpen c

/-- The channel reports OFF: its switches open, its charge ends, and the waiting requests are answered (R103, R106). -/
def State.offDone (s : State) (c : Nat) : State :=
  let h := s.ch c
  let s := (s.setOut c .off false h.offCause).switches c
  let s := s.modCh c fun h =>
    { h with offAns := [], rampEnd := none, run := { h.run with ramp := none, sel := 3, declHit := false } }
  s.replies h.offAns .OK

/-- OFF at its strobe (R95, R103): whoever started the ramp is answered at its end. Where a Slide has made and not broken before
this strobe, the ramp waits for the strobe after the break (Table "Slide collisions"); a group without strobes starts it at once (R96).
-/
def State.offAt (s : State) (c : Nat) (o : Origin) : State :=
  let h := s.ch c
  let a := [o]
  match h.out with
  | .off => s.reply o .OK true
  | .armed =>
    let s := ((s.setOut c .off false o.cause).switches c).chtStopIf c 7
    let s := s.modCh c fun h => { h with armAns := [], armFrom := none }
    (s.answers h.armAns .STATE_CONFLICT).reply o .OK
  | .safe => s.reply o .STATE_CONFLICT
  | .retired => s.reply o .FENCED
  | .force | .compl | .mute =>
    let host := match o with | .host _ => true | _ => false
    if h.transit || h.offWait then
      if host then s.modCh c fun h => { h with offAns := h.offAns ++ a } else s.reply o .OK true
    else
      let wait := s.strobes (grpOf c) && match h.slide.phase with
        | .made => true
        | .broken n => n == s.brokenFor c h.slide.oldIr
        | _ => false
      if wait then s.modCh c fun h => { h with offWait := true, offCause := o.cause, offAns := h.offAns ++ a }
      else s.rampStart c o.cause a

/-- OUT_CMD at its strobe by its code: 0 OFF, 1 ARM, 2 ENABLE, 4 RESUME; 3 MUTE ranks behind them (R95, R98). -/
def State.outAt (s : State) (c k : Nat) (o : Origin) (adm : Option Bool := none) : State :=
  if k = 0 then s.offAt c o else if k = 1 then s.armAt c o adm else if k = 2 then s.enableAt c o
  else if k = 4 then s.resumeAt c o
  else match s.muteAt c o.cause with
  | some s => s.reply o .OK
  | none =>
    let h := s.ch c
    let host := match o with | .host _ => true | _ => false
    if !host || h.out.live then s.reply o .OK true
    else s.reply o (if h.out = .retired then .FENCED else .STATE_CONFLICT)

/-! ### SAFE (R104, R347) -/

/-- A channel enters SAFE (R104): from ARMED and OFF at once, else with the safe ramp at 1 V/ms, which is 1 µV per ns.
Waiting requests are answered as R99 and R103 give; the Chanter and the Slide end (R347). -/
def State.safeEnter (s : State) (c : Nat) : State :=
  let h := s.ch c
  if h.out = .retired ∨ h.out = .safe then s
  else
    let t := (s.targetNow c - s.rd .SAFE_LEVEL c).natAbs
    let s := (s.chtStopIf c 7).slideEnd c .SAFE_STATE 9
    let s := s.setOut c .safe h.out.live 9
    let s := s.modCh c fun k => { k with armAns := [], offAns := [], offWait := false, armFrom := none, due := none
                                         run := { k.run with ramp := none, load := none, sel := 3, declHit := false }
                                         rampEnd := if h.out.live then some (s.now + t) else none }
    let s := if h.out.live then s else s.switches c
    (s.answers h.armAns .SAFE_STATE).replies h.offAns .OK

/-! ### Spare takeover and retirement (R93, R105, R342 to R346) -/

/-- Ticks after the fence strobe that the takeover blank holds: those with a sample before 4 µs after strobe n + 1
(R343). -/
def State.blankTicks (s : State) (g : Nat) : Nat := 1 + 4 / s.tickUs g

/-- The newest sample of a list is not kept. -/
def dropNewest : List Samp → List Samp
  | [] => []
  | x :: l => { x with kept := false } :: l

/-- The channel enters RETIRED (R105, R345): the sample of its last tick is not kept, and its first RETIRED record carries GAP (R346).
-/
def State.retire (s : State) (c : Nat) : State :=
  let h := s.ch c
  if h.out = .retired ∨ h.out = .safe ∨ s.standby (grpOf c) then s
  else
    let s := (s.chtStopIf c 7).slideEnd c .RANGE_REFUSED 4
    let s := (s.setOut c .retired false 10).switches c
    let s := s.modCh c fun k => { k with armAns := [], offAns := [], offWait := false, armFrom := none, rampEnd := none
                                         due := none, held := true, onSpare := false, taking := false, blank := 0
                                         run := { k.run with ramp := none, load := none, sel := 3, declHit := false }
                                         aper := { k.aper with gapRetired := true, samps := dropNewest k.aper.samps
                                                               agg := dropNewest k.aper.agg } }
    ((s.answers h.armAns .FENCED).replies h.offAns .OK).releaseEp c

/-- LOOP_HELD_TICKS counts a held tick once, whatever holds it (R129). -/
def State.countHeld (s : State) (c : Nat) : State :=
  (if (s.ch c).heldBit then s else s.inc .LOOP_HELD_TICKS c).modCh c fun h => { h with held := true, heldBit := true }

/-- A channel's evaluation in this tick is undone: the law, the counts of an excursion and of auto-range stay as they were before
the tick (R29, R129, R156). -/
def State.undo (s : State) (c : Nat) : State :=
  s.modCh c fun h =>
    { h with run := { h.old with ran := false, staged := none, sel := 3 }, held := true
             aper := { h.aper with arUp := h.aper.arUpWas, arDn := h.aper.arDnWas, arAsk := none } }

/-- The tick of a slot that misses staging is held (R129). -/
def State.discard (s : State) (c : Nat) : State := (s.undo c).countHeld c

/-- Crook moves the channel of a failed slice onto the spare (R93, R342, R343): the strobe has discarded this tick's evaluation, its
Slide ends, its switches open until the next strobe, and an interrupted unit begins again there (R229). -/
def State.takeover (s : State) (c : Nat) : State :=
  let g := grpOf c
  let s := s.slideEnd c .RANGE_REFUSED 4
  let s := s.modGr g fun r => { r with spare := 1, spareFor := homeOf c }
  let n := s.blankTicks g
  let s := (s.inc .CROOK_MOVES g).countHeld c
  s.modCh c fun h =>
    { h with onSpare := true, blank := n, taking := true
             apart := true, freshV := true, freshI := true, cht := { h.cht with again := h.cht.live }
             aper := { h.aper with pre := none, samps := dropNewest h.aper.samps, agg := dropNewest h.aper.agg } }

/-- The channel that calibration carries on the spare returns to its home slice and enters MUTE (R14, R328); a measurement of its home
slice that is under way goes on in hold. In the handover home the measurement is over, and ends with the next strobe. -/
def State.calEvict (s : State) (g : Nat) : State :=
  let r := s.gr g
  let c := 32 * g + r.spareFor
  if r.spare = 2 then
    let on := r.cal.phase = 1 ∧ r.cal.todo.head? = some r.spareFor
    let over_ := on ∧ r.hand ≠ 0 ∧ r.back
    let s := (s.inc .CROOK_MOVES g).modCh c fun h =>
      { h with onSpare := false, apart := true, calHold := decide on && h.out.live, calMeas := decide on }
    let s := s.modGr g fun r =>
      { r with spare := 0, hand := 0, back := false, cal := { r.cal with carried := false, heldAny := r.cal.heldAny || decide (on ∧ ¬ over_) } }
    let s := (s.muteAt c 8).getD s
    if over_ then s.push g none .calReturn else s
  else s

/-- A fence of slice position p in force at its strobe (R342, R345, R346): the channel it carries goes to the spare, or
retires. The home slice of a channel that calibration carries leaves it on the spare, which recovery holds from then on (DESIGN CHOICE,
log 102). -/
def State.sliceFenceAt (s : State) (g p : Nat) : State :=
  if p = 32 then
    let c := 32 * g + (s.gr g).spareFor
    if (s.gr g).spare = 1 ∨ (s.gr g).spare = 2 ∧ (s.ch c).onSpare ∧ s.fencedSrc (srcCrook g) then
      (s.retire c).modGr g fun r => { r with spare := 1, hand := 0, back := false, cal := { r.cal with carried := false } }
    else s.calEvict g
  else
    let c := 32 * g + p
    let h := s.ch c
    if h.out = .retired then s
    else if (s.gr g).spare = 2 ∧ (s.gr g).spareFor = p ∧ ¬ h.onSpare then
      let s := s.modGr g fun r => { r with hand := 0, back := false, cal := { r.cal with carried := false } }
      let s := s.modCh c fun h => { h with calSpan := false, calMeas := false }
      if s.fencedSrc (srcCrook g) ∨ s.fencedSrc (srcSlice g 32) then
        (s.retire c).modGr g fun r => { r with spare := 0 }
      else s.takeover c
    else if h.onSpare then
      let s := if (s.gr g).spare = 2 then
          ((s.muteAt c 8).getD s).modCh c fun h => { h with calSpan := false, calMeas := false }
        else s
      s.modGr g fun r => { r with spare := 1, hand := 0, back := false, cal := { r.cal with carried := false } }
    else
      let can := (s.gr g).spare ≠ 1 ∧ ¬ s.fencedSrc (srcCrook g) ∧ ¬ s.fencedSrc (srcSlice g 32)
      if can then (s.calEvict g).takeover c else s.retire c

end Sys2Proof.Machine
end

