-- ==== Sys2Proof/Machine/Safe.lean ====
section
/-! DEFINITION. The safe state (R104, R255, R347, R349, R416), and what it ends: calibration commands (R327) and the
ledger commit that it starts (R437). -/
namespace Sys2Proof.Machine
open Sys2Proof

/-! ### The end of a calibration command (R327) -/

/-- The named slice positions of a command, ascending, the spare last (R317, R320). -/
def State.calNamed (s : State) (g : Nat) : List Nat :=
  ((List.range 32).filter fun p => bit (s.rdN .CAL_CHANNELS g) p) ++
    (if s.rdT .CAL_SPARE g ∧ (s.rd .CAL_KIND g = 1 ∨ s.rd .CAL_KIND g = 4) then [32] else [])

/-- The slice position that is measured for a named position: the spare for a channel that recovery carries (R320). -/
def State.calPos (s : State) (g p : Nat) : Nat := if p < 32 ∧ (s.ch (32 * g + p)).onSpare ∧ (s.gr g).spare = 1 then 32 else p

/-- A slice of the command of a group, or the spare that carries a channel for it (R326). -/
def State.calUses (s : State) (g p : Nat) : Bool :=
  ((s.calNamed g).any fun q => q == p || s.calPos g q == p) || (p == 32 && (s.gr g).spare == 2)

/-- A calibration copy with new elements. -/
def calWith (m : SMap (Option CalElem)) (l : List (Nat × CalElem)) : SMap (Option CalElem) :=
  l.foldl (fun m p => m.put (fun _ => none) p.1 (some p.2)) m

/-- The new elements of the commands that await their commit strobe (R325). -/
def State.calWaiting (s : State) : List (Nat × CalElem) :=
  (allGroups.filter fun j => (s.gr j).cal.phase == 3).flatMap fun j => (s.gr j).cal.fresh

/-- Commits whose elements the store already holds and whose strobe has not come (R325, R326). -/
def State.calOwed (s : State) : Nat := (allGroups.filter fun g => (s.gr g).cal.phase == 3).length

/-- A store becomes the active half, in place of the idle one (R325). -/
def State.calActivate (s : State) (copy : SMap (Option CalElem)) : State :=
  let half := 1 - s.nvm.calActive
  let v := s.nvm
  let v := if half = 0 then { v with cal0 := copy } else { v with cal1 := copy }
  { s with nvm := { v with calActive := half, calBad := setBit v.calBad half false } }.wr .CAL_HALF 0 0 half

/-- A command that ends between activation and commit strobe leaves the store without its elements (R327; DEDUCED, log 103). -/
def State.calUndo (s : State) (g : Nat) : State :=
  if (s.gr g).cal.phase ≠ 3 then s
  else
    let s := s.modGr g fun r => { r with cal := { r.cal with fresh := [] } }
    s.calActivate (calWith s.cal s.calWaiting)

/-- The channels of a group are no longer under calibration (R318, R320): switches of OFF and ARMED are set again. -/
def State.calRelease (s : State) (g : Nat) : State :=
  s.each (chansOf g) fun s c =>
    let h := s.ch c
    if h.calBusy ∨ h.calMeas ∨ h.calHold then
      let carried := (s.gr g).spare = 2 ∧ (s.gr g).spareFor = homeOf c
      let s := s.modCh c fun h => { h with calBusy := false, calMeas := false, calHold := false
                                           calSpan := if carried then h.calSpan else false }
      if h.calMeas ∧ (h.out = .off ∨ h.out = .armed) then
        let d := h.dac
        (s.switches c).modCh c fun h => { h with dac := if h.out = .armed then d else h.dac }
      else s
    else s

/-- A calibration command ends without a commit (R327): its result, the report, and the return of a channel that the
spare carries. A command whose start check still runs answers with a status instead (R319). -/
def State.calEnd (s : State) (g result : Nat) (st : Status) : State :=
  let k := (s.gr g).cal
  match k.starting with
  | some a => (s.modGr g fun r => { r with cal := {} }).answer (some a) st
  | none =>
    if k.phase = 0 then s
    else
      let s := (s.report srcCal 0x26 g result).calUndo g
      let s := s.wr .CAL_RESULT g 0 result
      let s := s.calRelease g
      let s := if k.carried ∧ ¬ s.latch then s.push g none .calReturn else s
      s.modGr g fun r => { r with cal := {} }

/-! ### Log copies (R353, R437) -/

/-- Pages of a log ring, 256 elements each, whose copy differs. -/
def logPages (ring copy : SMap Nat) : List Nat :=
  ((((ring ++ copy).map (·.1)).filter fun k => ring.get (fun _ => 0) k ≠ copy.get (fun _ => 0) k).map (· / 256)).eraseDups

/-- New elements of the fault and event logs go to bank 14 (R353, R437), page by page, once the boot has reloaded the ring; with them the
lifetime counters. -/
def State.copyLogs (s : State) : State :=
  if s.pwr.stage < 4 then s
  else
    let l := ((logPages s.flt.log s.nvm.flog).map fun p => (14, p)) ++ (logPages s.rtr.log s.nvm.elog).map fun p => (14, 16 + p)
    (s.nvmDrop (l.filter s.pageDead)).nvmPut (if l.isEmpty then [] else l ++ recPages 2)

/-- A page of a log copy takes the elements that the ring holds by now (R431). -/
def logTake (ring copy : SMap Nat) (p : Nat) : SMap Nat :=
  (ring.filter fun x => x.1 / 256 = p).foldl (fun m x => m.put (fun _ => 0) x.1 x.2) (copy.filter fun x => x.1 / 256 ≠ p)

/-- A page of NVM has been written and verified: what waited for it is there. A ledger line that has not changed since the commit began is
clean (R437). -/
def State.pageDone (s : State) (p : Nat × Nat) : State :=
  let s := { s with drn := { s.drn with writes := s.drn.writes.erase p } }
  if p.1 < 8 then
    match s.mtx.committing with
    | some l =>
      let here := l.filter fun x => ledPage x.1 = p
      { s with nvm := { s.nvm with ledger := here.foldl (fun m x => m.put (fun _ => 0) x.1 x.2) s.nvm.ledger }
               mtx := { s.mtx with committing := some (l.filter fun x => ledPage x.1 ≠ p)
                                   dirty := s.mtx.dirty.filter fun k => !here.contains (k, s.mtx.ledger.get (fun _ => 0) k) } }
    | none => s
  else if p.1 = 14 ∧ p.2 < 16 then
    let n := s.rdN .FLT_LOG_NEWEST
    { s with nvm := { s.nvm with flog := logTake s.flt.log s.nvm.flog p.2, flogNewest := if n / 256 = p.2 then n else s.nvm.flogNewest } }
  else if p.1 = 14 ∧ p.2 < 32 then
    let n := s.rdN .EV_LOG_NEWEST
    { s with nvm := { s.nvm with elog := logTake s.rtr.log s.nvm.elog (p.2 - 16)
                                 elogNewest := if n / 256 = p.2 - 16 then n else s.nvm.elogNewest } }
  else s

/-! ### Ledger commits (R254, R437) -/

/-- Drone starts a commit of the dirty lines with the values that they hold, one write for each page that holds some; pages of a dead bank
are dropped and their lines stay dirty (R436; DEDUCED, log 107). Requests wait for its completion (R437). Where one runs
already, another follows it at once: a safe entry or a full cache does not wait for the next occasion (R254, R347). -/
def State.commitStart (s : State) (a : List Ans) : State :=
  match s.mtx.committing with
  | some _ => { s with mtx := { s.mtx with commitNext := s.mtx.commitNext ++ a, commitMore := true } }
  | none =>
    let l := s.mtx.dirty.map fun p => (p, s.mtx.ledger.get (fun _ => 0) p)
    let live := l.filter fun x => !s.pageDead (ledPage x.1)
    let lost := ((l.filter fun x => s.pageDead (ledPage x.1)).map fun x => ledPage x.1).eraseDups
    let s := (s.nvmDrop lost).nvmPut (live.map fun x => ledPage x.1).eraseDups
    { s with mtx := { s.mtx with committing := some live, commitMore := false, commitAt := s.now, commitAns := a } }

/-! ### Safe state (R347) -/

/-- A coded message (Table "Fault message", R330). -/
def faultWord (m : FaultMsg) : Nat := m.source % 2 ^ 12 * 2 ^ 40 + m.kind % 2 ^ 8 * 2 ^ 32 + m.address % 2 ^ 24 * 2 ^ 8 + m.detail % 2 ^ 8

/-- A report as a fault log element with COAL and COUNT (Table "Fault log element", R352): its message stands behind time and class. -/
def logElement (r : Report) (coal count : Nat) : Nat :=
  let cls := match r.cls with | .note => 0 | .transient => 1 | .severe => 2 | .grave => 3
  r.at_ / 4294967296 % 2 ^ 32 * 2 ^ 96 + r.at_ % 4294967296 * 2 ^ 66 + cls * 2 ^ 64 + faultWord r.m * 2 ^ 12 + coal * 2 ^ 10 + count

/-- Once every slice has isolated, BREAK_ALL goes to every line that is not fenced, where SAFE_MATRIX says so (R255). -/
def State.safeIsolated (s : State) : State :=
  if s.safeBreak ∧ s.chan.all (fun p => !(p.2.out == .safe && p.2.transit)) then
    let s := { s with safeBreak := false }
    if s.rdT .SAFE_MATRIX then
      let s := s.each (s.chan.map fun x => x.1) fun s c =>
        let l := (s.ch c).hold.want.map (·.2)
        (s.modHold c fun h => { h with want := [] }).answers l .SAFE_STATE
      let s := { s with mtx := { s.mtx with claims := [], waiting := s.mtx.waiting.filter fun t => t.restart } }
      let open_ := (List.range 8).filter fun l => !s.lineFenced l
      if open_.isEmpty then s.endAll
      else s.each open_ fun s l => s.addTxn (newTxn (none) (l) s.now [(0, opBreakAll, 0), (0, opNop, 0)])
    else s
  else s

/-- A channel isolates without a ramp and enters SAFE (R416). -/
def State.safeAtOnce (s : State) (c : Nat) : State :=
  let s := s.safeEnter c
  if (s.ch c).out = .safe then
    (s.modCh c fun h => { h with transit := false, rampEnd := none }).switches c
  else s

/-- TYPE of a cell (Table "Pair cell"). -/
def PairCell.type : PairCell → Nat
  | .heartbeat .. => 1 | .state _ => 2 | .config _ => 3 | .fail => 4 | .groupFail _ => 5 | .handover .. => 6 | .ack _ => 7

/-- The characters of a pair cell behind its comma (Table "Pair cell"). -/
def cellChars (type seq : Nat) (payload : List Byte) : List Byte :=
  let b := beBytes 1 type ++ beBytes 2 seq ++ payload
  b ++ beBytes 2 (crc16 b)

/-- A cell leaves on transmit lane 2 or 3 with the lane's cell counter (R408). The encoding of its payload belongs to the part: its bytes
are free values (log 75). -/
def State.laneSend (s : State) (lane : Nat) (c : PairCell) : State :=
  let seq := if lane = 2 then s.pair.seq0 else s.pair.seq1
  let b := cellChars c.type seq ((List.range 26).map (Config.cellByte s.fresh))
  let next := (seq + 1) % 65536
  { s.send (.cell lane seq c b) with
    fresh := s.fresh + 1, pair := if lane = 2 then { s.pair with seq0 := next } else { s.pair with seq1 := next } }

/-- A transmit lane is up (R408). -/
def State.laneUp (s : State) (lane : Nat) : Bool := bit (s.rdN .PAIR_LANES) lane

/-- A cell leaves ahead of all that waits, by the lower lane that is up (R408; DESIGN CHOICE, log 75). -/
def State.sendCell (s : State) (c : PairCell) : State :=
  if s.laneUp 2 then s.laneSend 2 c else if s.laneUp 3 then s.laneSend 3 c else s

/-- A handover under way ends without effect (R417). -/
def State.giveEnd (s : State) (g : Nat) : State :=
  let p := (s.gr g).pair
  match p.give with
  | none => s
  | some _ => (s.modGr g fun r => { r with pair := { r.pair with give := none, acked := false, ans := none } }).answer p.ans .FENCED

/-- A change reaches a group with the decision instant `ns` from now: at strobe h, the first whose staging is still open 200 ns after it
(R414); staging closes at clock 48 (R27). -/
def State.pushAt (s : State) (g ns : Nat) (w : What) : State :=
  let x := s.now - (s.gr g).tickAt + (if s.tickUs g = 1 then 1000 else 0)
  if (s.gr g).opened ∧ 1500 ≤ x + ns + 200 then s.modGr g fun r => { r with later := r.later ++ [{ ans := none, what := w }] }
  else s.push g none w

/-- The groups whose partner group stands by, ready to take over (R416). -/
def State.peerGroups (s : State) : List Nat :=
  allGroups.filter fun g => (s.gr g).pair.partner == 4 && (s.rd .PAIR_ROLE g == 1 || s.rd .PAIR_ROLE g == 2)

/-- The FAIL cell, where a group has a partner that stands by (R416). -/
def State.failCellOut (s : State) (peer : List Nat) : State :=
  if peer.isEmpty then s
  else
    let s := s.sendCell .fail
    { s with pair := { s.pair with failSent := true } }

/-- Deep sleep entry stops (R463). -/
def State.sleepStop (s : State) : State :=
  if s.pwr.entry = 0 then s
  else
    let a := s.pwr.ans
    let s := { s with pwr := { s.pwr with entry := 0, ans := none, wake := none } }
    (s.wr .PWR_STATE 0 0 1).runState.answer a .SAFE_STATE

/-- The device wakes into the safe state (R462). -/
def State.safeWake (s : State) : State :=
  if s.pwr.asleep then s.wakeBy 3 0 else s

/-- The device enters the safe state (R347): latch, nSAFE, ramps, calibration commands, deep sleep entry, and the
commit of ledger and fault log. -/
def State.safeTrip (s : State) : State :=
  if s.latch then s
  else
    let s := { s with latch := true, nSafe := true, safeBreak := true }
    let peer := s.peerGroups
    let s := (s.failCellOut peer).each allGroups fun s g => s.giveEnd g
    let s := s.each allGroups fun s g => s.calEnd g 9 .SAFE_STATE
    let s := s.each (s.chan.map fun p => p.1) fun s c => s.chtStopIf c 7
    let s := s.each allChans fun s c => if peer.contains (grpOf c) then s.safeAtOnce c else s.safeEnter c
    let s := s.each allGroups fun s g => s.modGr g fun k => { k with later := [], trips := [] }
    ((s.sleepStop.safeWake).commitStart []).safeIsolated

/-- The device enters the safe state for a report, which FLT_SAFE_CAUSE keeps (R347, R349). -/
def State.safeEntry (s : State) (r : Report) : State :=
  if s.latch then s else { s with cause := some (logElement r 0 1) }.safeTrip

/-- A unit asks for the safe state and reports SAFE_REQ (R293, R347). -/
def State.safeReq (s : State) (src addr detail : Nat) : State :=
  let r : Report := ⟨⟨src, 0x07, addr, detail, .grave⟩, .grave, s.stampNow⟩
  (s.report src 0x07 addr detail .grave).safeEntry r

end Sys2Proof.Machine
end

