-- ==== Sys2Proof/Machine/Router.lean ====
section
/-! DEFINITION. The event router (R289 to R305): edges, assertions, the four action slots with their rights, and the
triggers that waiting Chanter units take. -/
namespace Sys2Proof.Machine
open Sys2Proof

/-! ### Rights (R56, R58, R298) -/

/-- Steps 2 and 4 of the access checks against a unit's OWNER and SECURE, for a requester's rights (R45, R298). -/
def unitCheck (owner : Nat) (secure : Bool) (unitOwner : Nat) (unitSecure : Bool) : Option Status :=
  if unitSecure && !secure then some .SECURE_ONLY
  else if unitOwner ≠ 0 ∧ unitOwner ≠ owner then some .NOT_OWNER
  else none

/-- Rights on a channel's unit. -/
def State.chanRights (s : State) (owner : Nat) (secure : Bool) (c : Nat) : Option Status :=
  unitCheck owner secure (s.rdN .CH_OWNER c) (s.rdT .CH_SECURE c)
/-- Rights on a group's unit. -/
def State.groupRights (s : State) (owner : Nat) (secure : Bool) (g : Nat) : Option Status :=
  unitCheck owner secure (s.rdN .GROUP_OWNER g) (s.rdT .GROUP_SECURE g)
/-- Rights on the configuration unit. -/
def State.configRights (s : State) (owner : Nat) (secure : Bool) : Option Status :=
  unitCheck owner secure (s.rdN .CONFIG_OWNER) (s.rdT .CONFIG_SECURE)

/-! ### Triggers (R210, R214) -/

/-- A Chanter takes an assertion of event channel n: its begun unit's trigger, or the end of an indefinite dwell (R210,
R214). A paused or frozen Chanter takes none. -/
def takeTrig (n : Nat) (frozen : Bool) (t : Chanter) : Chanter :=
  if t.paused || frozen then t
  else
    { t with
      nu := if t.begun && t.nu.waits && eTrig t.nu.entry.toNat == n then { t.nu with trig := true } else t.nu
      stopTrig := t.stopTrig || (t.live && !t.begun && t.st == .dwell && t.cur.dwell == none &&
        eTrigEn t.cur.entry.toNat && eTrig t.cur.entry.toNat == n) }

/-- Every waiting Chanter takes the assertion (R214). -/
def State.trigTake (s : State) (n : Nat) : State :=
  { s with chan := s.chan.map fun p => (p.1, { p.2 with cht := takeTrig n (s.frozen p.1) p.2.cht }) }

/-! ### Mode switches (R70) -/

/-- A mode switch reaches the configuration engine: it is validated next, or waits (R70). -/
def State.startSwitch (s : State) (w : Switch) : State :=
  match s.cfg.cur with
  | none => { s with cfg := { s.cfg with cur := some w } }
  | some _ => { s with cfg := { s.cfg with waiting := s.cfg.waiting ++ [w] } }

/-! ### Pulses (R267, R295) -/

/-- One MTRGO pulse rises, or merges into a high level (R267). -/
def State.mtrgoRise (s : State) : State :=
  if s.mtrgo.high then s else { s with mtrgo := { high := true, since := s.now } }.inc .MTRGO_COUNT

/-- An EVO action: 0 PULSE, 1 SET, 2 CLEAR, 3 TOGGLE (R295). -/
def State.evoAct (s : State) (ball k : Nat) : State :=
  let r := s.rtr
  if k = 0 then
    let e := s.now + 950 * s.rdN .EVO_PULSE_W 0 ball
    { s with rtr := { r with pulses := setBit r.pulses ball true, evoEnd := r.evoEnd.put (fun _ => 0) ball e } }
  else
    let v := if k = 1 then true else if k = 2 then false else !bit r.evo ball
    { s with rtr := { r with evo := setBit r.evo ball v } }

/-! ### Actions (R293, R298, R299) -/

/-- Fields of an action word (Table "Action word"). -/
def aOp (w : Nat) : Nat := bits w 28 4
def aScope (w : Nat) : Bool := bit w 27
def aCh (w : Nat) : Nat := bits w 18 9
def aArg (w : Nat) : Nat := bits w 0 16

/-- An action that deep sleep drops (R303). -/
def State.sleepDrop (s : State) (o : Origin) : State :=
  match o with
  | .event _ k id => (s.inc .EV_SLEEP_DROPS).asrtStep id k false false
  | _ => s

/-- The conditions of the router for an action on a channel (R302). -/
def State.actPre (s : State) (c : Nat) : Option Status :=
  if s.standby (grpOf c) then some .PAIR_STANDBY
  else if (s.ch c).out = .retired then some .FENCED
  else none

/-- The status of START where the group has no strobes: steps 1 to 3 of R226, then that nothing can begin (R47). -/
def State.startHeld (s : State) (c : Nat) : Status :=
  if s.latch then .SAFE_STATE
  else if s.standby (grpOf c) then .PAIR_STANDBY
  else (s.engineFence c).getD .STATE_CONFLICT

/-- A range request in a group without strobes is refused: by a check of R139, or since no Slide can run (R47). -/
def State.rangeHeld (s : State) (c : Nat) (r : RangeReq) : State :=
  let (st, k) := (s.rangeCheck c r).getD (.STATE_CONFLICT, 4)
  s.rangeRefuse c r st k

/-- An OUT action on a channel (R97, R293). A group without strobes takes OFF at a TBA tick (R96), and MUTE changes nothing there. -/
def State.actOut (s : State) (k : Nat) (o : Origin) (c : Nat) : State :=
  let g := grpOf c
  match (if k = 1 ∨ k = 2 ∨ k = 4 then s.outPre c else s.actPre c) with
  | some st => s.reply o st
  | none =>
    if s.strobes g then
      let (s, adm) := if k = 1 then s.armReview c else (s, none)
      s.push g none (.out c k o) adm
    else if k = 0 then if (s.ch c).out = .off then s.reply o .OK true else s.push g none (.out c k o)
    else if k = 3 then s.reply o .OK true
    else s.reply o .STATE_CONFLICT

/-- A CHANTER action on a channel, as a write of CHT_CMD (R225, R293): in a group without strobes it is stored and done with (R47),
unless it changes nothing (R299). -/
def State.actCht (s : State) (k : Nat) (o : Origin) (c : Nat) : State :=
  let g := grpOf c
  match (if k = 1 then none else s.actPre c) with
  | some st => s.reply o st
  | none =>
    if s.strobes g then s.push g none (.cht c k o)
    else if k = 1 then s.reply o (s.startHeld c)
    else if (k = 0 ∧ (s.ch c).cht.st = .idle) ∨ (k = 2 ∧ (s.ch c).cht.paused) then s.reply o .OK true
    else (s.push g none (.cht c k (.host none))).reply o .OK

/-- A RANGE action on a channel: a range request with the checks of R139 (R137, R293). -/
def State.actRange (s : State) (arg : Nat) (o : Origin) (c : Nat) : State :=
  let r : RangeReq := { vr := some (bits arg 4 4), ir := some (bits arg 0 4), src := o }
  if s.strobes (grpOf c) then s.push (grpOf c) none (.range c r) else s.rangeHeld c r

/-- An action that would drive an output, start an engine or move a range: deep sleep entry refuses it like a write (R298, R459). -/
def actStarts (op arg : Nat) : Bool :=
  match op with
  | 1 => arg == 1 || arg == 2 || arg == 4
  | 2 => arg == 1
  | 3 => true
  | _ => false

/-- OUT, CHANTER or RANGE delivered to one channel (R293, R298), in deep sleep to none (R303). -/
def State.actChannel (s : State) (op arg : Nat) (owner : Nat) (secure : Bool) (o : Origin) (c : Nat) : State :=
  if s.pwr.asleep then s.sleepDrop o
  else match s.chanRights owner secure c with
  | some st => s.reply o st
  | none =>
    if s.pwr.entry ≠ 0 ∧ actStarts op (arg % 256) then s.reply o .STATE_CONFLICT
    else if op = 1 then s.actOut (arg % 256) o c
    else if op = 2 then s.actCht (arg % 256) o c
    else s.actRange (arg % 256) o c

/-- The action of slot k of an assertion (Table "Action operations"). -/
def State.actSlot (s : State) (n id k w owner : Nat) (secure : Bool) : State :=
  let o : Origin := .event n k id
  let op := aOp w
  let arg := aArg w
  if op = 0 then s
  else if op ≤ 3 then
    s.each (if aScope w then chansOf (aCh w / 32) else [aCh w]) fun s c => s.actChannel op arg owner secure o c
  else if op = 4 then
    if s.pwr.asleep then s.sleepDrop o
    else if s.pwr.entry ≠ 0 then s.reply o .STATE_CONFLICT
    else s.startSwitch ⟨arg % 16, o, owner, secure⟩
  else if op = 9 then
    if !secure then s.reply o .SECURE_ONLY
    else match s.configRights owner secure with
    | some st => s.reply o st
    | none => if s.latch then s.reply o .OK true else (s.safeReq srcRouter n k).reply o .OK
  else if op = 8 ∧ s.pwr.asleep then s.sleepDrop o
  else match s.configRights owner secure with
  | some st => s.reply o st
  | none =>
    if op = 5 ∨ op = 6 then
      let old := s.rdN .EG_EN
      let v := if op = 5 then old ||| arg else old - (old &&& arg)
      (s.wr .EG_EN 0 0 v).reply o .OK (v == old)
    else if op = 7 ∧ s.rdT .PAIR_EN ∧ s.rdN .PAIR_WIT_EVO = bits arg 8 4 then s.reply o .OK true
    else if op = 7 then (s.evoAct (bits arg 8 4) (bits arg 0 2)).reply o .OK
    else s.mtrgoRise.reply o .OK

/-! ### Assertions (R290, R291) -/

/-- Deliveries of an action word, each with an outcome. -/
def deliveries (w : Nat) : Nat :=
  if aOp w = 0 then 0 else if aOp w ≤ 3 ∧ aScope w then 32 else 1

/-- The time stamp of an assertion; in deep sleep calendar seconds with nanoseconds 0 (Table "Event log element"). -/
def State.asrtTime (s : State) (at_ : Nat) : Nat :=
  if s.pwr.asleep then s.rtc / 1000000000 * 4294967296 else time80 (s.tbp + at_)

/-- Event channel n asserts for a cause (R290, R293): its slots act in order with the rights, the words and the log bit
of this instant, `at_` ns from now. -/
def State.assertEv (s : State) (n cause : Nat) (at_ : Nat := 0) : State :=
  let ctrl := s.rdN .EV_CTRL n
  let ws := (List.range 4).map fun k => s.rdN .EV_ACT n k
  let owner := s.rdN .EV_OWNER n
  let secure := s.rdT .EV_SECURE n
  let id := s.rtr.nextId
  let t := s.asrtTime at_
  let s := (s.inc .EV_ASSERTS n).wr .EV_LAST n 0 t
  let a : Asrt := { id := id, ev := n, cause := cause, time := t, merged := false, denied := 0, noop := 0
                    no := s.rdN .EV_ASSERTS n, left := (ws.map deliveries).sum + 1, log := bit ctrl 1 }
  let s := { s with rtr := { s.rtr with opn := s.rtr.opn ++ [a], nextId := id + 1
                                        started := s.rtr.started.put (fun _ => 0) n (s.now + at_ + 1)
                                        lastId := s.rtr.lastId.put (fun _ => 0) n (id + 1)
                                        lastLog := s.rtr.lastLog.put (fun _ => 0) n 0 } }
  let s := if (s.pwr.asleep ∨ s.pwr.entry ≠ 0) ∧ bit ctrl 2 then s.wakeBy 1 n else s
  let s := s.trigTake n
  let s := s.each ((List.range 4).zip ws) fun s p => s.actSlot n id p.1 p.2 owner secure
  s.asrtStep id 0 false false

/-- The event channel is enabled (R289). -/
def State.evEnabled (s : State) (n : Nat) : Bool := bit (s.rdN .EV_CTRL n) 0 && bit (s.rdN .EG_EN) (n / 16)

/-- An edge merges into the latest assertion of event channel n, whose element, where it is written already, carries MERGED too
(R290, R304). -/
def State.merge (s : State) (n : Nat) : State :=
  let r := s.rtr
  let id := r.lastId.get (fun _ => 0) n
  let k := r.lastLog.get (fun _ => 0) n
  { s.inc .EV_MERGED n with
    rtr := { r with opn := r.opn.map fun a => if a.id + 1 = id then { a with merged := true } else a
                    log := if k = 0 then r.log
                      else r.log.put (fun _ => 0) (k - 1) (setBit (r.log.get (fun _ => 0) (k - 1)) 22 true) } }

/-- An edge reaches event channel n, `at_` ns from now: ignored while disabled, merged within 20 ns of an assertion's start, else an
assertion (R290, R291). -/
def State.edgeAt (s : State) (n sel : Nat) (at_ : Nat := 0) : State :=
  if !s.evEnabled n then s.inc .EV_IGNORED n
  else
    let t := s.rtr.started.get (fun _ => 0) n
    let x := s.now + at_
    if t ≠ 0 ∧ x < t - 1 + 20 ∧ t - 1 < x + 20 then s.merge n else s.assertEv n sel at_

/-- The event channels that select a producer edge, ascending: a selector at its default selects nothing (R292). -/
def State.selecting (s : State) (sel : Nat) : List Nat :=
  (s.od.filterMap fun p =>
    let idx := p.1 / 256
    let sub := p.1 % 256
    if 0x3200 ≤ idx ∧ idx < 0x3300 ∧ 2 ≤ sub ∧ sub < 18 ∧ p.2 = .num sel then some (idx - 0x3200) else none).eraseDups

/-- A producer edge reaches the router, `at_` ns from now: every event channel that selects it asserts once (R290). -/
def State.edge (s : State) (sel : Nat) (at_ : Nat := 0) : State := s.each (s.selecting sel) fun s n => s.edgeAt n sel at_

end Sys2Proof.Machine
end

