-- ==== Sys2Proof/Machine/Measure.lean ====
section
/-! DEFINITION. The measurement chain (R163 to R193): filter stages, samples, records, threshold events, auto-range,
aggregates and the record buffer. -/
namespace Sys2Proof.Machine
open Sys2Proof

/-! ### Filter stages (R165 to R171) -/

/-- The accumulator of a stage: 48 bits that saturate (R166). -/
def sat48 (x : Int) : Int := clampI (-140737488355328) 140737488355327 x

/-- A FIR sum after round24: taps in FRAC18 codes, samples newest first (R166). -/
def firSum (taps xs : List Int) : Int := round24 ((taps.zip xs).foldl (fun a p => sat48 (a + p.1 * p.2)) 0)

/-- One more running sum over 8 samples. -/
def boxcar (l : List Int) : List Int :=
  (List.range (l.length + 7)).map fun n => ((List.range 8).map fun j => if j ≤ n then l.getD (n - j) 0 else 0).sum

/-- The impulse response of the fourth-order CIC that decimates by 8, of gain 4096 (R165). -/
def cicTaps : List Int := boxcar (boxcar (boxcar (boxcar [1])))

/-- Eight quantiser codes enter the CIC: their history, newest first, and the output. A code of 3 is the value 0.75, the end of the
stable input, so that the normalisation to FRAC24 is exact (R162, R163, R166; DEDUCED, log 77). -/
def cicStep (h codes : List Int) : List Int × Int :=
  let h := (codes.reverse ++ h).take 29
  (h, 512 * ((cicTaps.zip h).map fun p => p.1 * p.2).sum)

/-- `n` CIC outputs of codes, oldest first. -/
def cicRun : Nat → List Int → List Int → List Int × List Int
  | 0, h, _ => (h, [])
  | n + 1, h, l =>
    let (h, y) := cicStep h (l.take 8)
    let (h, ys) := cicRun n h (l.drop 8)
    (h, y :: ys)

/-- The half-band taps (Table "Filter stages"). -/
def halfBand : List Int := [-4096, 0, 36864, 65536, 36864, 0, -4096]

/-- Two CIC outputs enter the half-band, whose output passes the calibration and the pre-averager of 2^k (R165, R168). -/
def hbStep (k : Nat) (cal : Int → Int) (f : Filt) (a b : Int) : Filt :=
  let hb := (b :: a :: f.hb).take 7
  let y := cal (firSum halfBand hb)
  let acc := sat48 (f.acc + y)
  let f := { f with hb := hb, cal := (y :: f.cal).take 64 }
  if f.accN + 1 = 2 ^ k then { f with pre := (roundEven acc (2 ^ k) :: f.pre).take 16, acc := 0, accN := 0 }
  else { f with acc := acc, accN := f.accN + 1 }

/-- The substitute for a sample at a place `x` of the frame grid: from an overload's detection to 2 µs after the input's return
(R163). -/
def ovlAt (x : Nat) : List (Nat × Option Int) → Option Int
  | [] => none
  | (t, y) :: l =>
    if x < t then ovlAt x l
    else match y with
      | some y => some y
      | none => if x ≤ t + 8000 then l.head?.bind (·.2) else none

/-- What later samples still need of the overloads once those up to `x` have been delivered. -/
def ovlTrim (x : Nat) : List (Nat × Option Int) → List (Nat × Option Int)
  | [] => []
  | (t, y) :: l =>
    if x < t then (t, y) :: ovlTrim x l
    else match y with
      | some y => [(t, some y)]
      | none => if x < t + 8000 then (t, none) :: l.take 1 else []

/-- How the stages take samples around a strobe (R147): `left` is 0 where all are taken as they are now, else one more than the
samples still to come whose instants do not lie after it. Those are calibrated as before, and what they left is then
converted to the ranges now in force; so is a loop sample that they alone have formed (R146). -/
structure Turn where
  left : Nat
  old : Int → Int
  new : Int → Int
  conv : Int → Int
  loop : Int → Int

/-- The stages' samples converted to other ranges (R140, R147). -/
def Filt.converted (f : Filt) (conv : Int → Int) : Filt :=
  { f with cal := f.cal.map conv, pre := f.pre.map conv, acc := conv f.acc }

/-- A half-band output with its calibration. -/
def turnStep (k : Nat) (t : Turn) (f : Filt) (a b : Int) : Turn × Filt :=
  match t.left with
  | 0 => (t, hbStep k t.new f a b)
  | 1 => ({ t with left := 0 }, hbStep k t.new (f.converted t.conv) a b)
  | n + 2 => ({ t with left := n + 1 }, hbStep k t.old f a b)

/-- CIC outputs through one modulator's further stages: one record-path sample per microsecond, oldest first (R165, R171). -/
def feedCic (k : Nat) (rec_ : List Int) : List Int → Turn → Filt → Turn × Filt × List Int
  | a :: b :: c :: d :: l, t, f =>
    let (t, f) := turnStep k t f a b
    let (t, f) := turnStep k t f c d
    let y := firSum rec_ f.cal
    let (t, f, ys) := feedCic k rec_ l t f
    (t, f, y :: ys)
  | _, t, f => (t, f, [])

/-- The loop sample of a modulator: the FIR over the pre-averaged samples, or the overload substitute (R163, R168). -/
def loopSample (taps : List Int) (f : Filt) (recs : List (Int × Bool)) (conv : Int → Int) : Int :=
  match recs.getLast? with
  | some (y, true) => y
  | _ => conv (firSum taps f.pre)

/-- The codes of one tick through one modulator's stages: the record-path samples, each with whether it is a substitute, of which the
first lies at `x` on the frame grid; and the loop sample. A loop sample formed ahead of the strobe alone is converted whole (R146).
-/
def feed (k : Nat) (rec_ loop : List Int) (x : Nat) (codes : List Int) (t : Turn) (f : Filt) : Filt × List (Int × Bool) × Int :=
  let (h, ys) := cicRun (codes.length / 8) f.cic codes
  let (t, f, ys) := feedCic k rec_ ys t { f with cic := h }
  let ys := ((List.range ys.length).zip ys).map fun p =>
    match ovlAt (x + 4000 * p.1) f.ovl with
    | some y => (y, true)
    | none => (p.2, false)
  let l := loopSample loop f ys (if t.left = 0 then id else t.loop)
  let f := if t.left = 0 then f else f.converted t.conv
  ({ f with ovl := ovlTrim (x + 4000 * (ys.length - 1)) f.ovl }, ys, l)

/-- The taps of the group's FIR objects (R168, R171). -/
def State.loopTaps (s : State) (g : Nat) : List Int := (List.range 16).map fun e => s.rd .LOOP_FIR g e
def State.recTaps (s : State) (g : Nat) : List Int := (List.range (s.rdN .REC_FIR_LEN g)).map fun e => s.rd .REC_FIR g e

/-- The resistance that a channel's shunt voltage in slice k is divided by, over the nominal shunt of its range: the shunt, or in
the overlap of a Slide both in parallel (R146, R167). -/
def State.resRatio (s : State) (c k : Nat) : Nat × Nat :=
  let h := s.ch c
  let ir := s.rdN .I_RANGE c
  let nom := 5 * 10 ^ (10 - ir) * 2 ^ 30
  match h.slide.phase with
  | .made =>
    let r1 := s.shuntAt k h.slide.oldIr
    let r2 := s.shuntAt k ir
    (r1 * r2, (r1 + r2) * nom)
  | _ => (s.shuntAt k ir, nom)

/-! ### Record flags (R178) -/

def fStale : Nat := 2 ^ 15
def fGap : Nat := 2 ^ 14
def fRepeat : Nat := 2 ^ 13
def fCompl : Nat := 2 ^ 11
def fMute : Nat := 2 ^ 10
def fClip : Nat := 2 ^ 9
def fOvr : Nat := 2 ^ 8
def fCaldist : Nat := 2 ^ 7
def fConflict : Nat := 2 ^ 6
def fSkip : Nat := 2 ^ 5
def fRetired : Nat := 2 ^ 4
/-- A flag where a condition holds. -/
def flagIf (b : Bool) (f : Nat) : Nat := if b then f else 0

/-- dt of the elements in force of a channel, V and I, in 1/128 K (R315). -/
def State.dtV (s : State) (c : Nat) : Int :=
  let k := s.sliceOf c
  dt128 (s.calEl k (s.rdN .V_RANGE c)) (s.sl k).therm
def State.dtI (s : State) (c : Nat) : Int :=
  let k := s.sliceOf c
  dt128 (s.calEl k (s.rdN .I_RANGE c + 3)) (s.sl k).therm

/-- The magnitude of dt of either element in force reaches CAL_DIST_T (R315). -/
def State.dtFar (s : State) (c : Nat) : Bool :=
  let k := s.sliceOf c
  let t := s.rd .CAL_DIST_T
  dtReaches (s.calEl k (s.rdN .V_RANGE c)) (s.sl k).therm t || dtReaches (s.calEl k (s.rdN .I_RANGE c + 3)) (s.sl k).therm t

/-- The flags that hold for a channel at a strobe or sample (R178): its state, its Slide window (R153), its sweep unit
(R213, R217), its calibration span (R321). -/
def State.flagsNow (s : State) (c : Nat) : Nat :=
  let h := s.ch c
  let t := h.cht
  let window := match h.slide.phase with | .prep _ => true | .made => true | _ => decide (0 < h.aper.blank)
  flagIf (h.out == .compl) fCompl ||| flagIf (h.out == .mute) fMute ||| flagIf (h.out == .retired) (fRetired ||| fStale)
    ||| flagIf window fSlide ||| flagIf h.calSpan fStale
    ||| flagIf (t.live && t.cur.rep) fRepeat ||| flagIf (t.live && t.cur.claim == .conflict) fConflict
    ||| flagIf (t.live && t.cur.claim == .skip) fSkip

/-! ### Samples (R172 to R174, R344) -/

/-- A value converted between ranges, ahead of the clamp (R140, R173). -/
def convWide (cur : Bool) (x : Int) (old new : Nat) : Int :=
  if old = new then x else
    let (a, b) := fsRatio cur old new
    roundEven (x * a) b

/-- A sample on given ranges, clamped, with whether a clamp acted (R173). -/
def Samp.on (x : Samp) (vr ir : Nat) : Int × Int × Bool :=
  let v := convWide false x.v x.vr vr
  let i := convWide true x.i x.ir ir
  let cv := clampI (-over110) over110 v
  let ci := clampI (-over110) over110 i
  (cv, ci, cv != v || ci != i)

/-- What holds for the samples of a channel now. -/
def State.sampCtx (s : State) (c : Nat) : SampCtx :=
  let h := s.ch c
  let (num, den) := s.resRatio c (s.sliceOf c)
  { flags := h.aper.flags ||| s.flagsNow c, vr := s.rdN .V_RANGE c, ir := s.rdN .I_RANGE c, num := num, den := den
    keep := h.aper.blank == 0 && h.aper.hush == 0 && h.slide.phase != .made && !h.taking && h.blank == 0
    run := (s.gr (grpOf c)).filt == .running }

/-- A slot's first decimation instant after a tick boundary does not lie after the load strobe of the tick before: 593.75 ns
past the boundary, 19 modulator clocks (R26, R164, R172). -/
def preSlot (p : Nat) : Bool := decide (p ≤ 19)

/-- Half-band outputs of a tick whose instants do not lie after the strobe of the tick before, for slot p: 51 clocks after that
tick's start, outputs every 16 clocks from its instant p on (R26, R164, R165). -/
def preOuts (p : Nat) : Nat := (51 - p) / 16

/-- A sample of slot p has been taken: the flags of strobes before it are spent, and one more excluded sample is over. After the last
of them the Slide window still overlaps the next sample's microsecond, unless it ended at that sample's own instant (R153, R154). -/
def Aper.sampled (p : Nat) (a : Aper) : Aper :=
  { a with flags := if a.blank = 1 ∧ p ≠ 19 then fSlide else 0, blank := a.blank - 1, hush := a.hush - 1 }

/-- The threshold events of a channel are on hold (R187, R344): from the make strobe of a Slide or its preparation to completion,
through a takeover blank, and once RETIRED. -/
def Chan.tevHold (h : Chan) : Bool :=
  (h.slide.phase != .idle && h.slide.phase != .due) || h.out == .retired || h.taking || h.blank != 0

/-- At a strobe: what the samples are judged by whose instants do not lie after it (R147, R172, R178), and the hold of the events ahead
of it (R187). -/
def State.holdCtx (s : State) (g : Nat) : State :=
  s.each (chansOf g) fun s c =>
    let s := s.modCh c fun h => { h with aper := { h.aper with tevWas := h.tevHold } }
    if (s.gr g).filt = .stopped then s.modAper c fun a => if a.pre = none then a else { a with pre := none }
    else
      let x := s.sampCtx c
      if preSlot (s.pos c) then s.modAper c fun a => Aper.sampled (s.pos c) { a with pre := some x }
      else s.modAper c fun a => { a with pre := some x }

/-- What the first record-path sample of the next tick is judged by, where it does not lie after the latest strobe. -/
def State.preOf (s : State) (c : Nat) : Option SampCtx := if preSlot (s.pos c) then (s.ch c).aper.pre else none

/-- One record-path microsecond of a channel: its sample, or none where the slice delivers none (RETIRED). -/
def State.sample (s : State) (c us : Nat) (x : SampCtx) (v i : Int) (sub got act miss : Bool) : State :=
  let kept := got && !miss && x.keep
  let dist := kept && s.dtFar c
  let fl := x.flags ||| flagIf act fClip ||| flagIf dist fCaldist ||| flagIf miss fStale
  let vr := x.vr
  let ir := x.ir
  let a := (s.ch c).aper
  let x : Samp := { v := v, i := i, vr := vr, ir := ir, sub := sub, kept := kept, flags := fl, us := us
                    gap := (a.gapKept && kept) || (a.gapRetired && bit fl 4) }
  let (cv, ci, _) := x.on vr ir
  let std := s.standby (grpOf c)
  s.modAper c fun a =>
    { a with samps := x :: a.samps, gapKept := a.gapKept && !kept, gapRetired := a.gapRetired && !bit fl 4
             agg := if std then a.agg else x :: a.agg
             pwrV := if kept then a.pwrV + cv * spanV vr else a.pwrV
             pwrI := if kept then a.pwrI + ci * (2 * fsI ir) else a.pwrI
             pwrN := if kept then a.pwrN + 1 else a.pwrN
             capV := if kept ∧ a.capSkip = 0 then a.capV + cv * spanV vr else a.capV
             capI := if kept ∧ a.capSkip = 0 then a.capI + ci * (2 * fsI ir) else a.capI
             capN := if kept ∧ a.capSkip = 0 then a.capN + 1 else a.capN
             capSkip := a.capSkip - 1 }

/-! ### Threshold events (R185 to R188) -/

/-- The boundary of the aggregate windows that the samples delivered so far have reached, and the period from it on: of the present
period, until the first boundary of a newly written one (R189). -/
def State.aggEdge (s : State) (g : Nat) : Nat × Nat :=
  let r := s.gr g
  let p := s.rdN .AGG_PERIOD g * 1000
  let done := r.ticks + 1 - s.tickUs g
  let at_ (p : Nat) : Nat := if p = 0 then 0 else done / p * p
  if p = r.aggP ∨ r.aggFrom < at_ p then (at_ p, p) else (at_ r.aggP, r.aggP)

/-- An edge or a record of frame-grid microsecond `us` marks the window that holds it (R189): the one in progress, or the next where
a boundary has been reached and the window before it has yet to close. -/
def State.markAgg (s : State) (c us : Nat) (f : AggMarks → AggMarks) : State :=
  let g := grpOf c
  let b := (s.aggEdge g).1
  if (s.gr g).windows < b ∧ b ≤ us then s.modAper c fun a => { a with marksNext := f a.marksNext }
  else s.modAper c fun a => { a with marks := f a.marks }

/-- One edge more, up to 65,535 (Table "Aggregate layout"). -/
def AggMarks.edge (cur : Bool) (m : AggMarks) : AggMarks :=
  if cur then { m with edgeI := min 65535 (m.edgeI + 1) } else { m with edgeV := min 65535 (m.edgeV + 1) }

/-- One value of a threshold event, of frame-grid microsecond `us`: `cur` tells TEV_I from TEV_V. -/
def State.tevEval (s : State) (c us : Nat) (cur : Bool) (x : Int) : State :=
  let h := s.ch c
  let ctrl := s.rdN (if cur then .TEV_I_CTRL else .TEV_V_CTRL) c
  let level := s.rd (if cur then .TEV_I_LEVEL else .TEV_V_LEVEL) c
  let hyst := s.rd (if cur then .TEV_I_HYST else .TEV_V_HYST) c
  let st : Obj := if cur then .TEV_I_STATE else .TEV_V_STATE
  let y : Int := if bit ctrl 3 then x.natAbs else x
  let old := s.rdT st c
  let new := if old then !decide (y ≤ level - hyst) else decide (level ≤ y)
  let init := if cur then h.aper.tevInitI else h.aper.tevInitV
  let s := if new == old then s else (s.wr st c 0 (b2n new)).configOut st c 0 (b2n new)
  let s := s.modAper c fun a => if cur then { a with tevInitI := true } else { a with tevInitV := true }
  if !init || new == old || !bit ctrl (if new then 1 else 2) then s
  else
    let s := (s.inc (if cur then .TEV_I_COUNT else .TEV_V_COUNT) c).markAgg c us (AggMarks.edge cur)
    s.edge (selector 1 c (2 * b2n cur + b2n !new)) ((s.pos c + 4) * 125 / 4)

/-- A threshold event holds: the next value sets its state without an edge (R185, R187). -/
def State.tevHold (s : State) (c : Nat) (cur : Bool) : State :=
  s.modAper c fun a => if cur then { a with tevInitI := false } else { a with tevInitV := false }

/-- The events of a channel are on hold at their clock p + 4 of the tick, or the record path has missed its deadline (R187). At 1 MHz
that clock comes ahead of the strobe of the tick before for the slots 0 to 15 (R26, R292). -/
def State.tevHeld (s : State) (c : Nat) (miss : Bool) : Bool :=
  let h := s.ch c
  miss || (if s.tickUs (grpOf c) = 1 ∧ s.pos c ≤ 15 then h.aper.tevWas else h.tevHold)

/-- The events of a channel with source `rec_` (false loop, true record) take a value (R185); one on hold, of either source, takes
none, and its next value sets the state (R187; DEDUCED, log 76). The states of a group that stands by follow the mirror (R413). -/
def State.tevBoth (s : State) (c us : Nat) (rec_ miss : Bool) (v i : Int) : State :=
  let one (s : State) (cur : Bool) (x : Int) : State :=
    let ctrl := s.rdN (if cur then .TEV_I_CTRL else .TEV_V_CTRL) c
    if !bit ctrl 0 || s.tevHeld c miss then s.tevHold c cur
    else if bit ctrl 4 != rec_ then s
    else s.tevEval c us cur x
  if s.passive (grpOf c) then s else one (one s false v) true i

/-! ### The record buffer (R191, R192) -/

/-- Pool blocks that a channel holds (R192). -/
def Aper.blocks (a : Aper) : Nat := (if a.block.isEmpty then 0 else 1) + a.ready.length
/-- Pool blocks in use. -/
def State.blocksUsed (s : State) : Nat := (s.chan.map fun p => p.2.aper.blocks).sum
/-- Blocks of the pool (R191). -/
def poolBlocks : Nat := 12160

/-- A stream's channel field selects the channel: bit 0 is the last (Table "Stream objects"). -/
def State.streamHas (s : State) (st c : Nat) : Bool :=
  let b := (s.rdV .STREAM_CHANNELS st).blob
  bit ((b.getD (63 - c / 8) 0#8).toNat) (c % 8)
/-- The streams that run and carry the channel (R191). -/
def State.carriers (s : State) (c : Nat) : List Nat :=
  (List.range 32).filter fun k => s.rd .STREAM_STATE k == 1 && s.streamHas k c
/-- Ports of a stream: bit 0 NET0, bit 1 NET1 (R376, R381). -/
def State.streamPorts (s : State) (k : Nat) : Nat :=
  match (s.st k).movedTo with
  | some p => 2 ^ p
  | none => s.rdN .STREAM_PORTS k

/-- A stream that carries the channel waits for its destination: the channel's records are lost meanwhile (R380). -/
def State.awaited (s : State) (c : Nat) : Bool := (List.range 32).any fun k => s.rd .STREAM_STATE k == 2 && s.streamHas k c

/-- This member produces the records and aggregates of a group (R413, R419): in no role that stands by, but for the tick in which a
handover has both drive, when the new member does; and none after its FAIL cell. -/
def State.produces (s : State) (g : Nat) : Bool :=
  let p := (s.gr g).pair
  if s.standby g then p.take == some 0 else p.give != some 0 && !(s.pair.failSent && s.rd .PAIR_ROLE g == 2)

/-- The ports that a new block or aggregate of a stream leaves by: of a mirrored stream those that remain (R376, R381). -/
def State.blockPorts (s : State) (k : Nat) : Nat :=
  let m := s.streamPorts k
  if m = 3 then
    let up := b2n (s.portUp 0) + 2 * b2n (s.portUp 1)
    if up = 0 then 3 else up
  else m

/-- The open block passes to the network engine (R191); without a stream it is given back. -/
def State.closeBlock (s : State) (c : Nat) : State :=
  let k := (s.carriers c).head?
  s.modAper c fun a =>
    match k, a.block with
    | _, [] => a
    | none, _ => { a with block := [] }
    | some k, l => { a with ready := a.ready ++ [{ stream := k, recs := l.reverse, ports := s.blockPorts k }], block := [] }

/-- A record of a streamed channel enters its open block, or is dropped where it needs a new one and the channel or the pool has none
(R191, R192; that an open block goes on filling at the cap is a DESIGN CHOICE, log 87). The result tells whether it was written. -/
def State.bufferRecord (s : State) (c : Nat) (rec_ : BRec) : State × Bool :=
  let a := (s.ch c).aper
  if a.block.isEmpty ∧ (s.rdN .REC_BUF_CAP ≤ a.blocks ∨ poolBlocks ≤ s.blocksUsed) then
    ((s.inc .REC_LOST c).inc .REC_LOST_TOTAL, false)
  else
    let s := s.modAper c fun a => { a with block := rec_ :: a.block }
    (if (s.ch c).aper.block.length = 16 then s.closeBlock c else s, true)

/-! ### Records (R172 to R184) -/

/-- A record from its fields (Table "Record layout", R177). -/
def recordOf (seq : Nat) (v i : Int) (vr ir fl : Nat) : Nat :=
  seq % 2 ^ 48 * 2 ^ 80 + code 24 v * 2 ^ 56 + code 24 i * 2 ^ 32 + vr * 2 ^ 28 + ir * 2 ^ 24 + fl * 2 ^ 8

/-- The reservation of a channel in NVM (R183). -/
def State.reserved (s : State) (c : Nat) : Nat := s.nvm.rsv.get (fun _ => 0) c

/-- The records of STALE values hold the events on records (R187). -/
def State.tevStale (s : State) (c : Nat) : State :=
  s.each [false, true] fun s cur =>
    if bit (s.rdN (if cur then .TEV_I_CTRL else .TEV_V_CTRL) c) 4 then s.tevHold c cur else s

/-- TIME80 in ns of the start of frame-grid microsecond `us`, from the stamp of the frame start that precedes it: the latest one, or
the one before (R19, R175). -/
def State.gridNs (s : State) (us : Nat) : Int :=
  let n : Int := (s.clk.frames : Int) - 1
  if 32 * n ≤ us then s.clk.stamp + ((us : Int) - 32 * n) * 1000 else s.clk.stampWas + ((us : Int) - 32 * (n - 1)) * 1000

/-- The same, as a count of ns. -/
def State.gridTime (s : State) (us : Nat) : Nat := (s.gridNs us).toNat

/-- TIME80 in ns of a channel's sample in frame-grid microsecond `us`, with the slot skew of 31.25 ns (R19, R175, R377). -/
def State.instant (s : State) (c us : Nat) : Nat := (roundEven (4 * s.gridNs us + 125 * (s.pos c : Int)) 4).toNat

/-- The samples of an aperture, on the ranges in force at its end, that are substitutes or that the clamp changes are counted, kept or
not (R173, Table "Measurement channel objects"). A microsecond of which both V and I are such counts once (DESIGN CHOICE, log 99). -/
def State.clampCount (s : State) (c : Nat) (l : List Samp) : State :=
  let vr := (l.head?.map (·.vr)).getD 0
  let ir := (l.head?.map (·.ir)).getD 0
  s.inc .OVR_SAMPLES c (l.filter fun x => x.sub || (x.on vr ir).2.2).length

/-- The record of an aperture of `len` whose samples are `l` (R174 to R184): its number, values, flags; the events on record
values; and its place in the buffer. While the number awaits a reservation there is none (R183). -/
def State.mkRecord (s : State) (c len : Nat) (l : List Samp) : State :=
  let n := s.rdN .REC_NEXT c
  if s.reserved c ≤ n ∧ ¬ s.passive (grpOf c) then
    ((s.inc .REC_RSV_WAIT c).modAper c fun a => { a with gap := true }).tell (grpOf c) (.next (Fin.ofNat 512 c) n)
  else
    let vr := (l.head?.map (·.vr)).getD 0
    let ir := (l.head?.map (·.ir)).getD 0
    let kept := (l.filter (·.kept)).map fun x => (x.on vr ir, x.sub)
    let m : Int := kept.length
    let fl0 := l.foldl (fun a x => a ||| x.flags) 0
    let over_ := kept.filter fun x => x.1.2.2 || x.2
    let stale := kept.isEmpty || bit fl0 15
    let a := (s.ch c).aper
    let v := if stale then convert24 false a.lastV a.lastVr vr else roundEven ((kept.map (·.1.1)).sum) m
    let i := if stale then convert24 true a.lastI a.lastIr ir else roundEven ((kept.map (·.1.2.1)).sum) m
    let gap := a.gap || l.any (·.gap)
    let us := (l.head?.map (·.us)).getD 0
    let fl := fl0 ||| flagIf stale fStale ||| flagIf gap fGap ||| flagIf (!over_.isEmpty) fOvr
    let r := recordOf n v i vr ir fl
    let s := (s.wrV .LAST_RECORD c 0 (.bytes (beBytes 16 r))).wr .REC_NEXT c 0 ((n + 1) % 2 ^ 64)
    let s := (s.markAgg c us fun m => { m with flags := m.flags ||| fl }).modAper c fun a =>
      { a with gap := false
               lastV := if stale then a.lastV else v, lastVr := if stale then a.lastVr else vr
               lastI := if stale then a.lastI else i, lastIr := if stale then a.lastIr else ir }
    let s := if stale then (s.inc .REC_STALE c).tevStale c else s.tevBoth c us true false v i
    if (s.carriers c).isEmpty || !s.produces (grpOf c) then
      if s.awaited c && s.produces (grpOf c) then ((s.inc .REC_LOST c).inc .REC_LOST_TOTAL).modAper c fun a => { a with gap := true } else s
    else
      match s.bufferRecord c { no := n, word := r, us := us, pos := s.pos c, time := s.instant c us, n := len, short := decide (l.length < len)
                               locked := s.rd .PTP_STATE == 3, made := s.now } with
    | (s, true) => s
    | (s, false) => s.modAper c fun a => { a with gap := true }

/-- The filter engine of a group is not fenced: neither its loop path nor its record path (R336, R338). -/
def State.filtLive (s : State) (g : Nat) : Bool := !s.fencedSrc (srcLoop g) && !s.fencedSrc (srcRec g)

/-- A full aperture of n closes with its record (R172, R174). -/
def State.fullAper (s : State) (c n : Nat) : State :=
  let a := (s.ch c).aper
  if a.samps.length < n ∨ ¬ s.filtLive (grpOf c) then s
  else
    let (new, old) := a.samps.splitAt (a.samps.length - n)
    ((s.clampCount c old).mkRecord c n old).modAper c fun a => { a with samps := new }

/-- APERTURE_CLOSE: the aperture in progress is full (R174). -/
def State.closeAper (s : State) (c : Nat) : State := s.fullAper c ((s.ch c).aper.endN.getD (s.rdN .APERTURE_N c))

/-- The aperture of n in progress closes early, with a short record where it kept a sample (R172); a fenced filter engine makes none
(R336). -/
def State.endGrid (s : State) (c n : Nat) : State :=
  let s := s.fullAper c n
  let a := (s.ch c).aper
  let s := s.clampCount c a.samps
  let made := a.samps.any (·.kept) && s.filtLive (grpOf c)
  let s := if made then s.mkRecord c n a.samps else s
  s.modAper c fun a => { a with samps := [], endN := none, gap := a.gap || (!made && a.samps.any (·.gap)) }

/-- A re-base: a new grid begins with the first sample after the strobe (R172), so that a sample still to come whose instant does
not lie after it belongs to the grid that ends. -/
def State.rebase (s : State) (c : Nat) : State :=
  let s := s.modAper c fun a => { a with base := (s.gr (grpOf c)).ticks }
  let a := (s.ch c).aper
  let n := s.rdN .APERTURE_N c
  if (s.preOf c).isSome then (if a.endN.isSome then s else s.modAper c fun a => { a with endN := some n })
  else s.endGrid c n

/-! ### Auto-range (R155 to R158) -/

/-- A unit that changes a range (R207). -/
def State.unitRanges (s : State) (c : Nat) (u : SUnit) : Bool :=
  let e := u.entry.toNat
  u.full && ((eVr e != 3 && eVr e != s.rdN .V_RANGE c) || (eIr e != 15 && eIr e != s.rdN .I_RANGE c))

/-- A unit that changes a range or names an endpoint (R211). -/
def State.unitMoves (s : State) (c : Nat) (u : SUnit) : Bool :=
  s.unitRanges c u || (u.full && eEpEn u.entry.toNat)

/-- Auto-range is suspended by a sweep unit (R211). -/
def State.arSuspended (s : State) (c : Nat) : Bool :=
  let t := (s.ch c).cht
  (t.begun && s.unitMoves c t.nu) || (t.live && t.st == .settle)

/-- The next higher range of the limited quantity, within bounds (R156). -/
def State.arNext (s : State) (c : Nat) (cur up : Bool) : Option Nat :=
  let b := s.rdN (if cur then .AR_I_BOUNDS else .AR_V_BOUNDS) c
  let r := s.rangeOf c cur
  if up then
    if cur ∧ r = 5 then
      if 6 ≤ bits b 4 4 ∧ s.rdT .BOOST_DECL c then some (s.rdN .BOOST_RANGE c) else none
    else if cur ∧ 6 ≤ r then none
    else if r + 1 ≤ bits b 4 4 then some (r + 1) else none
  else
    let d := if cur ∧ 6 ≤ r then 5 else r - 1
    if 0 < r ∧ bits b 0 4 ≤ d then some d else none

/-- Auto-range looks at the loop sample of a channel (R156). -/
def State.autoRange (s : State) (c : Nat) : State :=
  let h := s.ch c
  let cur := s.limCur c
  let en := bit (s.rdN .AR_CTRL c) (if cur then 0 else 1)
  let zero (s : State) : State := s.modAper c fun a => { a with arUp := 0, arDn := 0, arAsk := none }
  if !en || !h.out.loop || h.run.ramp.isSome || h.rampEnd.isSome || s.arSuspended c then zero s
  else if h.held || h.taking || h.slide.phase != .idle || h.slide.pend.isSome then s
  else
    let y : Int := (if cur then h.i else h.v).natAbs
    let upT := s.rd (if cur then .AR_I_UP else .AR_V_UP) c * 64
    let dnT := if cur then s.rd .AR_I_DOWN c * 640 else s.rd .AR_V_DOWN c * 320
    let hiHit := decide (upT ≤ y) && (s.arNext c cur true).isSome
    let r := s.rangeOf c cur
    let loHit := match s.arNext c cur false with
      | some d => let (a, b) := fsRatio cur r d; decide (y * a ≤ dnT * b)
      | none => false
    let a := h.aper
    if hiHit then
      s.modAper c fun _ => { a with arUp := a.arUp + 1, arDn := 0
                                    arAsk := if s.rdN .AR_UP_TICKS c ≤ a.arUp + 1 then some true else none }
    else if loHit then
      s.modAper c fun _ => { a with arUp := 0, arDn := a.arDn + 1
                                    arAsk := if s.rdN .AR_DOWN_TICKS c ≤ a.arDn + 1 then some false else none }
    else zero s

/-! ### Aggregates (R189, R190) -/

/-- The window in progress begins at its boundary, with the time of that instant and whether PTP is LOCKED (R189, R377). -/
def State.aggOpen (s : State) (g : Nat) : State :=
  let t := s.gridTime (s.gr g).windows
  let k := s.rd .PTP_STATE == 3
  s.modGr g fun r => { r with aggTime := t, aggLocked := k }

/-- The filter engine enters RUNNING: a new grid, its first record with GAP, and nothing of an aggregate from before: the window that
a stop left in progress is dropped (R172, R184; DESIGN CHOICE, log 101). -/
def Aper.begun (a : Aper) : Aper :=
  { a with samps := [], endN := none, agg := [], marks := {}, marksNext := {}, gap := true, gapKept := false, gapRetired := false }

/-- Mean, least and greatest of a list, rounded half to even. -/
def stats (l : List Int) : Int × Int × Int :=
  (roundEven l.sum l.length, l.foldl (fun a x => if x < a then x else a) (l.headD 0),
   l.foldl (fun a x => if a < x then x else a) (l.headD 0))

/-- The aggregate of a channel's window, which ends before microsecond `b` (Table "Aggregate layout"). A window without a kept sample
repeats the means before it as the codes that they are, whatever range they were on (R190; DESIGN CHOICE, log 100). -/
def State.closeAgg (s : State) (c b : Nat) : State :=
  let a := (s.ch c).aper
  let l := a.agg.filter fun x => x.us < b
  let kept := l.filter (·.kept)
  let vr := s.rdN .V_RANGE c
  let ir := s.rdN .I_RANGE c
  let xs := kept.map fun x => x.on vr ir
  let empty := xs.isEmpty
  let (vm, vn, vx) := if empty then (a.aggMeanV, a.aggMeanV, a.aggMeanV) else stats (xs.map (·.1))
  let (im, inn, ix) := if empty then (a.aggMeanI, a.aggMeanI, a.aggMeanI) else stats (xs.map (·.2.1))
  let ovr := kept.any (·.sub) || xs.any (·.2.2)
  let fl := (a.marks.flags ||| l.foldl (fun m x => m ||| x.flags) 0 ||| flagIf empty fStale ||| flagIf ovr fOvr) % 2 ^ 16
  let fl := fl - (fl &&& (fGap ||| fRepeat))
  let n := c * 2 ^ 240 + code 24 vm * 2 ^ 216 + code 24 im * 2 ^ 192 + code 24 vn * 2 ^ 168 + code 24 vx * 2 ^ 144
    + code 24 inn * 2 ^ 120 + code 24 ix * 2 ^ 96 + vr * 2 ^ 92 + ir * 2 ^ 88 + fl * 2 ^ 64 + xs.length * 2 ^ 32
    + a.marks.edgeV * 2 ^ 16 + a.marks.edgeI
  let s := s.wrV .AGG_LAST c 0 (.bytes (beBytes 32 n))
  s.modAper c fun a =>
    { a with agg := a.agg.filter fun x => b ≤ x.us, marks := a.marksNext, marksNext := {}, aggMeanV := vm, aggMeanI := im }

end Sys2Proof.Machine
end

