-- ==== Sys2Proof/Machine/Param.lean ====
section
/-! DEFINITION. A tick-bound value comes into force at its strobe (R27, R46, R119, R126, R141, R172, R188). -/
namespace Sys2Proof.Machine
open Sys2Proof

/-- Objects that pass through the staging bank of LAW_HOLD (R130, R131). -/
def isBank : Obj → Bool
  | .VKP | .VKI | .VKD | .VKB | .V_SHIFTS | .IKP | .IKI | .IKD | .IKB | .I_SHIFTS | .NOTCH_EN | .NB0 | .NB1 | .NB2 | .NA1
  | .NA2 | .NOTCH_SHIFTS | .VKFF | .IKFF | .FF_SHIFTS => true
  | _ => false

/-- Objects of the notch set (R116). -/
def isNotch : Obj → Bool
  | .NOTCH_EN | .NB0 | .NB1 | .NB2 | .NA1 | .NA2 | .NOTCH_SHIFTS => true
  | _ => false

/-- The notch is at rest on the last x (R126). -/
def State.notchReset (s : State) (c : Nat) : State :=
  s.modCh c fun h => { h with run := { h.run with law := notchRest h.run.law } }

/-- FORCE_MODE comes into force: the limit as it reads is the programmed one of the new limited quantity, on its range (R141; DESIGN
CHOICE, log 70); the auto-range counts restart, since the quantity that they counted is now the forced one (R155); in FORCE or
COMPL the law has its bumpless load (R126). -/
def State.setForceMode (s : State) (c : Nat) (v : Int) : State :=
  if s.rd .FORCE_MODE c = v then s
  else
    let s := (s.wr .FORCE_MODE c 0 v).programLimit c
    let s := s.modAper c Aper.arClear
    if (s.ch c).out.loop then s.loadCode c else s

/-- What a value of a channel's or group's tick-bound object changes as it comes into force (R119). -/
def State.putParam (s : State) (o : Obj) (i e : Nat) (v : Int) : State :=
  let s := if o.desc.base = 0x8000 then s.modCh i fun h => { h with written := o :: h.written } else s
  match o with
  | .FORCE_MODE => s.setForceMode i v
  | .COMPL_LIM => (s.wr o i e v).programLimit i
  | .TEV_V_LEVEL | .TEV_V_HYST | .TEV_I_LEVEL | .TEV_I_HYST => (s.wr o i e v).programTev i o
  | .REED_V_CTRL =>
    let on := bit v.toNat 0 && !bit (s.rdN o i) 0
    (s.wr o i e v).modCh i fun h => { h with freshV := h.freshV || on }
  | .REED_I_CTRL =>
    let on := bit v.toNat 0 && !bit (s.rdN o i) 0
    (s.wr o i e v).modCh i fun h => { h with freshI := h.freshI || on }
  | .AGG_PERIOD => (s.wr o i e v).modGr i fun r => { r with aggFrom := r.ticks }
  | .APERTURE_N => if s.rd o i e = v then s.rebase i else (s.rebase i).wr o i e v
  | _ =>
    let s' := s.wr o i e v
    if isNotch o && !(o == .NOTCH_EN && v == 0) && s.rd o i e != v then s'.notchReset i else s'

/-- A value of a channel's or group's tick-bound object comes into force (R119), on a partner too (R411). -/
def State.setParam (s : State) (o : Obj) (i e : Nat) (v : Int) : State := (s.putParam o i e v).configOut o i e v

end Sys2Proof.Machine
end

