-- ==== Sys2Proof/Machine/Chant.lean ====
section
/-! DEFINITION. The Chanter (R198 to R230): commands, and the begin, apply, settle and end of its units. -/
namespace Sys2Proof.Machine
open Sys2Proof

/-- Point j of a waveform; a point never written reads 0 (R218). -/
def State.wavePoint (s : State) (n j : Nat) : Int := (wavePoints s n).getD j 0

/-- The offset and a point as a setpoint; a point that saturates is counted (R222). -/
def State.playPoint (s : State) (c : Nat) (u : SUnit) (j : Nat) : State :=
  let x := u.level0 + s.wavePoint (pWave u.param.toNat) j
  let s := if levelSat x = x then s else s.inc .WAVE_CLIPS c
  ((s.wr .SETPOINT c 0 (levelSat x)).modCh c fun h => { h with written := .SETPOINT :: h.written }).wr .CHT_POINT c 0 j

/-- NVM cannot give point j: the point in force before it stays, the bank is reported with the waveform and the point, and the play
goes on (R224). -/
def State.missPoint (s : State) (c : Nat) (u : SUnit) (j bank : Nat) : State :=
  (s.report (srcBank (8 + bank)) 0x1B (pWave u.param.toNat * 65536 + j) 1 .transient).wr .CHT_POINT c 0 j

/-- Point j comes into force, or the one before it stays (R222, R224). -/
def State.showPoint (s : State) (c : Nat) (u : SUnit) (j : Nat) (ue : Option Nat) : State :=
  match ue with
  | some b => s.missPoint c u j b
  | none => s.playPoint c u j

/-! ### Begin (R200, R204, R206) -/

/-- A unit begins: its trigger is armed and its claim requested (R206, R207). CHT_UNIT takes the index, of which a read shows the low 16
bits (R231; DESIGN CHOICE, log 112). -/
def State.unitStart (s : State) (c : Nat) (u : SUnit) : State :=
  let u := { u with trig := false, rep := false, claim := if u.claims then .asked else .none, l := u.endpoint }
  let s := (s.wr .CHT_POS c 0 u.addr).wr .CHT_UNIT c 0 u.k
  let s := s.modCht c fun t => { t with nu := u, begun := true, st := .wait, due := none, halt := none }
  if u.claims then s.askClaim c true else s

/-- The fetch of an entry at the begin strobe of its first unit (R200, R204). A failed fetch halts at the end strobe of
the unit before it, or at once where none is in progress. -/
def State.fetchUnit (s : State) (c a : Nat) (bad : Bool) : State :=
  let r := s.fetchCheck c a bad
  if r ≠ 0 then
    if (s.ch c).cht.live then
      s.modCht c fun t => { t with due := none, halt := some r, nu := { t.nu with addr := a } }
    else (s.wr .CHT_POS c 0 a).chtHalt c r
  else
    let u : SUnit := { addr := a, entry := s.sweepEl a, param := s.sweepEl (a + 1), base := s.rd .SETPOINT c }
    (s.players u 1).unitStart c u

/-- A unit begins at this strobe (R206): the next of the entry, or the first of a new entry. -/
def State.unitBegin (s : State) (c : Nat) (bad : Bool) : State :=
  let t := (s.ch c).cht
  match t.due with
  | none => s
  | some (some a) => s.fetchUnit c a bad
  | some none => s.unitStart c { t.cur with k := t.cur.k + 1 }

/-! ### Settle (R209, R216) -/

/-- The unit's APER and RACT act at its settle strobe (R216), unless a later change of that strobe sets APERTURE_N (R230); nothing of a
unit that was passed over. -/
def State.unitAper (s : State) (c : Nat) (u : SUnit) : State :=
  if u.claim = .conflict ∨ u.claim = .skip then s
  else
    let e := u.entry.toNat
    let n := aperLen.getD (eAper e) 0
    let new := u.full && eAper e != 0 && n != s.rdN .APERTURE_N c
    if new && !(s.gr (grpOf c)).lateAper.contains c then (s.rebase c).wr .APERTURE_N c 0 n
    else if eRact e = 1 ∨ eRact e = 2 then s.rebase c
    else s

/-- The unit settles at this strobe: its dwell begins (R206, R209). A repetition of a WAVE counts from its apply strobe, as its points
do, so that the next one follows W_DIV ticks after its last point (R223; DEDUCED, log 82). -/
def State.unitSettle (s : State) (c : Nat) : State :=
  let s := s.unitAper c (s.ch c).cht.cur
  s.modCht c fun t => { t with st := .dwell, count := if eKind t.cur.entry.toNat = 3 then t.wtick else 0 }

/-! ### Apply (R205, R208, R213) -/

/-- The range request of a unit, with the values that it brings (R208). -/
def SUnit.request (u : SUnit) : RangeReq :=
  let e := u.entry.toNat
  let keepLevel := eLvlKeep e && eKind e == 0
  { vr := if eVr e = 3 then none else some (eVr e)
    ir := if eIr e = 15 then none else some (eIr e)
    src := .sweep
    sp := if keepLevel then none else some (levelSat u.level)
    lim := if eCmpKeep e then none else some (eCompl e)
    fm := if eFmKeep e then none else some (eFm e) }

/-- The unit's level alone comes into force. -/
def State.applyLevel (s : State) (c : Nat) (u : SUnit) (ue : Option Nat) : State :=
  let e := u.entry.toNat
  if eKind e = 3 then s.showPoint c u (pStart u.param.toNat) ue
  else if eLvlKeep e && eKind e == 0 then s
  else s.setParam .SETPOINT c 0 (levelSat u.level)

/-- The range request of a unit and its range change (R208): a WAVE brings its first point, which counts where it saturates (R222), or
keeps the SETPOINT in force where NVM cannot give it (R224; DEDUCED, log 83). -/
def State.applyRange (s : State) (c : Nat) (u : SUnit) (ue : Option Nat) : State :=
  let p := u.param.toNat
  let x := u.level0 + s.wavePoint (pWave p) (pStart p)
  if eKind u.entry.toNat = 3 then
    match ue with
    | some b => (s.rangeApply c { u.request with sp := none }).missPoint c u (pStart p) b
    | none =>
      let s := if levelSat x = x then s else s.inc .WAVE_CLIPS c
      (s.rangeApply c { u.request with sp := some (levelSat x) }).wr .CHT_POINT c 0 (pStart p)
  else s.rangeApply c u.request

/-- Ranges, force mode, limit and level of a full unit come into force, or its range request is refused (R208). -/
def State.applyFull (s : State) (c : Nat) (u : SUnit) (ue : Option Nat) : State × Bool :=
  let r := u.request
  let r := if eKind u.entry.toNat = 3 ∧ ue.isSome then { r with sp := none } else r
  let moves := s.target c r != (s.rdN .V_RANGE c, s.rdN .I_RANGE c)
  if moves then
    match s.rangeCheck c r with
    | some (st, reason) => (s.rangeRefuse c r st reason, false)
    | none => (s.applyRange c u ue, true)
  else
    let s := match r.fm with | some m => s.setParam .FORCE_MODE c 0 m | none => s
    let s := match r.lim with | some m => s.setParam .COMPL_LIM c 0 m | none => s
    (s.applyLevel c u ue, true)

/-- What the settle strobe of the unit in progress waits for has come: the Slide that it started has completed, and the endpoint that
it connects has settled (R209). -/
def State.settled (s : State) (c : Nat) : Bool :=
  let h := s.ch c
  let own := h.slide.phase != .idle && (match h.slide.req with | some r => r.src == .sweep | none => false)
  !(h.cht.slides && own) && !(h.cht.joins && h.hold.coming.isSome)

/-- The begun unit is in progress from this strobe, its claim used up; it settles at once unless it connects an endpoint or has
started a Slide (R206, R209, R227). -/
def State.unitLive (s : State) (c : Nat) (u : SUnit) (slides joins : Bool) : State :=
  let s := s.modCht c fun t =>
    { t with cur := u, nu := { t.nu with claim := .none }, live := true, begun := false, st := .settle, count := 0, wtick := 0
             fell := false, stopTrig := false, joins := joins, slides := slides }
  if s.settled c then s.unitSettle c else s

/-- The unit applies at this strobe (R208, R213): passed over on CONFLICT or SKIP, else its changes come into force and
its endpoint connects. One that re-executes waits for the connection that the interrupted one waited for (R209, R229). -/
def State.unitApply (s : State) (c : Nat) (ue : Option Nat) : State :=
  let t := (s.ch c).cht
  let u := t.nu
  match u.claim with
  | .conflict => (s.inc .CHT_CONFLICTS c).unitLive c u false false
  | .skip => (s.inc .CHT_SKIPS c).unitLive c u false false
  | k =>
    let still := (s.ch c).slide.phase == .idle
    let (s, ok) := if u.full then s.applyFull c u ue else (s.applyLevel c u ue, true)
    if !ok then s
    else
      let s := s.inc .CHT_UNITS c
      let s := if u.rep then s.inc .CHT_REPEATS c else s
      let slides := still && (s.ch c).slide.phase != .idle
      match k with
      | .granted alt p => (s.connectEp c p alt).unitLive c u slides ((s.ch c).hold.ep != some p)
      | _ => s.unitLive c u slides (u.rep && t.joins)

/-- A unit may apply at the coming strobe (R207): its trigger is taken, or comes with an ADVANCE at that strobe, and its claim
is answered. -/
def State.unitDue (s : State) (c : Nat) : Bool :=
  let t := (s.ch c).cht
  let adv := (s.gr (grpOf c)).arrived.any fun x => match x.what with | .cht k 4 _ => k == c | _ => false
  t.begun && (!t.nu.waits || t.nu.trig || t.nu.rep || adv) && t.nu.claim != .asked

/-- The conditions of R207 for the apply strobe, beside the end of the unit before and a MUTE at the strobe. -/
def State.unitReady (s : State) (c : Nat) : Bool :=
  let h := s.ch c
  let t := h.cht
  let u := t.nu
  t.begun && (!u.waits || u.trig || u.rep) && u.claim != .asked && !t.paused && !s.frozen c &&
    !(s.unitRanges c u && (h.slide.phase != .idle || h.slide.pend.isSome))

/-! ### End (R206, R215, R225) -/

/-- The entry ends at this strobe: DONE_EV, EP_REL, STOP and PAUSE act, or the next entry is due (R206, R215, R225). -/
def State.entryEnd (s : State) (c : Nat) (u : SUnit) : State :=
  let e := u.entry.toNat
  let s := s.players u (-1)
  let s := s.modCht c fun t => { t with live := false, again := false }
  let s := if eDoneEv e then s.chtEdge c 0 else s
  let s := if eEpRel e then s.releaseEp c else s
  if eStop e then s.chtHalt c 2
  else match (s.ch c).cht.halt with
  | some r => (s.wr .CHT_POS c 0 (s.ch c).cht.nu.addr).chtHalt c r
  | none =>
    if ePause e then s.modCht c fun t => { t with paused := true, held := true, st := .dwell, due := none }
    else if (s.ch c).cht.begun then s
    else s.modCht c fun t => { t with due := some (some (eNext e)), st := .wait }

/-- RACT re-bases at the end strobe of a unit that was not passed over (R216). -/
def State.endRebase (s : State) (c : Nat) (u : SUnit) : State :=
  let passed := u.claim = .conflict ∨ u.claim = .skip
  if eRact u.entry.toNat = 2 ∧ ¬ passed then s.rebase c else s

/-- The unit in progress ends at this strobe (R206, R216). -/
def State.unitEnd (s : State) (c : Nat) : State :=
  let u := (s.ch c).cht.cur
  let s := s.endRebase c u
  if u.last then s.entryEnd c u
  else
    let s := s.modCht c fun t => { t with live := false }
    if (s.ch c).cht.begun then s else s.modCht c fun t => { t with due := some none, st := .wait }

/-- The dwell of the unit in progress is over at the next strobe, unless it stands still there (R206, R210). -/
def State.endDue (s : State) (c : Nat) : Bool :=
  let t := (s.ch c).cht
  t.live && t.st != .settle &&
    (match t.cur.dwell with
     | some n => decide (n ≤ t.count + 1)
     | none => t.stopTrig)

/-- The unit in progress ends at this strobe (R206, R225, R228). -/
def State.endReady (s : State) (c : Nat) : Bool :=
  s.endDue c && !(s.ch c).cht.paused && !s.frozen c

/-! ### Commands (R225, R226) -/

/-- START at its strobe (R226). -/
def State.chtStart (s : State) (c : Nat) (o : Origin) : State :=
  let h := s.ch c
  if s.latch then s.reply o .SAFE_STATE
  else if s.standby (grpOf c) then s.reply o .PAIR_STANDBY
  else match s.engineFence c with
  | some st => s.reply o st
  | none =>
    if h.cht.st ≠ .idle ∨ ¬ h.out.charged then s.reply o .STATE_CONFLICT
    else if !s.inRegion c (s.rdN .CHT_START c) then s.reply o .BAD_VALUE
    else
      let s := s.wr .CHT_HALT c 0 0
      (s.modCht c fun _ => { st := .wait, due := some (some (s.rdN .CHT_START c)) }).reply o .OK

/-- CHT_CMD at its strobe by its code (Table "Chanter commands", R225). -/
def State.chtCmd (s : State) (c k : Nat) (o : Origin) : State :=
  let t := (s.ch c).cht
  if k = 0 then if t.st = .idle then s.reply o .OK true else (s.chtHalt c 1).reply o .OK
  else if k = 1 then s.chtStart c o
  else if t.st = .idle then s.reply o .STATE_CONFLICT
  else if k = 2 then
    if t.paused then s.reply o .OK true else (s.modCht c fun t => { t with paused := true }).reply o .OK
  else if k = 3 then
    if !t.paused then s.reply o .STATE_CONFLICT
    else if t.held then
      (s.modCht c fun t => { t with paused := false, held := false, st := .wait
                                    due := some (some (eNext t.cur.entry.toNat)) }).reply o .OK
    else (s.modCht c fun t => { t with paused := false }).reply o .OK
  else if t.held then s.reply o .STATE_CONFLICT
  else if t.st = .wait then (s.modCht c fun t => { t with nu := { t.nu with trig := true } }).reply o .OK
  else ((s.endRebase c t.cur).entryEnd c t.cur).reply o .OK

/-! ### Ticks of the Chanter at a strobe (R205, R206, R229) -/

/-- The on level of a PULSE ends at this strobe, WIDTH after its settle strobe (R205, R225, R228). -/
def State.pulseEnds (s : State) (c : Nat) : Bool :=
  let t := (s.ch c).cht
  let u := t.cur
  let e := u.entry.toNat
  t.live && t.st != .settle && eKind e == 2 && !t.fell && !t.paused && !s.frozen c && u.claim != .conflict &&
    u.claim != .skip && decide (pWidth u.param.toNat * 1000 ^ eDwellU e ≤ t.count + 1)

/-- A PULSE gives way to its base level (R205, R216). -/
def State.pulseFall (s : State) (c : Nat) : State :=
  let u := (s.ch c).cht.cur
  let s := s.setParam .SETPOINT c 0 (levelSat (pLevel u.param.toNat))
  let s := if eRact u.entry.toNat = 2 then s.rebase c else s
  s.modCht c fun t => { t with fell := true }

/-- The dwell and waveform counts move on, and a unit whose end is one tick ahead lets the next begin (R206). A unit
just applied or settled counts from this strobe; `fresh_` tells so. -/
def State.chtTick (s : State) (c : Nat) (fresh_ : Bool) : State :=
  let t := (s.ch c).cht
  if t.st = .idle ∨ t.paused ∨ s.frozen c ∨ ¬ t.live then s
  else
    let s := if fresh_ then s else s.modCht c fun t =>
      { t with count := if t.st = .settle then t.count else t.count + 1, wtick := t.wtick + 1 }
    let t := (s.ch c).cht
    if t.begun ∨ t.due.isSome ∨ t.halt.isSome ∨ t.st = .settle then s
    else match t.cur.dwell with
    | some n =>
      if n ≤ t.count + 1 then
        if !t.cur.last then s.modCht c fun t => { t with due := some none }
        else if eStop t.cur.entry.toNat ∨ ePause t.cur.entry.toNat then s
        else s.modCht c fun t => { t with due := some (some (eNext t.cur.entry.toNat)) }
      else s
    | none => s

/-- A takeover at this strobe or the one before has interrupted the unit in progress (R229). -/
def State.interrupted (s : State) (c : Nat) : Bool :=
  let t := (s.ch c).cht
  t.again && t.live && t.cur.claim != .conflict && t.cur.claim != .skip

/-- An interrupted unit begins again: it applies at the next strobe, claims nothing and carries REPEAT (R229). -/
def State.reExecute (s : State) (c : Nat) : State :=
  let t := (s.ch c).cht
  if s.interrupted c then
    let s := if t.begun then
        let s := s.dropClaim c
        if t.nu.k = 0 then s.players t.nu (-1) else s
      else s
    let s := (s.wr .CHT_POS c 0 t.cur.addr).wr .CHT_UNIT c 0 t.cur.k
    s.modCht c fun t =>
      { t with nu := { t.cur with rep := true, trig := true, claim := .none }, begun := true, live := false, st := .wait
               due := none, halt := none, again := false }
  else s.modCht c fun t => { t with again := false }

/-- The next waveform point comes into force at this strobe (R222, R224). -/
def State.waveStep (s : State) (c : Nat) (ue : Option Nat) : State :=
  let t := (s.ch c).cht
  let p := t.cur.param.toNat
  let j := pStart p + (t.wtick + 1) / (if pDiv p = 0 then 1 else pDiv p)
  s.showPoint c t.cur j ue

/-- A waveform point falls due at the next strobe, unless the Chanter stands still there (R222). -/
def State.waveNext (s : State) (c : Nat) : Bool :=
  let t := (s.ch c).cht
  let p := t.cur.param.toNat
  let d := if pDiv p = 0 then 1 else pDiv p
  t.live && eKind t.cur.entry.toNat == 3 && t.cur.claim != .conflict && t.cur.claim != .skip &&
    (t.wtick + 1) % d == 0 && decide (pStart p + (t.wtick + 1) / d ≤ pEnd p)

/-- A waveform point comes into force at this strobe (R222, R225, R228). -/
def State.waveDue (s : State) (c : Nat) : Bool := s.waveNext c && !(s.ch c).cht.paused && !s.frozen c

end Sys2Proof.Machine
end

