-- ==== Sys2Proof/Machine/Collect.lean ====
section
/-! DEFINITION. The fault collector (R330 to R355): classes, escalation, fences and their responses, the intake queue and
its runs, the fault log. -/
namespace Sys2Proof.Machine
open Sys2Proof

/-! ### Classes (R333 to R335) -/

/-- The kinds of Table "Fault kinds"; other codes are reserved (R333). -/
def knownKind (k : Nat) : Bool :=
  (decide (1 ≤ k) && decide (k ≤ 9)) || (decide (0x10 ≤ k) && decide (k ≤ 0x14)) || (decide (0x18 ≤ k) && decide (k ≤ 0x1C)) ||
    (decide (0x20 ≤ k) && decide (k ≤ 0x2A)) || (decide (0x30 ≤ k) && decide (k ≤ 0x33)) || (decide (0x38 ≤ k) && decide (k ≤ 0x3A))

/-- The class at intake of a kind (Table "Fault kinds"). A kind marked "as reported" takes the class that the unit chose where the table
lists it: CLOCK is GRAVE for TBA (R21, R336) and for a REFCLK loss reported again (log 74), else SEVERE. -/
def classOf (m : FaultMsg) : FClass :=
  let k := m.kind
  if k = 0x06 ∨ k = 0x07 then .grave
  else if k = 0x04 ∨ k = 0x05 ∨ k = 0x11 ∨ k = 0x12 ∨ k = 0x13 ∨ k = 0x20 then .severe
  else if k = 0x02 ∨ k = 0x09 ∨ k = 0x10 ∨ k = 0x14 ∨ k = 0x19 ∨ k = 0x1B ∨ k = 0x1C ∨ k = 0x21 ∨ k = 0x2A ∨ k = 0x30
    ∨ k = 0x32 then .transient
  else if k = 0x26 then (if m.source = srcCal then .note else .transient)
  else if k = 0x01 then (if m.source = srcTb tbA ∨ m.source = srcTb 0 ∧ m.cls = .grave then .grave else .severe)
  else if k = 0x25 ∨ k = 0x29 then (if m.cls = .severe then .severe else .note)
  else if k = 0x33 then (if m.cls = .severe then .severe else .transient)
  else if k = 0x38 ∨ k = 0x39 then (if m.cls = .grave then .grave else .note)
  else .note

/-- One counted TRANSIENT report of a source: the bucket, and whether it escalates (R335). The bucket has leaked since
its last count. -/
def State.countReport (s : State) (src : Nat) : State × Bool :=
  let t := (srcType src).getD 22
  let w := s.rdN .FLT_W t * 1000
  let b := s.flt.bucket.get (fun _ => 0) src + w
  if (s.rdN .FLT_N t - 1) * w < b then
    ({ s with flt := { s.flt with bucket := s.flt.bucket.put (fun _ => 0) src 0 } }, true)
  else ({ s with flt := { s.flt with bucket := s.flt.bucket.put (fun _ => 0) src b } }, false)

/-- The class of a report after counting (R334, R335): the first DEADLINE of a source is not counted (R31). -/
def State.classify (s : State) (m : FaultMsg) : State × FClass :=
  match classOf m with
  | .transient =>
    if m.kind = 0x02 ∧ ¬ s.flt.dead1.contains m.source then
      ({ s with flt := { s.flt with dead1 := m.source :: s.flt.dead1 } }, .transient)
    else
      let (s, e) := s.countReport m.source
      (s, if e then .severe else .transient)
  | c => (s, c)

/-! ### Fences (R337, Table "Source types") -/

/-- The sources that a SEVERE report of a source fences with it (R336, R341). -/
def fenceSet (src : Nat) : List Nat :=
  match srcType src with
  | some 2 => let g := src % 16; [srcLoop g, srcRec g]
  | some 20 => let g := src - 0x4D0; [src, srcCtl g, srcLoop g, srcRec g, srcSlide g, srcCrook g]
  | _ => [src]

/-- The group of a source that belongs to a group and is fenced at a strobe (R337). -/
def groupOf (src : Nat) : Option Nat :=
  match srcType src with
  | some 0 => some (src / 33)
  | some 1 | some 2 | some 3 | some 4 | some 5 => some (src % 16)
  | some 20 => some (src - 0x4D0)
  | _ => none

/-- Every open session closes (R54): its waiting requests are discarded, its ready ones done. -/
def State.closeAll (s : State) : State :=
  s.each (rangeFrom 1 8) fun s n => if (s.se n).kind = 0 then s else s.dropSession n

/-- A restart of the network or configuration engine closes every session and restarts every stream (Table "Source
types", R54, R184). -/
def State.netRestart (s : State) : State :=
  let s := s.closeAll
  s.each allChans fun s c => if (s.carriers c).isEmpty then s else s.modAper c fun a => { a with gap := true }

/-- What a stream has not sent by its old port leaves by the new one (R381). -/
def State.moveBlocks (s : State) (k p : Nat) : State :=
  let f (b : Blk) : Blk :=
    if b.stream ≠ k ∨ b.ports = 0 then b
    else
      let n := if p = 0 then b.sent1 else b.sent0
      { b with ports := 2 ^ p, sent0 := n, sent1 := n }
  let s := s.each (s.chan.map fun p => p.1) fun s c => s.modAper c fun a => { a with ready := a.ready.map f }
  s.modSt k fun x => { x with aggs := x.aggs.map fun a => { a with ports := 2 ^ p } }

/-- A single-port stream moves to port `p` (R381). -/
def State.moveStream (s : State) (k p : Nat) : State :=
  let home := s.rdN .STREAM_PORTS k = 2 ^ p
  (s.modSt k fun x => { x with movedTo := if home then none else some p }).moveBlocks k p

/-- A single-port stream whose port p cannot be used moves to the other port, where failover is on and that port is usable (R381). -/
def State.moveFrom (s : State) (k p : Nat) : State :=
  if s.streamPorts k = 2 ^ p ∧ s.rdT .STREAM_FAILOVER k ∧ ¬ s.portUp p ∧ s.portUp (1 - p) then s.moveStream k (1 - p) else s

/-- The streams that a port which has become unusable carries move (R381). -/
def State.moveStreams (s : State) (p : Nat) : State :=
  s.each (List.range 32) fun s k => if s.rd .STREAM_STATE k ≠ 0 then s.moveFrom k p else s

/-- A stream moves off its port where that cannot be used (R381). -/
def State.moveIfLost (s : State) (k : Nat) : State := (s.moveFrom k 0).moveFrom k 1

/-- Ready blocks with a change to each; a block that every port has sent, or that no port will send, returns to the pool
(R191). -/
def Aper.mapBlocks (f : Blk → Blk) (a : Aper) : Aper := { a with ready := (a.ready.map f).filter fun b => b.ports ≠ 0 }

/-- A port of a stream sends nothing more of what waits, the other port remaining (R381). -/
def State.dropPort (s : State) (k p : Nat) : State :=
  let f (m : Nat) : Nat := setBit m p false
  let s := s.each (s.chan.map fun x => x.1) fun s c =>
    s.modAper c (Aper.mapBlocks fun b => if b.stream = k then { b with ports := f b.ports } else b)
  s.modSt k fun x => { x with aggs := (x.aggs.map fun a => { a with ports := f a.ports }).filter fun a => a.ports ≠ 0 }

/-- The stream holds something that has not left (R380). -/
def State.streamHolds (s : State) (k : Nat) : Bool :=
  !(s.st k).aggs.isEmpty || s.chan.any fun x => x.2.aper.ready.any fun b => b.stream == k

/-- A stream's blocks that could not leave are discarded, and their records count as lost (R380). -/
def State.loseBlocks (s : State) (k : Nat) : State :=
  let s := s.each (s.chan.map fun x => x.1) fun s c =>
    let bs := (s.ch c).aper.ready.filter fun b => b.stream = k
    if bs.isEmpty then s
    else
      let n := (bs.map fun b => b.recs.length - (if b.sent0 < b.sent1 then b.sent1 else b.sent0)).sum
      let s := (s.inc .REC_LOST c n).inc .REC_LOST_TOTAL 0 n
      s.modAper c fun a => { a with ready := a.ready.filter fun b => b.stream ≠ k, gap := true }
  s.modSt k fun x => { x with aggs := [] }

/-- A stopped stream has sent what it held: it is stopped, and its request is answered (R380). -/
def State.streamEnd (s : State) (k : Nat) : State :=
  let a := (s.st k).ans
  ((s.wr .STREAM_STATE k 0 0).modSt k fun _ => {}).answers a .OK

/-- A draining stream ends once its last block has left or its ports have become unusable (R380). -/
def State.drainCheck (s : State) (k : Nat) : State :=
  if s.rd .STREAM_STATE k ≠ 3 then s
  else if !s.streamHolds k then s.streamEnd k
  else
    let m := s.streamPorts k
    let up := (bit m 0 && s.portUp 0) || (bit m 1 && s.portUp 1)
    if up then s else (s.loseBlocks k).streamEnd k

/-- A port has become unusable: its streams move, or go on by the port that remains (R381). -/
def State.portLost (s : State) (p : Nat) : State :=
  let s := s.moveStreams p
  s.each (List.range 32) fun s k =>
    if s.rd .STREAM_STATE k = 0 then s
    else
      let s := if s.streamPorts k = 3 ∧ ¬ s.portUp p ∧ s.portUp (1 - p) then s.dropPort k p else s
      s.drainCheck k

/-- Sources of a fence become fenced (R337). -/
def State.setFence (s : State) (l : List Nat) (by_ : Nat) (dead : Bool) : State :=
  s.each l fun s k =>
    if s.fencedSrc k then s else { s with flt := { s.flt with fenced := s.flt.fenced.put (fun _ => (0, false)) k (by_ + 1, dead) } }

/-- SP1 is fenced: its list ends with no result, and what waits is answered (R401). -/
def State.sp1Drop (s : State) : State :=
  let a := (match s.mbox.list with | some (_, _, a) => [a] | none => []) ++ s.mbox.goWait.map (·.2)
  let s := { s with mbox := { s.mbox with list := none, goWait := [], reply := none } }
  ((s.spEnd 1).modSp 1 fun x => { x with busBusy := false }).answers a .FENCED

/-- The transaction that holds SP0 has failed (R244): the line is fenced and reported with endpoint p. -/
def State.txnFail (s : State) (p : Nat) : State :=
  match s.mtx.cur with
  | none => s
  | some t =>
    let eps := s.txnEps t
    let s := { s with mtx := { s.mtx with cur := none, sent := [], again := [], await := none, collisions := 0 } }
    let s := s.spEnd 0
    let s := (s.setFence [srcLine t.line] (srcLine t.line) false).wr .MTX_STATE t.line 0 1
    let s := s.report (srcLine t.line) 0x20 p t.line .severe
    let s := s.answer t.ans .FENCED
    match t.ch with
    | some c => s.failChannel c eps
    | none => if t.restart then s else s.breakAllOver

/-- SP0 is fenced, and with it every matrix line until its own MTX_RESTART: the transaction in progress fails (R401, Table "Source
types"). -/
def State.sp0Drop (s : State) : State :=
  let s := s.txnFail ((s.mtx.sent.head?.map fun x => bits x.w.toNat 12 20).getD 0)
  let s := s.modSp 0 fun x => { x with busBusy := false }
  s.each (List.range 8) fun s l => (s.setFence [srcLine l] (srcLine l) false).wr .MTX_STATE l 0 1

/-- What a fence does at once, outside any group's strobes (Table "Source types"). -/
def State.fenceNow (s : State) (src : Nat) : State :=
  match srcType src with
  | some 7 => s.wr .MTX_STATE (src - 0x480) 0 1
  | some 10 => s.each allGroups fun s g => s.calEnd g 8 .FENCED
  | some 11 => s.netRestart
  | some 13 => if src = srcSp 1 then s.sp1Drop else s.sp0Drop
  | some 12 =>
    if src ≠ srcPtp then s.portLost (src - 0x493)
    else if s.rd .PTP_STATE = 3 then (s.wr .PTP_STATE 0 0 4).report srcPtp 0x31 0 0
    else s
  | some 17 =>
    let b := src - 0x4C0
    if b < 15 ∧ s.rd .NVM_RESERVE_USE = 255 ∧ s.drn.copying = none ∧ ¬ s.fencedSrc (srcBank 15) then
      { s with drn := { s.drn with copying := some b } }
    else
      let s := { s with drn := { s.drn with copying := if b = 15 then none else s.drn.copying } }.nvmSweep
      if (recPages 0).any s.pageDead then
        s.each ((s.chan.filter fun x => x.2.aper.rsvAsked.isSome).map (·.1)) fun s c => s.modAper c fun a => { a with rsvAsked := none }
      else s
  | _ => s

/-- A monitor that is fenced powers its converters down (R272). -/
def State.monFence (s : State) (g : Nat) : State :=
  s.modMon g fun m => { m with phase := .down, run := [], deciding := [], pulls := [], waits := false, urgent := none }

/-- A SEVERE report fences its source (R337): at once, and on its way to the group of a group's unit. Types whose SEVERE
response is none fence nothing; a CONFIG or PAIR_LINK report fences nothing either, and in the safe state nothing restarts (R355). -/
def State.fence (s : State) (m : FaultMsg) : State :=
  let src := m.source
  let t := (srcType src).getD 22
  if s.fencedSrc src ∨ t = 6 ∨ t = 14 ∨ t = 18 ∨ t = 19 ∨ t = 22 ∨ m.kind = 0x25 then s
  else if t = 11 then if s.latch then s else s.netRestart
  else
    let l := fenceSet src
    let s := (s.setFence l src (m.kind == 0x02)).fenceNow src
    let s := match groupOf src, t with
      | some g, 5 =>
        let s := match (s.gr g).mon.urgent with | some a => s.answer a .FENCED | none => s
        s.monFence g
      | some _, _ => { s with flt := { s.flt with arriving := insertBy id (s.now / 1000, src) s.flt.arriving } }
      | none, _ => s
    match groupOf src, t with
    | some g, 0 => if s.calUses g (src % 33) then s.calEnd g 8 .FENCED else s
    | some g, 1 | some g, 2 | some g, 3 | some g, 4 | some g, 20 => s.calEnd g 8 .FENCED
    | _, _ => s

/-- The response to a timebase's loss that a SEVERE CLOCK report takes is carried out as the monitor finds it (R20). -/
def State.respond_ (s : State) (r : Report) : State :=
  match r.cls with
  | .grave => s.safeEntry r
  | .severe =>
    let t := (srcType r.m.source).getD 22
    if s.rdT .FLT_SEVERE_ACT t ∧ ¬ s.fencedSrc r.m.source ∧ t ≠ 19 ∧ t ≠ 22 then s.safeEntry r
    else s.fence r.m
  | _ => s

/-! ### Intake, log (R350 to R353) -/

/-- An element enters the fault log ring (R352). -/
def State.faultLog (s : State) (n : Nat) : State :=
  let k := if s.rd .FLT_LOG_TOTAL = 0 ∧ s.flt.log.isEmpty then 0 else (s.rdN .FLT_LOG_NEWEST + 1) % ringSize
  let s := { s with flt := { s.flt with log := s.flt.log.put (fun _ => 0) k n } }
  let s := (s.wr .FLT_LOG_NEWEST 0 0 k).inc .FLT_LOG_TOTAL
  { s with nvm := { s.nvm with flogTotal := s.rdN .FLT_LOG_TOTAL } }

/-- The cause that TBA's stop detector stored enters FLT_SAFE_CAUSE, which keeps the first of a latch, and the fault log (R21,
R349). -/
def State.stopLogged (s : State) : State :=
  match s.stopCause with
  | some n => { s with cause := some (s.cause.getD n), stopCause := none }.faultLog n
  | none => s

/-- Reports in general places of the queue (R350). -/
def generals (q : List Queued) : Nat := (q.filter fun x => !x.reserved).length

/-- The elements that a run gives (R351). -/
def Run.elements (x : Run) : List Queued :=
  if x.count = 1 then [{ r := x.first }]
  else [{ r := x.first, coal := 1 }, { r := x.last, coal := 2, count := if 1023 < x.count then 1023 else x.count }]

/-- Runs drain into free general places, in the order in which they opened (R351; one of two elements waits for two places, DEDUCED,
log 93). -/
def drainRuns (q : List Queued) : List Run → List Queued × List Run
  | [] => (q, [])
  | x :: l => if generals q + x.elements.length ≤ 63 then drainRuns (q ++ x.elements) l else (q, x :: l)

/-- A report enters the queue, or its source's run (R350, R351). A GRAVE report, which is never folded, takes an open run of its source
with it, whose elements stand ahead of its own (R352; DEDUCED, log 106). -/
def State.intake (s : State) (r : Report) : State :=
  let q := s.flt.queue
  let run := s.flt.runs.find? (·.src = r.m.source)
  let s : State :=
    if r.cls ≠ .grave ∧ (run.isSome ∨ 63 ≤ generals q) then
      match run with
      | some _ =>
        let held := decide (2 ≤ (run.map (·.count)).getD 0)
        let s := if held then s.inc .FLT_COALESCED else s
        { s with flt := { s.flt with
            runs := s.flt.runs.map fun x => if x.src = r.m.source then { x with last := r, count := x.count + 1 } else x } }
      | none => { s with flt := { s.flt with runs := s.flt.runs ++ [⟨r.m.source, r, r, 1⟩] } }
    else { s with flt := { s.flt with queue := q ++ [{ r := r, reserved := decide (63 ≤ generals q), ahead := run }]
                                      runs := s.flt.runs.filter fun x => x.src ≠ r.m.source } }
  if s.rdN .FLT_QUEUE_MAX < s.flt.queue.length then s.wr .FLT_QUEUE_MAX 0 0 s.flt.queue.length else s

/-- The source objects of a report: counts and the latest report (Table "Source diagnostics"). -/
def State.countClass (s : State) (r : Report) : State :=
  let s := s.inc .FLT_REPORTS
  let s := match r.cls with
    | .note => s.inc .FLT_NOTES
    | .transient => s.inc .FLT_TRANSIENTS
    | .severe => s.inc .FLT_SEVERES
    | .grave => s
  let s := { s with flt := { s.flt with interval := s.flt.interval + 1 } }
  (s.inc .SRC_REPORTS r.m.source).wrV .SRC_LAST r.m.source 0 (.bytes (beBytes 16 (logElement r 0 1)))

/-- The edge of producer class 7 (R339). -/
def classEdge : FClass → Nat
  | .note => 0 | .transient => 1 | .severe => 2 | .grave => 3

/-- The error line cluster of a source (Table "Error line clusters", R332); none for a unit of no cluster. -/
def clusterOf (src : Nat) : Option Nat :=
  if 0x210 ≤ src ∧ src < 0x270 then some (src % 16)
  else if 0x280 ≤ src ∧ src < 0x480 then some ((src - 0x280) / 32)
  else if (0x480 ≤ src ∧ src ≤ 0x488) ∨ src = 0x496 then some 16
  else match src with
  | 0x490 => some 17 | 0x491 => some 18 | 0x492 | 0x493 | 0x494 | 0x495 => some 19 | 0x497 | 0x498 => some 20
  | 0x499 => some 21 | 0x49A => some 22 | 0x49C => some 24 | 0x49E => some 25
  | _ => if 0x4C0 ≤ src ∧ src < 0x4D0 then some 23 else none

/-- A cluster's coded message has arrived: its error line is explained (R332). -/
def State.lineHeard (s : State) (src : Nat) : State :=
  match clusterOf src with
  | none => s
  | some k => { s with flt := { s.flt with lineWait := s.flt.lineWait.filter (· ≠ k)
                                           lineMsg := s.flt.lineMsg.put (fun _ => 0) k (s.now + 1) } }

/-- A coded message enters the intake (R334): stamped, classified, counted, queued, its edge produced and its response
taken. A BOOT message is a log marker only (R353). -/
def State.takeReport (s : State) (m : FaultMsg) : State :=
  if m.kind = 0x08 then s.faultLog (logElement ⟨m, .note, s.stampNow⟩ 0 1)
  else
    let (s, cls) := (s.lineHeard m.source).classify m
    let r : Report := ⟨m, cls, s.stampNow⟩
    let s := ((s.countClass r).intake r).respond_ r
    s.edge (selector 7 0 (classEdge cls))

/-- The logger frees a place: the oldest queued report becomes an element, and runs drain where they find places (R350, R351). -/
def State.drain (s : State) : State :=
  match s.flt.queue with
  | x :: q =>
    let (q', l) := drainRuns q s.flt.runs
    let s := { s with flt := { s.flt with queue := q', runs := l } }
    let ahead := match x.ahead with | some r => r.elements | none => []
    s.each (ahead ++ [x]) fun s y => s.faultLog (logElement y.r y.coal y.count)
  | [] => s

/-! ### Fences in force at a strobe (R159, R337) -/

/-- The control or filter engine's fence at its strobe: FORCE and COMPL enter MUTE with cause 6, OFF ramps go on
open-loop (R101, R103). -/
def State.engineFenceAt (s : State) (g : Nat) : State :=
  s.each (chansOf g) fun s c =>
    ((s.muteAt c 6).getD s).rampHand c

/-- Slide's fence at its strobe (Table "Slide collisions"): before the make strobe a Slide is cancelled, later its break
completes on the held code and the channel enters MUTE. -/
def State.slideFenceAt (s : State) (g : Nat) : State :=
  s.each (chansOf g) fun s c =>
    match (s.ch c).slide.phase with
    | .made | .broken _ =>
      let s := s.pendCancel c .FENCED 9
      (s.muteAt c 6).getD s
    | _ => s.slideEnd c .FENCED 9

end Sys2Proof.Machine
end

