-- ==== Sys2Proof/Machine/Operands.lean ====
section
/-! DEFINITION. Operand forms of a write and the access checks (R40 to R45, R56 to R58): units and their owners, the
decoding of values, reserved fields, limits, and values that are undefined or inconsistent. -/
namespace Sys2Proof.Machine
open Sys2Proof

/-! ### Ownership units (Table "Ownership units", R56, R297, R402) -/

/-- A unit with an OWNER and a SECURE object. -/
inductive OwnUnit where
  | channel (c : Nat)
  | group (g : Nat)
  | event (n : Nat)
  | sp1
  | config
  deriving DecidableEq, Repr

/-- The unit that covers an object. -/
def unitOf (o : Obj) (i : Nat) : OwnUnit :=
  let b := o.desc.base
  if b = 0x8000 ∨ b = 0xA000 then .channel i
  else if 0x4000 ≤ b ∧ b < 0x4100 then .group i
  else if b = 0x3200 then .event i
  else if b = 0x1401 ∨ b = 0x1420 ∨ (b = 0x1400 ∧ i = 1) ∨ (b = 0x1410 ∧ 8 ≤ i) then .sp1
  else .config

/-- OWNER object, SECURE object and instance of a unit. -/
def OwnUnit.objs : OwnUnit → Obj × Obj × Nat
  | .channel c => (.CH_OWNER, .CH_SECURE, c)
  | .group g => (.GROUP_OWNER, .GROUP_SECURE, g)
  | .event n => (.EV_OWNER, .EV_SECURE, n)
  | .sp1 => (.SP1_OWNER, .SP1_SECURE, 0)
  | .config => (.CONFIG_OWNER, .CONFIG_SECURE, 0)

/-- OWNER of a unit. -/
def State.owner (s : State) (u : OwnUnit) : Nat := s.rdN u.objs.1 u.objs.2.2
/-- SECURE of a unit. -/
def State.secureUnit (s : State) (u : OwnUnit) : Bool := s.rdT u.objs.2.1 u.objs.2.2

/-- The OWNER objects (R57). -/
def isOwner : Obj → Bool
  | .CH_OWNER | .GROUP_OWNER | .EV_OWNER | .SP1_OWNER | .CONFIG_OWNER => true
  | _ => false
/-- The SECURE objects (R58). -/
def isSecure : Obj → Bool
  | .CH_SECURE | .GROUP_SECURE | .EV_SECURE | .SP1_SECURE | .CONFIG_SECURE => true
  | _ => false

/-- Step 4 of R45 for a write (R56 to R58): true where it passes. `v` is the value that the write carries. -/
def State.ownerOk (s : State) (o : Obj) (i n : Nat) (v : Int) : Bool :=
  let own := s.owner (unitOf o i)
  if isSecure o then own == n
  else if isOwner o then own == n || (own == 0 && v == n)
  else own == 0 || own == n

/-! ### Values on the wire (R43) -/

/-- Types in two's complement. -/
def tySigned : Ty → Bool
  | .I8 | .I16 | .I32 | .I64 | .FRAC24 | .FRAC18 => true
  | _ => false

/-- A number of a type fits its wire form. -/
def fitsTy (t : Ty) (n : Int) : Bool :=
  let w := 8 * tyLen t
  if tySigned t then decide (-(2 ^ (w - 1) : Int) ≤ n ∧ n < (2 ^ (w - 1) : Int)) else decide (0 ≤ n ∧ n < (2 ^ w : Int))

/-- Step 5 of R45: the value that a write carries in the object's type; none where code or length differ. A number that
the type's wire form cannot carry is taken as one of another length (DEDUCED, log 13). -/
def decodeVal (t : Ty) : WireVal → Option Val
  | .num n => if t = .STR ∨ t = .BLOB then none else if fitsTy t n then some (.num n) else none
  | .raw c b =>
    if c ≠ tyCode t then none
    else match t with
    | .STR => if 1 ≤ b.length ∧ b.length = 1 + beNat (b.take 1) then some (.bytes (b.drop 1)) else none
    | .BLOB =>
      if 2 ≤ b.length ∧ b.length = 2 + beNat (b.take 2) ∧ b.length ≤ 1026 then some (.bytes (b.drop 2)) else none
    | _ =>
      if b.length = tyLen t then
        some (.num (if tySigned t then sext (8 * tyLen t) (beNat b) else beNat b))
      else none

/-- A value without meaning in its type: a BOOL other than 0 and 1, a FRAC18 that is not sign-extended (R43), a TIME80
with 10^9 nanoseconds or more (R9; DEDUCED, log 13). -/
def malformed (t : Ty) (v : Val) : Bool :=
  match t with
  | .BOOL => decide (1 < v.int)
  | .FRAC18 => decide (v.int < -131072 ∨ 131071 < v.int)
  | .TIME80 => decide (1000000000 ≤ v.int % 4294967296)
  | _ => false

/-! ### Reserved fields and limits (steps 6 and 7 of R45) -/

/-- Reserved bits of an object's layout (R7). -/
def reservedBits : Obj → Nat
  | .NOTCH_SHIFTS => 0xFFF00000
  | .AR_CTRL => 0xFC
  | .TEV_V_CTRL | .TEV_I_CTRL => 0xE0
  | .REED_V_CTRL | .REED_I_CTRL => 0xF2
  | .MON_TRIG => 0xF0
  | .MON_ENTRY => 0x1FFFFFFF00030003
  | .EV_CTRL => 0xF8
  | .EV_ACT => 0x30000
  | .SEL_CFG => 0xFF00C0C0
  | .LEDGER_CMD => 0x0FF00000
  | _ => 0

/-- The value lies within the limits of its object (R44). -/
def inLimits (o : Obj) (i : Nat) (v : Val) : Bool :=
  let n := v.int
  let d := o.desc
  match v with
  | .bytes b =>
    match o with
    | .SESSION_KEY => b.length == 0 || b.length == 32
    | .SP1_TX | .SP1_MB_TX => decide (4 ≤ b.length ∧ b.length ≤ 256) && b.length % 4 == 0
    | .STREAM_CHANNELS => b.length == 64
    | _ => decide (d.lo ≤ b.length ∧ (b.length : Int) ≤ d.hi)
  | .num _ =>
    match o with
    | .RANGE_SET | .AR_I_BOUNDS | .AR_V_BOUNDS =>
      let top := if o = .AR_I_BOUNDS then 8 else 2
      let low := if o = .AR_V_BOUNDS then 2 else 8
      decide (bits n.toNat 4 4 ≤ top ∧ bits n.toNat 0 4 ≤ low)
    | .SP1_POLL => n == 0 || decide (10 ≤ n ∧ n ≤ 1000000)
    | .SP1_SLAVE_SEL => decide (n ≤ 7) || n == 0xFF
    | .PAIR_WIT_EVO | .PAIR_WIT_EVI => decide (n ≤ 15) || n == 0xFF
    | .EP_CONNECT => decide (n ≤ 2047) || n == 0xFFFF
    | .STREAM_PKT_MAX => decide (16 ≤ n ∧ n ≤ 512) && n % 16 == 0
    | .SP_ROLE => decide (n ≤ 2)
    | .SEL_CFG => decide (i < 8) || decide (4 ≤ bits n.toNat 8 6 ∧ bits n.toNat 8 6 ≤ 32)
    | _ => decide (d.lo ≤ n ∧ n ≤ d.hi)

/-! ### Values pending for a strobe (R42, R46) -/

/-- The value that a change brings for an object's element. -/
def What.value (o : Obj) (i e : Nat) : What → Option Int
  | .set o' i' e' v => if o' = o ∧ i' = i ∧ e' = e then some v else none
  | .range c r =>
    if c ≠ i then none else
      match o with
      | .V_RANGE => r.vr.map Int.ofNat
      | .I_RANGE => r.ir.map Int.ofNat
      | _ => none
  | .modeApply _ ts => (ts.find? fun t => t.o = o ∧ t.i = i ∧ t.e = e).map fun t => t.v.int
  | _ => none

/-- The latest value on its way to an object's element, among changes that `p` admits. -/
def State.pendBy (s : State) (p : Change → Bool) (o : Obj) (i e : Nat) : Option Int :=
  match groupOfObj o i with
  | none => none
  | some g =>
    let l := ((s.gr g).frozen ++ (s.gr g).arrived).filter p
    l.reverse.findSome? fun x => x.what.value o i e

/-- The value that an object's element has or is about to have: what consistency is checked against. -/
def State.latest (s : State) (o : Obj) (i : Nat := 0) (e : Nat := 0) : Int :=
  (s.pendBy (fun _ => true) o i e).getD (s.rd o i e)
/-- The same as a natural number. -/
def State.latestN (s : State) (o : Obj) (i : Nat := 0) (e : Nat := 0) : Nat := (s.latest o i e).toNat

/-! ### Values undefined or inconsistent (step 8 of R45) -/

/-- A value of the staging bank of a channel, or the latest one (R131). -/
def State.bankVal (s : State) (c : Nat) (o : Obj) : Int :=
  match (s.ch c).bank with
  | some l => ((l.find? fun p => p.1 = o).map (·.2)).getD (s.latest o c)
  | none => s.latest o c

/-- A notch set read by `f` passes Table "Notch acceptance" (R116). -/
def notchSetOk (f : Obj → Int) : Bool :=
  let h := (f .NOTCH_SHIFTS).toNat
  notchOk [⟨f .NB0, bits h 16 4⟩, ⟨f .NB1, bits h 12 4⟩, ⟨f .NB2, bits h 8 4⟩, ⟨f .NA1, bits h 4 4⟩, ⟨f .NA2, bits h 0 4⟩]

/-- A producer selector names a defined edge (Table "Producer classes", R292). -/
def selectorOk (x : Nat) : Bool :=
  let cls := bits x 12 4
  let n := bits x 3 9
  let e := bits x 0 3
  match cls with
  | 0 => n == 0 && e == 0
  | 1 | 2 => decide (e < 4)
  | 3 => decide (e < 3)
  | 4 => decide (n < 16 ∧ e < 2)
  | 5 => decide (n < 16 ∧ e < 2)
  | 6 => decide (n = 0 ∧ e < 2)
  | 7 => decide (n = 0 ∧ e < 4)
  | 8 => decide (n = 0 ∧ e < 2)
  | _ => false

/-- An action word is well formed beside its reserved bits (R294, Table "Action operations"). -/
def actionOk (w : Nat) : Bool :=
  let op := aOp w
  let arg := aArg w
  if 10 ≤ op then false
  else if 1 ≤ op ∧ op ≤ 3 then
    (!aScope w || aCh w % 32 == 0) && decide (arg < 256) &&
      (if op = 3 then decide (bits arg 4 4 ≤ 2 ∧ bits arg 0 4 ≤ 8) else decide (arg ≤ 4))
  else
    !aScope w && aCh w == 0 &&
      (match op with
       | 4 => decide (arg < 16)
       | 5 | 6 => true
       | 7 => bits arg 2 6 == 0 && decide (arg < 4096)
       | _ => arg == 0)

/-- Fields of an entry half (Table "Entry half"). -/
def hSrc (x : Nat) : Nat := bits x 9 7
def hSamp (x : Nat) : Nat := bits x 6 3
def hGain (x : Nat) : Nat := bits x 4 2
def hPull (x : Nat) : Nat := bits x 2 2
/-- The ball that a source's pull acts on: SH of channel 0..31, or 32 for Gg_SL; none where no pull is allowed (Table
"Monitor sources"). -/
def pullBall (src : Nat) : Option Nat :=
  if src < 0x40 then some (src % 32) else if src = 0x40 then some 32 else none
/-- An enabled half is well formed (R262). -/
def halfOk (x : Nat) : Bool :=
  decide (hSrc x < 0x4E) && !(hSrc x == 0x4C && hGain x != 0) && hPull x != 3 && (hPull x == 0 || (pullBall (hSrc x)).isSome)
/-- A monitor entry is well formed beside its reserved bits (R262). -/
def entryOk (n : Nat) : Bool :=
  let a := bits n 16 16
  let b := bits n 0 16
  let ea := bit n 63
  let eb := bit n 62
  (!ea || halfOk a) && (!eb || halfOk b) &&
    !(ea && eb && hPull a != 0 && hPull b != 0 && pullBall (hSrc a) == pullBall (hSrc b)) &&
    (!bit n 61 || (ea && eb && hSrc a == hSrc b && hSamp a == hSamp b && hPull b == 0))

/-- A SEL_CFG value is consistent on port n (Table "SEL_CFG layout", R386, R387, R388, R483). -/
def selCfgOk (port x : Nat) : Bool :=
  let wlen := bits x 8 6
  bits x 16 8 != 0 && (port != 0 || wlen == 32) && (!bit x 4 || (wlen % 2 == 0 && bit x 3 && 2 ≤ bits x 16 8))

/-- Values of a serial port that its rows admit and R386 to R391 do not. -/
def portBad (o : Obj) (i : Nat) (v : Val) : Bool :=
  match o with
  | .SEL_CFG => !selCfgOk (i / 8) v.int.toNat
  | .SP_ROLE => i == 0 && v.int == 2
  | _ => false

/-- Pages that all waveforms but `n` occupy. -/
def State.pagesOthers (s : State) (n : Nat) : Nat :=
  ((List.range 64).map fun k => if k = n then 0 else wavePages (s.rdN .WAVE_LEN k)).sum

/-- A region of sweep memory is free for channel c: within the memory and clear of every other region (R199). -/
def State.regionOk (s : State) (c base len : Nat) : Bool :=
  decide (base + len ≤ 131072) &&
    allChans.all fun d =>
      let b := s.rdN .SW_BASE d
      let l := s.rdN .SW_LEN d
      decide (d = c ∨ len = 0 ∨ l = 0 ∨ base + len ≤ b ∨ b + l ≤ base)

/-- The taps of a filter engine sum to unit gain (R195). -/
def State.tapsOk (s : State) (g : Nat) : Bool := (s.loopTaps g).sum == 131072 && (s.recTaps g).sum == 131072

/-- The words of an SP1 blob (R399). -/
def blobWords : List Byte → List Nat
  | a :: b :: c :: d :: l => beNat [a, b, c, d] :: blobWords l
  | _ => []

/-- WLEN of select s of SP1 (Table "SEL_CFG layout"). -/
def State.sp1Wlen (s : State) (sel : Nat) : Nat := bits (s.rdN .SEL_CFG (8 + sel)) 8 6
/-- A list may run on a select: it is not empty and every word fits (R400). -/
def State.listOk (s : State) (sel : Nat) : Bool :=
  let l := blobWords (s.rdV .SP1_TX).blob
  !l.isEmpty && l.all fun w => decide (w < 2 ^ s.sp1Wlen sel)

/-- Streams other than k that name a channel which the field names (R376). -/
def State.chanTaken (s : State) (k : Nat) (b : List Byte) : Bool :=
  (List.range 32).any fun j =>
    j != k && ((s.rdV .STREAM_CHANNELS j).blob.zip b).any fun p => (p.1 &&& p.2) != 0#8

/-- A source that FLT_UNFENCE may name (R341). -/
def State.unfenceOk (s : State) (n : Nat) : Bool :=
  s.fencedSrc n &&
    (match srcType n with
     | none | some 0 | some 9 | some 15 | some 16 | some 21 | some 22 => false
     | _ => true)

/-- Step 8 of R45: the value is undefined or inconsistent with related objects. -/
def State.badValue (s : State) (o : Obj) (i : Nat) (v : Val) : Bool :=
  let n := v.int
  let m := n.toNat
  match o with
  | .MTRGO_PHASE => decide (s.rd .MTRGO_PERIOD ≤ n)
  | .AR_I_DOWN => decide (s.rd .AR_I_UP i ≤ n * 10)
  | .AR_I_UP => decide (n ≤ s.rd .AR_I_DOWN i * 10)
  | .AR_V_DOWN => decide (s.rd .AR_V_UP i ≤ n * 5)
  | .AR_V_UP => decide (n ≤ s.rd .AR_V_DOWN i * 5)
  | .AR_I_BOUNDS | .AR_V_BOUNDS => decide (bits m 4 4 < bits m 0 4)
  | .REED_V_HI => decide (n ≤ s.latest .REED_V_LO i)
  | .REED_V_LO => decide (s.latest .REED_V_HI i ≤ n)
  | .REED_I_HI => decide (n ≤ s.latest .REED_I_LO i)
  | .REED_I_LO => decide (s.latest .REED_I_HI i ≤ n)
  | .REED_V_CTRL | .REED_I_CTRL => bits m 2 2 == 3
  | .EV_SEL => !selectorOk m
  | .EV_ACT => !actionOk m
  | .MON_ENTRY => !entryOk m
  | .MON_URGENT => !(bit (s.rdN .MON_ENTRY i m) 63 || bit (s.rdN .MON_ENTRY i m) 62)
  | .SEL_CFG | .SP_ROLE => portBad o i v
  | .LEDGER_CMD => decide (bits m 28 4 = 0 ∨ 4 ≤ bits m 28 4)
  | .NOTCH_EN => n == 1 && (s.ch i).bank.isNone && !notchSetOk fun o => s.latest o i
  | .LAW_HOLD => n == 0 && (s.ch i).bank.isSome && s.bankVal i .NOTCH_EN == 1 && !notchSetOk (s.bankVal i)
  | .SW_BASE => !s.regionOk i m (s.rdN .SW_LEN i)
  | .SW_LEN => !s.regionOk i (s.rdN .SW_BASE i) m
  | .WAVE_LEN => decide (341 < s.pagesOthers i + wavePages m)
  | .STREAM_CHANNELS => s.chanTaken i v.blob
  | .STREAM_EN => n == 1 && s.rd .STREAM_DEST_IP i == 0
  | .FILT_RUN => n == 1 && !s.tapsOk i
  | .FLT_UNFENCE => !s.unfenceOk m
  | .FLT_SEVERE_ACT => n == 0 && (i == 19 || i == 22)
  | .SP1_GO => !s.listOk m
  | _ => false

/-! ### Running engines (step 9 of R45) -/

/-- The owning group or engine of an RWS object is stopped (R39, R195, R199, R218, R376). -/
def State.stopped (s : State) (o : Obj) (i : Nat) : Bool :=
  match o with
  | .TICK_RATE => !(s.gr i).ctl && (s.gr i).filt == .stopped
  | .LOOP_FIR | .REC_FIR | .REC_FIR_LEN => (s.gr i).filt == .stopped
  | .SW_BASE | .SW_LEN => (s.ch i).cht.st == .idle
  | .WAVE_LEN => s.rd .WAVE_PLAYERS i == 0
  | .STREAM_PORTS | .STREAM_DEST_IP | .STREAM_DEST_PORT | .STREAM_CHANNELS | .STREAM_AGG_GROUPS | .STREAM_FAILOVER
  | .STREAM_PKT_MAX => !s.rdT .STREAM_EN i
  | _ => true

/-! ### The access checks (R45) -/

/-- Step 1: what stands at an address for a plain access. `isRead` admits subindex 0. -/
inductive Place where
  | obj (o : Obj) (i e : Nat)
  | top (n : Nat)
  | bad (st : Status)
  deriving DecidableEq, Repr

/-- Step 1 of R45: the object at an address, the subindex 0 of an index, or the failing status (R40, R41). -/
def placeOf (t : Target) : Place :=
  match t with
  | .obj o i e => .obj o i e
  | .raw idx sub =>
    if (largeTable idx).isSome then .bad .BLOCK_ONLY
    else match topSub idx with
    | none => .bad .NO_OBJECT
    | some n =>
      if sub = 0 then .top n
      else match findObj idx sub with
      | some (o, i, e) => .obj o i e
      | none => .bad .NO_SUBINDEX

/-- Steps 2 and 3 of R45 for a read of an object. -/
def readCheck (o : Obj) (secure : Bool) : Option Status :=
  if o.desc.sec && !secure then some .SECURE_ONLY
  else if o.desc.cls = .WO then some .WRITE_ONLY
  else none

/-- Steps 2 to 4 of R45 for a write, given the value in the object's type where it decodes. -/
def State.rightsCheck (s : State) (o : Obj) (i n : Nat) (secure : Bool) (v : Option Val) : Option Status :=
  if (o.desc.sec || isSecure o || s.secureUnit (unitOf o i)) && !secure then some .SECURE_ONLY
  else if o.desc.cls = .RO ∨ o.desc.cls = .CONST then some .READ_ONLY
  else if !s.ownerOk o i n ((v.map Val.int).getD (-1)) then some .NOT_OWNER
  else none

/-- Steps 5 to 8 of R45 on a value. -/
def State.valueCheck (s : State) (o : Obj) (i : Nat) (v : Option Val) : Option Status :=
  match v with
  | none => some .TYPE_MISMATCH
  | some v =>
    if malformed o.desc.ty v then some .BAD_VALUE
    else if (v.int.toNat &&& reservedBits o) ≠ 0 then some .RESERVED_NONZERO
    else if !inLimits o i v then some .OUT_OF_RANGE
    else if s.badValue o i v then some .BAD_VALUE
    else none

/-- Steps 2 to 9 of R45 for a write of session n: the first failure. -/
def State.writeCheck (s : State) (o : Obj) (i n : Nat) (secure : Bool) (v : Option Val) : Option Status :=
  match s.rightsCheck o i n secure v with
  | some st => some st
  | none =>
    match s.valueCheck o i v with
    | some st => some st
    | none => if o.desc.cls = .RWS && !s.stopped o i then some .RWS_RUNNING else none

end Sys2Proof.Machine
end

