-- ==== Sys2Proof/Machine/Flags.lean ====
section
/-! DEFINITION. What the read-only objects show: status words and counts computed from the state (R38, R77, R106, R135,
R161, R196, R231, R256, R276, R288, R306, R329, R356, R383, R402, R424, R445, R466). -/
namespace Sys2Proof.Machine
open Sys2Proof

/-! ### Channel status words -/

/-- OUT_STATE (Table "OUT_STATE layout"). -/
def outStateWord (h : Chan) : Nat := b2n h.transit * 128 + h.out.code

/-- ISO_STATE (Table "ISO_STATE layout"). -/
def isoWord (h : Chan) : Nat :=
  (match h.bg with | .off => 0 | .track => 1 | .drive => 2) * 64 + b2n h.onSpare * 32 + b2n h.drv * 16 + b2n h.isoI * 4
    + b2n h.isoS * 2 + b2n h.isoF

/-- LOOP_STATUS (Table "LOOP_STATUS layout"). -/
def State.loopWord (s : State) (c : Nat) : Nat :=
  let h := s.ch c
  b2n h.holdBit * 128 + b2n h.run.sat * 64 + b2n h.run.declHit * 32 + b2n h.heldBit * 16
    + (if h.out.loop || h.run.ramp.isSome then h.run.sel else 3) * 4 + b2n (s.rdT .FORCE_MODE c) * 2

/-- SLIDE_STATUS (Table "SLIDE_STATUS layout"). -/
def State.slideWord (s : State) (c : Nat) : Nat :=
  let l := (s.ch c).slide
  if s.standby (grpOf c) then (s.ch c).peerSlide
  else b2n (l.phase != .idle) * 128 + b2n l.pend.isSome * 64 + b2n (s.limitCut c) * 32 + b2n l.auto * 16 + l.refusal

/-- CHT_STATE (Table "CHT_STATE layout"). -/
def State.chtWord (s : State) (c : Nat) : Nat :=
  let t := (s.ch c).cht
  b2n t.paused * 32 + b2n (s.frozen c) * 16 + (match t.st with | .idle => 0 | .wait => 1 | .settle => 2 | .dwell => 3)

/-- EP_HELD (Table "EP_HELD layout"). -/
def heldWord (h : Hold) : Nat :=
  match h.ep with
  | some p => 2 ^ 31 + b2n h.alt * 2 ^ 30 + b2n h.settling * 2 ^ 29 + p
  | none => b2n h.settling * 2 ^ 29

/-- REED_STATUS (Table "REED_STATUS layout"). -/
def reedWord (h : Chan) : Nat := h.zoneV * 64 + h.zoneI * 16 + h.seen

/-- CAL_STATUS (Table "CAL_STATUS layout"). -/
def State.calWord (s : State) (c : Nat) : Nat :=
  let h := s.ch c
  let dist := s.dtFar c
  let ok (r : Nat) : Bool := (calOf s.cal (elemNo (s.sliceOf c) r)).valid
  let uncal := !(ok (s.rdN .V_RANGE c) && ok (s.rdN .I_RANGE c + 3))
  b2n h.calBusy * 128 + b2n h.calMeas * 64 + b2n h.calHold * 32 + b2n h.envelope * 16 + b2n dist * 8 + b2n uncal * 4

/-- Integrators in units of 2^-23 (R135). -/
def integView (x : Int) : Int := clampI (-16777216) 16777215 (roundEven x (2 ^ 17))

/-! ### Group status words -/

/-- SPARE_STATE (R106). -/
def spareWord (g : Group) : Nat := g.spare * 2 ^ 14 + (if g.spare = 0 then 0 else g.spareFor)

/-- SLICE_FAILED (R106). -/
def State.sliceFailed (s : State) (g : Nat) : Nat :=
  ((List.range 33).map fun p => if s.fencedSrc (srcSlice g p) then 2 ^ p else 0).sum

/-- The slice position under measurement (R329): none while its channel is handed over or awaits its strobe. -/
def State.calAt (s : State) (g : Nat) : Option Nat :=
  let k := (s.gr g).cal
  match k.phase, k.todo with
  | 1, p :: _ =>
    let c := if p = 32 then 32 * g + (s.gr g).spareFor else 32 * g + p
    if !k.ranges.isEmpty && (s.gr g).hand == 0 && ((p == 32 && (s.gr g).spare == 0) || (s.ch c).calMeas) then some (s.calPos g p) else none
  | _, _ => none

/-- CAL_STATE (Table "CAL_STATE layout"): its reset value until the first command of the group, then with SLICE 63 where no slice is
under measurement (R329; DEDUCED, log 104). -/
def State.calStateWord (s : State) (g : Nat) : Nat :=
  let k := (s.gr g).cal
  if k.phase = 0 ∧ s.rd .CAL_RESULT g = 0 then 0 else k.phase * 64 + (s.calAt g).getD 63

/-- Rotation goes on in a group's monitor: not in deep sleep, during TBM loss, on a fenced converter or in a group without power (R258,
R458). -/
def State.monRotates (s : State) (g : Nat) : Bool :=
  !s.fencedSrc (srcMon g) && s.tb tbM == 2 && !s.pwr.asleep && (s.gr g).powered

/-- MON_STATE (Table "MON_STATE layout"). -/
def State.monWord (s : State) (g : Nat) : Nat :=
  let m := (s.gr g).mon
  b2n (s.fencedSrc (srcMon g)) * 128 + b2n (m.phase != .down) * 64 + b2n m.waits * 32
    + b2n (m.spareA == 7 || m.agedA != 0) * 16 + b2n (m.spareB == 7 || m.agedB != 0) * 8

/-- MON_SLICES (Table "MON_SLICES layout"): the spares read 7 while rotation has stopped. -/
def State.monSlices (s : State) (g : Nat) : Nat :=
  let m := (s.gr g).mon
  let on := s.monRotates g
  (if on then m.spareA else 7) * 2 ^ 13 + m.failA * 2 ^ 8 + (if on then m.spareB else 7) * 32 + m.failB

/-- The bytes of accumulator k of a group: A entries 0..15, then B entries (Table "Monitor accumulator"). -/
def State.accBytes (s : State) (g k : Nat) : List Byte :=
  let m := (s.gr g).mon
  let a := m.acc.get (fun _ => {}) k
  let e := m.inForce.get (fun _ => 0) (k % 16)
  let half := if k < 16 then bits e 16 16 else bits e 0 16
  beBytes 16 (code 40 a.sum * 2 ^ 88 + a.count * 2 ^ 64 + code 16 a.mn * 2 ^ 48 + code 16 a.mx * 2 ^ 32 + b2n a.full * 2 ^ 31
    + b2n a.pairFail * 2 ^ 30 + b2n a.aged * 2 ^ 29 + b2n a.newcfg * 2 ^ 28 + hSrc half * 2 ^ 17 + hGain half * 2 ^ 15
    + a.clips)

/-- The tap-weighted mean index of a FIR times `unit` ps, rounded half to even (R169, R171; the rounding DEDUCED,
log 14). Taps that sum to 0 have no mean: a free value (log 15). A read cuts a negative delay, which U32 cannot hold, to 0 (DESIGN
CHOICE, log 14). -/
def State.firDelay (s : State) (taps : List Int) (unit : Int) : Int :=
  let t := taps.sum
  let n := ((taps.zipIdx.map fun p => p.1 * (p.2 : Int)).sum) * unit
  if t = 0 then (Config.freeValue s.fresh).toNat
  else if t < 0 then roundEven (-n) (-t) else roundEven n t

/-! ### Device status words -/

/-- The port that carries PTP (R366). -/
def State.ptpPort (s : State) : Nat :=
  match s.rdN .PTP_PORT with
  | 1 => 0
  | 2 => 1
  | _ => if s.net0.link && s.clk.src0.isSome then 0 else 1

/-- The selected source of the port that carries PTP. -/
def State.ptpSource (s : State) : Option Nat := if s.ptpPort = 0 then s.clk.src0 else s.clk.src1

/-- NET_CAPACITY in records/s (R382); a port that is off carries none (DEDUCED, log 14). -/
def State.netCapacity (s : State) (p : Nat) : Nat :=
  let m := if s.rdT .NET_JUMBO p then 512 else 90
  let v := if s.rd .NET_VLAN p = 0 then 0 else 4
  let rate := match s.rdN .NET_MODE p with | 0 => 0 | 1 => 10000000000 | _ => 1000000000
  96 * rate * m / (100 * (8 * (16 * m + 98 + v)))

/-- Channels that a stream carries. -/
def State.streamChans (s : State) (k : Nat) : List Nat := allChans.filter fun c => s.streamHas k c

/-- NET_LOAD in records/s (R382): the sum over the channels of the port's streams, rounded down (DEDUCED, log 14). -/
def State.netLoad (s : State) (p : Nat) : Nat :=
  let ks := (List.range 32).filter fun k => s.rdT .STREAM_EN k && bit (s.streamPorts k) p
  let l := ks.flatMap fun k => (s.streamChans k).map fun c => s.rdN .APERTURE_N c
  let (a, b) := l.foldl (fun (x : Nat × Nat) n => if n = 0 then x else (x.1 * n + 1000000 * x.2, x.2 * n)) (0, 1)
  a / b

/-- NET_STATE (Table "NET_STATE layout"). -/
def State.netWord (s : State) (p : Nat) : Nat :=
  let carry := (List.range 32).any fun k => (s.st k).movedTo == some p
  b2n (s.fencedSrc (srcNet p)) * 128 + b2n (s.port p).link * 64 + b2n (s.rd .NET_IP p != 0) * 32
    + b2n (decide (s.netCapacity p < s.netLoad p)) * 16 + b2n carry * 8
    + b2n (s.rd .TIME_SRC == 0 && s.ptpPort == p && s.portUsable p) * 4

/-- SP_STATUS (Table "SP_STATUS layout"). -/
def State.spWord (s : State) (n : Nat) : Nat :=
  let p := s.sp n
  b2n (s.fencedSrc (srcSp n)) * 128 + b2n p.mastering * 64 + b2n p.slave * 32 + b2n p.busBusy * 16 + b2n p.mmFault * 8
    + b2n p.strobeErr * 4

/-- NVM_ENDURANCE (R433). -/
def endurance : Nat := 1000000000000

/-- NVM_WEAR: writes of the most-written physical page of a bank (R432). -/
def State.wearMax (s : State) (b : Nat) : Nat :=
  (s.nvm.wear.filterMap fun p => if p.1 / 257 = b then some p.2 else none).foldl max 0

/-- NVM_BANK_STATE (Table "NVM_BANK_STATE layout"). -/
def State.bankWord (s : State) (b : Nat) : Nat :=
  let use := s.rdN .NVM_RESERVE_USE
  b2n (s.fencedSrc (srcBank b)) * 128 + b2n (use == b && s.drn.copying.isNone) * 64
    + b2n (decide (8 * endurance ≤ 10 * s.wearMax b)) * 32 + b2n (s.drn.copying == some b) * 16

/-- The active half of the configuration area (R74). -/
def State.half (s : State) : Half := if s.nvm.active = 0 then s.nvm.half0 else s.nvm.half1

/-- Overlay m of a half (R66). -/
def Half.overlay (h : Half) (m : Nat) : List Triple := h.overlays.get (fun _ => []) m
/-- Overlay m in use (R66, R76). -/
def State.overlay (s : State) (m : Nat) : List Triple :=
  if s.cfg.loaded && s.half.valid then s.half.overlay m else []

/-- OVERLAY_GROUPS: the groups whose objects, or whose channels' objects, the triples write. -/
def tripleGroups (ts : List Triple) : List Nat := allGroups.filter fun g => ts.any fun t => groupOfObj t.o t.i == some g

/-- SRC_LEVEL: the bucket in units of W, rounded up, saturating (R335, Table "Source diagnostics"). -/
def State.srcLevel (s : State) (n : Nat) : Nat :=
  let b := s.flt.bucket.get (fun _ => 0) n
  let w := s.rdN .FLT_W ((srcType n).getD 22) * 1000
  let x := if w = 0 then 0 else ceilDiv b w
  if 255 < x then 255 else x

/-- Map elements that differ from their default (R235). -/
def State.mapUsed (s : State) : Nat := s.mtx.map.length

/-- Ledger elements with a flag (R256). -/
def State.ledgerCount (s : State) (k : Nat) : Nat := (s.mtx.ledger.filter fun p => bit p.2 k).length

/-- A temperature difference as its I16 object shows it (R329). -/
def dtView (x : Int) : Int := clampI (-32768) 32767 x

/-- TB_STATUS of a timebase (R20): lost since the last read, else the present state, a lost one reading absent. -/
def State.tbView (s : State) (t : Nat) : Nat := if bit s.clk.tbSeen t then 3 else if s.tb t = 4 then 0 else s.tb t

/-! ### The value of a read (R42) -/

/-- What a read of an object shows, before what the read itself changes. A negative delay of a FIR reads 0 (R169; DESIGN CHOICE,
log 14), and CHT_UNIT shows the low 16 bits of its index (R231; DESIGN CHOICE, log 112). -/
def State.view (s : State) (o : Obj) (i e : Nat) : Val :=
  let h := s.ch i
  let n (x : Nat) : Val := .num (x : Int)
  match o with
  | .TB_STATUS => n (s.tbView e)
  | .BUDGET_USED => n (ceilDiv s.charges 1000)
  | .ORDER_CODE => .bytes (ascii (if Config.screenedP then "SZ5128-FB3600-P" else "SZ5128-FB3600-I"))
  | .SERIAL => n Config.serial.toNat
  | .SESSIONS_OPEN => n ((rangeFrom 1 8).filter fun k => (s.se k).kind != 0).length
  | .SESSION_STATE => n (s.se i).kind
  | .SESSION_OUTSTANDING => n ((s.se i).outst.length + (s.se i).waiting.length)
  | .SESSION_PEER => n (s.se i).ip
  | .IMAGE_ID => n s.half.id
  | .IMAGE_HALF => n s.nvm.active
  | .IMAGE_COMMITS => n s.nvm.imageCommits
  | .OVERLAY_TRIPLES => n (s.overlay i).length
  | .OVERLAY_SECURE => n (b2n ((s.overlay i).any fun t => t.o.desc.sec))
  | .OVERLAY_GROUPS => n ((tripleGroups (s.overlay i)).map fun g => 2 ^ g).sum
  | .OUT_STATE => n (outStateWord h)
  | .SLICE_POS => n (if h.out = .retired then 0xFF else s.pos i)
  | .ISO_STATE => n (isoWord h)
  | .DAC_CODE => .num h.dac
  | .SPARE_STATE => n (spareWord (s.gr i))
  | .SLICE_FAILED => n (s.sliceFailed i)
  | .LOOP_STATUS => n (s.loopWord i)
  | .INTEG_P => .num (integView h.run.law.ip)
  | .INTEG_LH => .num (integView h.run.law.ih)
  | .INTEG_LL => .num (integView h.run.law.il)
  | .SLIDE_STATUS => n (s.slideWord i)
  | .REC_RESERVED => n (s.reserved i)
  | .FILT_STATE => n (match (s.gr i).filt with | .stopped => 0 | .filling => 1 | .running => 2)
  | .LOOP_FIR_DELAY =>
    let k : Nat := 2 ^ (s.gr i).rate
    .num (clampI 0 4294967295 (1187500 + (k - 1) * 250000 + s.firDelay (s.loopTaps i) (k * 500000)))
  | .REC_FIR_DELAY => .num (clampI 0 4294967295 (1187500 + s.firDelay (s.recTaps i) 500000))
  | .REC_BUF_FREE => n (poolBlocks - s.blocksUsed)
  | .CHT_STATE => n (s.chtWord i)
  | .WAVE_PAGES_FREE => n (341 - s.pagesOthers 64)
  | .MAP_EXC_USED => n s.mapUsed
  | .EP_WARNED => n (s.ledgerCount 2)
  | .EP_RETIRED => n (s.ledgerCount 3)
  | .EP_HELD => n (heldWord h.hold)
  | .BIAS_ACC => n (h.hold.bias / 1000)
  | .MON_STATE => n (s.monWord i)
  | .MON_SLICES => n (s.monSlices i)
  | .MON_ACC_A => .bytes (s.accBytes i e)
  | .MON_ACC_B => .bytes (s.accBytes i (16 + e))
  | .MON_SNAP => .bytes ((List.range 32).flatMap fun k => s.accBytes i k)
  | .REED_STATUS => n (reedWord h)
  | .EVI_STATE => n s.rtr.evi
  | .EVO_STATE => n (s.rtr.evo ||| s.rtr.pulses)
  | .CAL_STATE => n (s.calStateWord i)
  | .CAL_STATUS => n (s.calWord i)
  | .SLICE_TEMP => .num (s.sl (s.sliceOf i)).temp
  | .CAL_DT_V => .num (dtView (s.dtV i))
  | .CAL_DT_I => .num (dtView (s.dtI i))
  | .CAL_COMMITS => n s.nvm.calCommits
  | .FLT_SAFE_STATE => n (b2n s.latch)
  | .FLT_SAFE_CAUSE => .bytes (match s.cause with | some x => beBytes 16 x | none => [])
  | .FLT_FENCED => n s.flt.fenced.length
  | .SRC_LEVEL => n (s.srcLevel i)
  | .SRC_FENCED => n (b2n (s.fencedSrc i))
  | .MTX_STATE => n (b2n (s.fencedSrc (srcLine i)))
  | .NET_MAC => n (Config.netMac i).toNat
  | .NET_LEASE => n (if (s.port i).dhcp = .init ∨ (s.port i).lease = 0 then 0 else
      (s.port i).lease - (s.now - (s.port i).leaseAt) / 1000000000)
  | .NET_STATE => n (s.netWord i)
  | .NET_CAPACITY => n (s.netCapacity i)
  | .NET_LOAD => n (s.netLoad i)
  | .PTP_SOURCE_ID => n (s.ptpSource.getD 0)
  | .TIME_NOW => n s.stampNow
  | .SP_STATUS => n (s.spWord i)
  | .SP1_MB_LEVEL => n (s.mbox.txq.length * 256 + s.mbox.rxq.length)
  | .SP1_MB_RX => .bytes (s.mbox.rxq.flatMap fun w => beBytes 4 w)
  | .SCRUB_NVM_PASSES => n s.nvm.nvmPasses
  | .RTC_NOW => n (time80 s.rtc)
  | .RTC_VALID => n (b2n s.nvm.rtcValid)
  | .RTC_TRIM => .num s.nvm.rtcTrim
  | .NVM_AREA => n (bankArea i)
  | .NVM_WEAR => n (s.wearMax i)
  | .NVM_BANK_STATE => n (s.bankWord i)
  | .BOOT_COUNT => n s.nvm.boots
  | .VDDC_MEAS => n s.pwr.meas.vddc
  | .PWR_TOTAL => n (s.pwr.meas.powerMw)
  | .PWR_STATE => if s.pwr.stage < 5 then n 0 else if s.pwr.asleep then n (if s.pwr.wake.isSome then 5 else 4) else s.rdV o i e
  | .SUP_V => .num ((Config.freeValue s.fresh).setWidth 32).toInt
  | .SUP_I => .num (if i = 7 then 0 else ((Config.freeValue s.fresh).setWidth 32).toInt)
  | .SUP_STATE => n (if bit s.pwr.lost i then 2 else (Config.freeValue s.fresh).toNat % 2)
  | _ => s.rdV o i e

/-- A read of a measured supply takes a free value, and so does the state of a rail that is not lost: no command says that it
lies below its threshold for less than 10 µs (log 15). -/
def readsFree : Obj → Bool
  | .SUP_V | .SUP_I | .SUP_STATE | .LOOP_FIR_DELAY | .REC_FIR_DELAY => true
  | _ => false

end Sys2Proof.Machine
end

