-- ==== Sys2Proof/Machine/Monitor.lean ====
section
/-! DEFINITION. The monitor converters (R257 to R276): sequences, urgent requests, accumulators, rotation, MTRGO; and
the commands of this family that the board and the converters bring. -/
namespace Sys2Proof.Machine
open Sys2Proof

/-- The monitor of a group may start work: it is powered, not fenced, TBM runs, and deep sleep has not brought it to rest (R264, R275,
R458, R459). -/
def State.monAlive (s : State) (g : Nat) : Bool := s.monRotates g && decide (s.pwr.entry < 2)

/-- An entry has an enabled half (R265). -/
def entryOn (v : Nat) : Bool := bit v 63 || bit v 62

/-- Entry e comes into force at a start: a changed one clears its accumulators and sets NEWCFG (R263). -/
def monTake (v e : Nat) (m : Mon) : Mon :=
  if m.inForce.get (fun _ => 0) e = v then m
  else
    let a : Acc := { newcfg := true }
    { m with inForce := m.inForce.put (fun _ => 0) e v
             acc := (m.acc.put (fun _ => {}) e a).put (fun _ => {}) (16 + e) a }

/-- The entries of a sequence, copied (R263). -/
def State.seqEntries (s : State) (g : Nat) : List (Nat × Nat) :=
  (List.range (s.rdN .SEQ_LEN g)).map fun e => (e, s.rdN .MON_ENTRY g e)

/-- The test current of an enabled half (R273). -/
def halfPull (on : Bool) (h : Nat) : List Pull :=
  match pullBall (hSrc h) with
  | some b => if on && hPull h != 0 then [⟨b, hPull h == 1⟩] else []
  | none => []

/-- The slot of the entry at the front begins: its test currents connect (R273). -/
def Mon.slotBegin (m : Mon) : Mon :=
  { m with phase := .slot
           pulls := match m.run with
             | (_, v) :: _ => halfPull (bit v 63) (bits v 16 16) ++ halfPull (bit v 62) (bits v 0 16)
             | [] => [] }

/-- The active slice that takes the next conversion: the next in the rotation that is neither the spare nor failed (R257, R259). -/
def nextSlice (last spare fail : Nat) : Nat :=
  (((List.range 5).map fun k => (last + 1 + k) % 5).find? fun k => k != spare && !bit fail k).getD last

/-- The conversions of the slot hold: its currents disconnect, and the slices that took them decide (R257, R265, R273). -/
def Mon.hold (m : Mon) (e v : Nat) (rest : List (Nat × Nat)) : Mon :=
  let a := if bit v 63 then nextSlice m.lastA m.spareA m.failA else m.lastA
  let b := if bit v 62 then nextSlice m.lastB m.spareB m.failB else m.lastB
  let m := { m with deciding := m.deciding ++ [{ e := e, v := v, slA := a, slB := b : Deciding }], lastA := a, lastB := b, run := rest, pulls := [] }
  if rest.isEmpty then { m with phase := .deciding } else m.slotBegin

/-- A sequence starts (R263, R265): from power-down with the start-up delay, or at the end of an urgent request's
decision without it (R266). -/
def State.seqStart (s : State) (g : Nat) (cold : Bool) : State :=
  let l := s.seqEntries g
  s.modMon g fun m =>
    let m := l.foldl (fun m p => monTake p.2 p.1 m) m
    let m := { m with run := l.filter fun p => entryOn p.2, urgent := none, waits := false }
    if cold then { m with phase := .startup } else m.slotBegin

/-- The monitor powers down after a sequence or an urgent request (R265, R266, R268). -/
def State.monFinish (s : State) (g : Nat) : State :=
  let m := (s.gr g).mon
  match m.urgent with
  | some a =>
    let s := s.modMon g fun m => { m with phase := .down, urgent := none }
    let s := s.answer a .OK
    if m.waits then s.seqStart g false else s
  | none =>
    let s := s.modMon g fun m => { m with phase := .down }
    (s.inc .SEQ_COUNT g).edge (selector 4 g 0)

/-- A trigger edge reaches the monitor of a group (R264, R266). -/
def State.monTrigger (s : State) (g : Nat) : State :=
  let m := (s.gr g).mon
  if !(s.rdT .MON_RUN g) || s.rd .SEQ_LEN g == 0 || !s.monAlive g then s
  else if m.phase = .down then s.seqStart g true
  else if m.urgent.isSome && !m.waits then (s.modMon g fun m => { m with waits := true }).inc .TRIG_LATE g
  else s.inc .TRIG_MISSED g

/-- The result of one half enters its accumulator (R261, R269). -/
def accAdd (x : Int) (aged : Bool) (a : Acc) : Acc :=
  let x := clampI (-32768) 32767 x
  let room := decide (a.count < 16777215)
  { a with sum := if room then a.sum + x else a.sum
           count := if room then a.count + 1 else a.count
           full := a.full || decide (16777214 ≤ a.count)
           mn := if x < a.mn then x else a.mn
           mx := if a.mx < x then x else a.mx
           aged := a.aged || aged
           clips := if (x = -32768 ∨ x = 32767) ∧ a.clips < 32767 then a.clips + 1 else a.clips }

/-- A converter's results carry AGED (R259, R275). -/
def Mon.agedOf (m : Mon) (b : Bool) : Bool :=
  if b then m.spareB == 7 || m.agedB != 0 else m.spareA == 7 || m.agedA != 0

/-- The PAIR comparison of an entry (R271). -/
def State.pairCompare (s : State) (g e v : Nat) (a b : Int) : State :=
  let ga : Int := 2 ^ hGain (bits v 16 16)
  let gb : Int := 2 ^ hGain (bits v 0 16)
  let clip (x : Int) : Bool := x == -32768 || x == 32767
  let d := (a * gb - b * ga).natAbs
  if clip a || clip b then s.inc .PAIR_SKIPPED g
  else if (d : Int) ≤ s.rd .PAIR_TOL g * ga * gb then s
  else
    let codes := d / (ga * gb).toNat
    let s := s.modMon g fun m =>
      let f (k : Nat) (l : SMap Acc) : SMap Acc := l.put (fun _ => {}) k { l.get (fun _ => {}) k with pairFail := true }
      { m with acc := f (16 + e) (f e m.acc) }
    let s := s.inc .PAIR_FAILS g
    let s := s.report (srcMon g) 0x2A (e * 256 + hSrc (bits v 16 16)) (if 255 < codes then 255 else codes)
    s.edge (selector 4 g 1)

/-- The decisions of an entry end: results, comparison, and power-down after the last (R265, R269, R271). -/
def State.monDecided (s : State) (g e v : Nat) (a b : Int) : State :=
  let a := clampI (-32768) 32767 a
  let b := clampI (-32768) 32767 b
  let s := s.modMon g fun m =>
    let f (on : Bool) (k : Nat) (x : Int) (c : Bool) (l : SMap Acc) : SMap Acc :=
      if on then l.put (fun _ => {}) k (accAdd x (m.agedOf c) (l.get (fun _ => {}) k)) else l
    { m with acc := f (bit v 62) (16 + e) b true (f (bit v 63) e a false m.acc), deciding := m.deciding.tail }
  let s := if bit v 61 then s.pairCompare g e v a b else s
  let m := (s.gr g).mon
  if m.phase = .deciding ∧ m.deciding.isEmpty then s.monFinish g else s

/-- An urgent request that passes its access checks (R268): dropped, refused by a fence, or started. -/
def State.monUrgentReq (s : State) (g e : Nat) (a : Ans) : State × Option Status :=
  let m := (s.gr g).mon
  if m.phase ≠ .down ∨ m.waits then (s.inc .MON_DROPS g, some .MONITOR_DROPPED)
  else match s.fenceStatus (srcMon g) with
  | some st => (s, some st)
  | none =>
    if !s.monAlive g then (s, some .FENCED)
    else
      let v := s.rdN .MON_ENTRY g e
      (s.modMon g fun m => { monTake v e m with run := [(e, v)], phase := .startup, urgent := some a }, none)

/-- The monitor of a group stops with TBM (R272, R275): it is fenced, its conversions are abandoned, an urgent request answers FENCED. -/
def State.monFreeze (s : State) (g : Nat) : State :=
  let s := match (s.gr g).mon.urgent with | some a => s.answer a .FENCED | none => s
  (s.setFence [srcMon g] (srcTb tbM) false).monFence g

/-- TBM returns (R275): the fence that its loss set ends, so that rotation goes on, and results carry AGED until each slice has had its
turn (DEDUCED, log 105). -/
def State.monThaw (s : State) (g : Nat) : State :=
  let k := srcMon g
  let s := if (s.flt.fenced.get (fun _ => (0, false)) k).1 = srcTb tbM + 1 then
      { s with flt := { s.flt with fenced := s.flt.fenced.put (fun _ => (0, false)) k (0, false) } }
    else s
  s.modMon g fun m => { m with agedA := if m.spareA = 7 then m.agedA else 31
                               agedB := if m.spareB = 7 then m.agedB else 31 }

/-- Failed slices counted in five bits. -/
def popcount5 (n : Nat) : Nat := ((List.range 5).filter fun k => bit n k).length

/-- Slice k of a converter fails its calibration (R259): marked, and reported as a NOTE with rotation at an end, or as SEVERE where it
is the second. -/
def State.monSliceFail (s : State) (g : Nat) (b : Bool) (k : Nat) : State :=
  let m := (s.gr g).mon
  let f := setBit (if b then m.failB else m.failA) k true
  let s := s.modMon g fun m => if b then { m with failB := f, spareB := 7 } else { m with failA := f, spareA := 7 }
  s.report (srcMon g) 0x29 0 (b2n b * 16 + k) (if 2 ≤ popcount5 f then .severe else .note)

/-- The spare's turn ends with its calibration (R258, R259): it fails beyond ±256 codes or ±2 %, else it takes its place
in the rotation and the next slice becomes the spare. -/
def State.monSwap (s : State) (g : Nat) (b : Bool) (offset ppm : Int) : State :=
  let m := (s.gr g).mon
  let k := if b then m.spareB else m.spareA
  if !s.monRotates g || 7 ≤ k then s
  else if 256 < offset.natAbs ∨ 20000 < ppm.natAbs then s.monSliceFail g b k
  else
    let n := (k + 1) % 5
    s.modMon g fun m => if b then { m with spareB := n, agedB := setBit m.agedB k false }
      else { m with spareA := n, agedA := setBit m.agedA k false }

/-- MON_RESTART has recalibrated the slices of both converters (R272): those in `fa` and `fb` have failed, the others are good, and a
converter without a failure rotates again from its reset spare (DESIGN CHOICE, log 84). -/
def State.monRestored (s : State) (g fa fb : Nat) : State :=
  let s := s.modMon g fun m => { m with spareA := 4, spareB := 4, failA := 0, failB := 0, agedA := 0, agedB := 0 }
  let fails (n : Nat) : List Nat := (List.range 5).filter fun k => bit n k
  let s := s.each (fails fa) fun s k => s.monSliceFail g false k
  s.each (fails fb) fun s k => s.monSliceFail g true k

/-- Reading an accumulator empties it (R270). -/
def State.accClear (s : State) (g k : Nat) : State := s.modMon g fun m => { m with acc := m.acc.drop k }

/-- A read by session n clears what it reads (R270). -/
def State.clears (s : State) (n : Nat) : Bool := s.rdN .MON_CLEAR_SESSION == 0 || s.rdN .MON_CLEAR_SESSION == n

/-! ### Commands -/

/-- MTRG_EDGE (R264): every group that selects the ball and its edge takes the trigger. -/
def execMtrgEdge (ball : Fin 4) (rising : Bool) (s : State) : Host.Outcome State Fault Refusal :=
  .next (s.each allGroups fun s g =>
    let t := s.rdN .MON_TRIG g
    if bits t 0 2 = ball.val ∧ bit t (if rising then 2 else 3) then s.monTrigger g else s)

/-- MON_STARTUP_END (R265): the converters are powered, the first slot begins. -/
def execMonStartupEnd (g : GroupNo) (s : State) : Host.Outcome State Fault Refusal :=
  .next (let m := (s.gr g).mon
    if m.phase ≠ .startup then s
    else if m.run.isEmpty then s.monFinish g
    else s.modMon g Mon.slotBegin)

/-- MON_SLOT_END (R265): the conversions of the slot hold; the next slot begins at the same instant. -/
def execMonSlotEnd (g : GroupNo) (s : State) : Host.Outcome State Fault Refusal :=
  .next (let m := (s.gr g).mon
    if m.phase ≠ .slot then s
    else match m.run with
    | [] => s.monFinish g
    | x :: l => s.modMon g fun m => m.hold x.1 x.2 l)

/-- MON_DECISION_DONE (R265): the results of the entry that has been deciding longest. -/
def execMonDecisionDone (g : GroupNo) (a b : Int) (s : State) : Host.Outcome State Fault Refusal :=
  .next (match (s.gr g).mon.deciding with
    | d :: _ => s.monDecided g d.e d.v a b
    | [] => s)

/-- MON_SPARE_SWAP (R258). -/
def execMonSpareSwap (g : GroupNo) (convB : Bool) (offset gainPpm : Int) (s : State) : Host.Outcome State Fault Refusal :=
  .next (s.monSwap g convB offset gainPpm)

/-- MTRGO_PERIODIC (R267): a pulse falls due at frame-grid microsecond m. -/
def execMtrgoPeriodic (m : Nat) (s : State) : Host.Outcome State Fault Refusal :=
  .next (let p := s.rd .MTRGO_PERIOD
    if s.rd .MTRGO_MODE = 1 ∧ ((m : Int) - s.rd .MTRGO_PHASE) % p = 0 ∧ ¬ s.pwr.asleep then s.mtrgoRise else s)

/-- MTRGO_PULSE_END (R267): the pulse falls 1 µs after it rose. -/
def execMtrgoPulseEnd (s : State) : Host.Outcome State Fault Refusal :=
  .next (if s.mtrgo.high ∧ s.mtrgo.since + 1000 ≤ s.now then { s with mtrgo := { s.mtrgo with high := false } } else s)

end Sys2Proof.Machine
end

