-- ==== Sys2Proof/Machine/Reed.lean ====
section
/-! DEFINITION. The Reed comparators (R277 to R287): samples, trips, local actions and self-tests. -/
namespace Sys2Proof.Machine
open Sys2Proof

/-- The zone of a signal against a window: 0 INSIDE, 1 ABOVE, 2 BELOW (R282). -/
def zoneOf (x hi lo : Int) : Nat := if hi < x then 1 else if x < lo then 2 else 0

/-- The channel of a slice position: its own, or the one that the spare carries (R91). -/
def State.ownerOf (s : State) (g p : Nat) : Option Nat :=
  if p = 32 then (if (s.gr g).spare = 0 then none else some (32 * g + (s.gr g).spareFor)) else some (32 * g + p)

/-- The test of a slice is deferred (R286): a Slide of its channel between make strobe and completion, calibration on its channel,
deep sleep. -/
def State.testDeferred (s : State) (g p : Nat) : Bool :=
  s.pwr.asleep ||
    (match s.ownerOf g p with
     | some c => (match (s.ch c).slide.phase with | .made | .broken _ => true | _ => false) || (s.ch c).calBusy
     | none => false)

/-- The Reed of a slice takes part in a test that replaces its live input at this tick (R281, R286). -/
def State.underTest (s : State) (c : Nat) : Bool :=
  match (s.gr (grpOf c)).test with
  | some (p, k) => p == s.pos c && decide (k ≤ 3) && !s.testDeferred (grpOf c) p
  | none => false

/-- The Reed of a channel takes no sample (R281). -/
def State.reedSkips (s : State) (c : Nat) (cur : Bool) : Bool :=
  let h := s.ch c
  h.out == .retired || s.fencedSrc (s.sliceOf c) || !bit (s.rdN (if cur then .REED_I_CTRL else .REED_V_CTRL) c) 0
    || s.underTest c || (cur && h.slide.phase == .made)

/-- A local action reaches the control engine for the strobe of the tick that latched it (R285), never at 1 MHz for that of the tick
before, whose staging may still be open. -/
def State.reedPush (s : State) (c act : Nat) : State :=
  s.modGr (grpOf c) fun r =>
    let x : Change := { ans := none, what := .reed c act }
    if r.opened && s.tickUs (grpOf c) == 1 then { r with trips := r.trips ++ [x] } else { r with arrived := r.arrived ++ [x] }

/-- The local action of a trip at its strobe (R284, R285): 1 MUTE, 2 OFF; one that does nothing is counted. -/
def State.reedAct (s : State) (c act : Nat) : State :=
  let h := s.ch c
  if act = 1 then
    match s.muteAt c 3 with
    | some s => s
    | none => s.inc .REED_NOOPS c
  else if h.out.live && !h.transit && !h.offWait then s.offAt c .reed
  else s.inc .REED_NOOPS c

/-- A trip (R282 to R284): sticky bit, count, edge to the router, local action, which deep sleep has no strobe to wait for (R460,
R461, R463). Edges are 0 V HI, 1 V LO, 2 I HI, 3 I LO. -/
def State.reedTrip (s : State) (c : Nat) (cur low : Bool) : State :=
  let k := 2 * b2n cur + b2n low
  let s := s.modCh c fun h => { h with seen := setBit h.seen (3 - k) true }
  let s := s.inc (if cur then .REED_I_TRIPS else .REED_V_TRIPS) c
  let act := bits (s.rdN (if cur then .REED_I_CTRL else .REED_V_CTRL) c) 2 2
  let s := if act = 0 ∨ s.standby (grpOf c) then s else if s.pwr.asleep then s.reedAct c act else s.reedPush c act
  s.edge (selector 2 c k)

/-- One Reed of a channel takes a sample (R282). -/
def State.reedTake (s : State) (c : Nat) (cur : Bool) (x : Int) : State :=
  if s.reedSkips c cur then s
  else
    let h := s.ch c
    let hi := s.rd (if cur then .REED_I_HI else .REED_V_HI) c
    let lo := s.rd (if cur then .REED_I_LO else .REED_V_LO) c
    let z := zoneOf x hi lo
    let was := if (if cur then h.freshI else h.freshV) then 0 else if cur then h.zoneI else h.zoneV
    let s := s.modCh c fun h => if cur then { h with zoneI := z, freshI := false } else { h with zoneV := z, freshV := false }
    if z ≠ 0 ∧ z ≠ was then s.reedTrip c cur (z == 2) else s

/-- The Reeds of the channels that the latch brings take their samples (R279). -/
def State.reedAll (s : State) (l : List ReedIn) : State :=
  s.each l fun s r => (s.reedTake r.ch false r.v).reedTake r.ch true r.i

/-! ### Self-test (R286, R287) -/

/-- A self-test pass starts in a group, or waits for the one in progress (R286). -/
def State.testStart (s : State) (g : Nat) : State :=
  s.modGr g fun r => if r.test.isSome then { r with testNext := true } else { r with test := some (0, 1), testFail := 0 }

/-- The channel that a slice position carries, none for an unoccupied spare or a slice left behind (R91). -/
def State.carriedBy (s : State) (g p : Nat) : Option Nat :=
  if p = 32 then (if (s.gr g).spare = 0 then none else some (32 * g + (s.gr g).spareFor))
  else if (s.ch (32 * g + p)).onSpare then none else some (32 * g + p)

/-- The pass moves on after a slice: the next slice that is not fenced, or the end of the pass (R286). -/
def State.testNextSlice (s : State) (g : Nat) : Nat → Nat → State
  | 0, _ => s
  | n + 1, p =>
    if 33 ≤ p then
      let s := s.inc .REED_PASSES g
      s.modGr g fun r => { r with test := if r.testNext then some (0, 1) else none, testNext := false, testFail := 0 }
    else if s.fencedSrc (srcSlice g p) then s.testNextSlice g n (p + 1)
    else s.modGr g fun r => { r with test := some (p, 1) }

/-- A test of a Reed is inconclusive with the thresholds in force (Table "Reed self-tests"). -/
def State.testVoid (s : State) (c k : Nat) (cur : Bool) : Bool :=
  let hi := s.rd (if cur then .REED_I_HI else .REED_V_HI) c
  let lo := s.rd (if cur then .REED_I_LO else .REED_V_LO) c
  let near (a b : Int) (d : Nat) : Bool := decide ((a - b).natAbs ≤ d)
  let x := if cur then (s.ch c).i else (s.ch c).v
  match k with
  | 1 => near hi 0 8 || near lo 0 8
  | 2 => near hi 1024 8 || near lo 1024 8
  | 3 => near hi (-1024) 8 || near lo (-1024) 8
  | _ => near x (hi * 4096) 32768 || near x (lo * 4096) 32768

/-- The outcome of one Reed's test (R286, R287). -/
def State.testOne (s : State) (g p k : Nat) (cur : Bool) (r : TestOut) : State :=
  let c := s.carriedBy g p
  let void : Bool := match c with | some c => s.testVoid c k cur | none => false
  if k = 4 ∧ c = none then s
  else if void || decide (r = .inconclusive) then s.inc .REED_INCONCLUSIVE g
  else if r = .fail then
    let s := s.modGr g fun r => { r with testFail := setBit r.testFail p true }
    let s := s.wr .REED_FAILED g 0 (setBit (s.rdN .REED_FAILED g) p true)
    s.report (srcSlice g p) 0x14 (c.getD 0) (b2n cur * 16 + k)
  else s

/-- One test tick of a group (R286): the outcomes of the test due, then the next test or slice. A slice that completes
its tests without failure clears its REED_FAILED bit (R287). -/
def State.testTick (s : State) (g : Nat) (v i : TestOut) : State :=
  match (s.gr g).test with
  | none => s
  | some (p, k) =>
    if s.fencedSrc (srcSlice g p) then s.testNextSlice g 34 (p + 1)
    else if s.testDeferred g p then s
    else
      let s := (s.testOne g p k false v).testOne g p k true i
      if k < 4 then s.modGr g fun r => { r with test := some (p, k + 1) }
      else
        let s := if bit (s.gr g).testFail p then s else s.wr .REED_FAILED g 0 (setBit (s.rdN .REED_FAILED g) p false)
        s.testNextSlice g 34 (p + 1)

/-! ### Commands -/

/-- REED_SAMPLE (R279): every Reed of the group latches 200 ns after the tick. -/
def execReedSample (g : GroupNo) (reeds : List ReedIn) (s : State) : Host.Outcome State Fault Refusal :=
  .next (if s.strobes g ∧ ¬ s.pwr.asleep then s.reedAll (reeds.filter fun r => grpOf r.ch = g.val) else s)

/-- REED_TEST_PERIODIC (R286, R425): every REED_TEST_PERIOD Drone starts a pass in every group. -/
def execReedTestPeriodic (s : State) : Host.Outcome State Fault Refusal :=
  .next (let p := s.rdN .REED_TEST_PERIOD * 1000000000
    if s.rd .REED_TEST_PERIOD = 0 ∨ ¬ s.droneUp ∨ ¬ s.dueAgain s.drn.reedAt p then s
    else { s with drn := { s.drn with reedAt := s.lastDue s.drn.reedAt p } }.each allGroups fun s g => s.testStart g)

/-- REED_TEST_TICK (R286): the outcome of the tests of this tick. -/
def execReedTestTick (g : GroupNo) (v i : TestOut) (s : State) : Host.Outcome State Fault Refusal :=
  .next (s.testTick g v i)

end Sys2Proof.Machine
end

