-- ==== Sys2Proof/Machine/Cal.lean ====
section
/-! DEFINITION. Calibration (R308 to R329): commands and their checks, the carrying of outputs, measurement, commit, and
the thermal computation. -/
namespace Sys2Proof.Machine
open Sys2Proof

/-! ### Commands (R317, R318) -/

/-- The named channels. -/
def State.calChans (s : State) (g : Nat) : List Nat :=
  ((List.range 32).filter fun p => bit (s.rdN .CAL_CHANNELS g) p).map fun p => 32 * g + p

/-- The element ranges selected by the set-up. -/
def State.calRanges (s : State) (g : Nat) : List Nat := (List.range 12).filter fun r => bit (s.rdN .CAL_RANGES g) r

/-- A range that the channel of a named position can use (R317); a bare spare carries no channel that could not. -/
def State.calUsable (s : State) (g p r : Nat) : Bool :=
  match s.ownerOf g p with
  | some c => decide (r < 9) || (s.rdT .BOOST_DECL c && s.rdN .BOOST_RANGE c + 3 == r)
  | none => true

/-- The elements that a command measures or copies on a named position (R317). -/
def State.calElems (s : State) (g p : Nat) : List Nat := (s.calRanges g).filter fun r => s.calUsable g p r

/-- The set-up fits Table "Command kinds" (step 6 of R318). -/
def State.calSetupOk (s : State) (g : Nat) : Bool :=
  let kind := s.rdN .CAL_KIND g
  let chans := s.calChans g
  let rs := s.calRanges g
  let std := (s.rd .CAL_STD g).natAbs
  match kind with
  | 2 =>
    match chans, rs with
    | [c], [r] =>
      s.rd .SENSE_SEL c == 0 && decide (r < 3) && !s.rdT .CAL_SPARE g &&
        decide (spanV r ≤ (8 * std : Nat) ∧ (2 * std : Nat) ≤ spanV r)
    | _, _ => false
  | 3 =>
    match chans, rs with
    | [c], [r] =>
      s.rdT .BOOST_DECL c && r == s.rdN .BOOST_RANGE c + 3 && !s.rdT .CAL_SPARE g &&
        decide (fsI (r - 3) ≤ 4 * std ∧ std ≤ fsI (r - 3))
    | _, _ => false
  | _ => !(s.calNamed g).isEmpty && !rs.isEmpty

/-- Steps 1 to 8 of R318 for a session's rights: the first failure. -/
def State.calCheck (s : State) (g owner : Nat) (secure : Bool) : Option Status :=
  let kind := s.rdN .CAL_KIND g
  let chans := s.calChans g
  let ext := kind == 2 || kind == 3
  let k := (s.gr g).cal
  if s.latch then some .SAFE_STATE
  else if s.standby g then some .PAIR_STANDBY
  else if k.phase ≠ 0 ∨ k.starting.isSome then some .CAL_BUSY
  else if chans.any fun c => decide (s.rdN .CH_OWNER c ≠ 0 ∧ s.rdN .CH_OWNER c ≠ owner) then some .NOT_OWNER
  else if !secure && (kind == 4 || chans.any fun c => s.rdT .CH_SECURE c) then some .SECURE_ONLY
  else if !s.calSetupOk g then some .BAD_VALUE
  else match firstStatus ((chans.map fun c =>
      if (s.ch c).out = .retired then some .FENCED else s.fenceStatus (s.sliceOf c)) ++
      [if (s.calNamed g).contains 32 then s.fenceStatus (srcSlice g 32) else none, s.fenceStatus srcCal]) with
  | some _ => some .FENCED
  | none =>
    if (s.gr g).filt ≠ .running then some .STATE_CONFLICT
    else if chans.any fun c => (s.ch c).out == .safe || (ext && (s.ch c).out != .off) then some .STATE_CONFLICT
    else none

/-- The external activity of a slot from its sums over 64 samples (R319): |V| above 50 mV or |I| above 1 % of FS. -/
def State.extActive (s : State) (c : Nat) (v i : Int) : Bool :=
  decide (50000 * 64 * 2 ^ 23 < (v.natAbs : Int) * spanV (s.rdN .V_RANGE c)) || decide (64 * 2 ^ 22 < i.natAbs * 100)

/-! ### Carrying (R320, R92) -/

/-- A channel in OFF or ARMED, where a calibration has nothing to carry (Table "Carrying"). -/
def Chan.idleOut (h : Chan) : Bool := h.out == .off || h.out == .armed

/-- The idle half of the calibration area is to be written (R325). -/
def State.calStore (s : State) : State := s.nvmPut (calPages (2 - s.nvm.calActive))

/-- The next slice of a command is due: its ranges are set out, and it begins at a strobe; after the last the store is
written (R320, R325). A slice of which no range is left has nothing to measure (R317). -/
def State.calNext (s : State) (g : Nat) : State :=
  match (s.gr g).cal.todo.dropWhile fun p => (s.calElems g p).isEmpty with
  | [] => s.calStore.modGr g fun r => { r with cal := { r.cal with phase := 2, todo := [] } }
  | p :: l =>
    let s := s.modGr g fun r => { r with cal := { r.cal with todo := p :: l, ranges := s.calElems g p, points := [], checked := false } }
    let c := 32 * g + p
    let waits := decide (p < 32) && s.rd .CAL_KIND g == 1 && (s.ch c).idleOut
    if waits then s else s.push g none .calBegin

/-- The command of a group runs (R318): calibration runs on every named channel, and the first slice is due. A FACTORY
command copies the factory elements without measurement, one whose word NVM has lost with VALID 0 (Table "Uncorrectable NVM words", R429). -/
def State.calRun (s : State) (g : Nat) : State :=
  let s := s.wr .CAL_RESULT g 0 1
  let s := s.each (s.calChans g) fun s c => s.modCh c fun h => { h with calBusy := true }
  let named := s.calNamed g
  if s.rd .CAL_KIND g = 4 then
    let fresh := named.flatMap fun p => (s.calElems g p).map fun r =>
      let n := elemNo (srcSlice g (s.calPos g p)) r
      (n, { factoryEl n with valid := !s.nvm.factoryBad.contains n })
    s.calStore.modGr g fun r => { r with cal := { phase := 2, fresh := fresh } }
  else (s.modGr g fun r => { r with cal := { phase := 1, todo := named } }).calNext g

/-- CAL_CMD = 1 from a session (R318, R319): refused, answered and run, or waiting for the activity check. -/
def State.calStartReq (s : State) (g owner : Nat) (secure : Bool) (a : Ans) : State × Option Status :=
  match s.calCheck g owner secure with
  | some st => (s, some st)
  | none =>
    let idle := (s.calChans g).any fun c => (s.ch c).idleOut
    if s.rd .CAL_KIND g = 1 ∧ idle then
      (s.modGr g fun r => { r with cal := { starting := some (a.getD (0, 0)) } }, none)
    else (s.calRun g, some .OK)

/-- The channel that a slice of the present position holds in MUTE, were it to begin now (Table "Carrying"): its state bars the
handover, or the spare is not free for it. -/
def State.calHolds (s : State) (g : Nat) : Option Nat :=
  match (s.gr g).cal.phase, (s.gr g).cal.todo with
  | 1, p :: _ =>
    let c := if p = 32 then 32 * g + (s.gr g).spareFor else 32 * g + p
    let free := (s.gr g).spare = 0
    if (s.ch c).idleOut ∨ p = 32 ∧ free then none
    else if p ≠ 32 ∧ ¬ (s.ch c).onSpare ∧ free ∧ ¬ s.fencedSrc (srcSlice g 32) ∧ ¬ s.fencedSrc (srcCrook g) then none
    else some c
  | _, _ => none

/-- A capture begins on a slice: its temperature readings from here on make T_CAP (R311). -/
def State.capTemp (s : State) (k : Nat) : State := s.modSl k fun x => { x with capSum := 0, capN := 0 }

/-- T_CAP: the mean of the readings of the capture, or the latest reading where none came (R311; DEDUCED, log 36). -/
def SliceSt.tCap (x : SliceSt) : Int := if x.capN = 0 then x.temp else roundEven x.capSum x.capN

/-- The channel or slice of the present position begins at this strobe (Table "Carrying"). An INTERNAL measurement of a channel that has
come to OFF on the way waits for its activity check (R319). -/
def State.calBegin (s : State) (g : Nat) : State :=
  let k := (s.gr g).cal
  match k.phase, k.todo with
  | 1, p :: _ =>
    let s := s.capTemp (srcSlice g (s.calPos g p))
    let hold (s : State) (c : Nat) : State :=
      let s := (s.muteAt c 8).getD s
      let s := s.modCh c fun h => { h with calMeas := true, calHold := true, calSpan := true }
      s.modGr g fun r => { r with cal := { r.cal with heldAny := true } }
    let leave (s : State) (c : Nat) : State :=
      s.modCh c fun h => { h with calMeas := true, calSpan := true, isoS := false, isoI := false }
    match s.calHolds g with
    | some c => hold s c
    | none =>
      let c := if p = 32 then 32 * g + (s.gr g).spareFor else 32 * g + p
      if (s.ch c).idleOut then
        if p = 32 then (if (s.gr g).spare = 0 then s else leave s c)
        else if s.rd .CAL_KIND g = 1 ∧ ¬ k.checked then s else leave s c
      else if p = 32 then s
      else
        let s := s.modGr g fun r =>
          { r with spare := 2, spareFor := p, hand := 4, back := false, cal := { r.cal with carried := true } }
        s.modCh c fun h => { h with calSpan := true }
  | _, _ => s

/-- The slice's measurement is over: its span ends, switches are set again, and the next slice is due (R320, R321). -/
def State.calSliceDone (s : State) (g : Nat) : State :=
  let k := (s.gr g).cal
  match k.todo with
  | [] => s
  | p :: l =>
    let c := if p = 32 then 32 * g + (s.gr g).spareFor else 32 * g + p
    let h := s.ch c
    let s := s.modCh c fun h => { h with calMeas := false, calHold := false, calSpan := false }
    let s := if (p < 32 ∨ (s.gr g).spare ≠ 0) ∧ h.idleOut then
        (s.switches c).modCh c fun x => { x with dac := h.dac }
      else s
    (s.modGr g fun r => { r with cal := { r.cal with todo := l, carried := false } }).calNext g

/-- The return of the channel that the spare carries begins at this strobe, or the span of the slice measured ends (R320). -/
def State.calReturn (s : State) (g : Nat) : State :=
  let r := s.gr g
  let c := 32 * g + r.spareFor
  let running := r.cal.phase == 1 && r.cal.ranges.isEmpty
  if r.spare = 2 then
    if (s.ch c).onSpare then s.modGr g fun r => { r with hand := 4, back := true }
    else
      let s := s.modGr g fun r => { r with spare := 0, hand := 0 }
      let s := s.modCh c fun h => { h with calSpan := false, calMeas := false }
      if running then s.calSliceDone g else s
  else if running then s.calSliceDone g else s

/-- The handover moves on at a strobe (Table "Make-before-break handover"): it begins at one and prepares for two ticks; the overlap
strobe changes the slice that the loop sample comes from, the next one ends the overlap. None runs while Crook is fenced (Table "Source
types"). -/
def State.handTick (s : State) (g : Nat) : State :=
  let r := s.gr g
  if r.hand = 0 ∨ s.fencedSrc (srcCrook g) then s
  else
    let c := 32 * g + r.spareFor
    let n := r.hand - 1
    let s := s.modGr g fun r => { r with hand := n }
    if n = 1 then (s.inc .CROOK_MOVES g).modCh c fun h => { h with onSpare := !r.back }
    else if n = 0 then
      if r.back then
        let s := s.modGr g fun r => { r with spare := 0 }
        let s := s.modCh c fun h => { h with calSpan := false, calMeas := false }
        if r.cal.phase = 1 then s.calSliceDone g else s
      else (s.modCh c fun h => { h with calMeas := true }).capTemp (srcSlice g r.spareFor)
    else s

/-! ### Measurement (R313, R323, R324) -/

/-- Points of an element (Table "Calibration points"). -/
def calPointCount (kind r : Nat) (held : Bool) : Nat :=
  if kind = 2 ∨ kind = 3 then 2 else if held then 3 else if r < 3 then 5 else if r < 9 then 4 else 3

/-- DAC offset and gain trims from the two driver points read by the new O and G, as fractions a / 2^39 (R323; the way the
two trims divide the correction is DEDUCED, log 16): none where one lies outside the full I16 range (R313). -/
def dacTrims (r : Nat) (yp ym : Int) : Option Nat :=
  let d := yp - ym
  if d ≤ 0 then none
  else
    let gain := roundEven (9 * 2 ^ 39 * 2 ^ 24) (10 * d) - 2 ^ 24
    let off := roundEven (-(yp + ym) * 9 * spanV r * 2 ^ 19 * 16) (2 * 10 * d * vspan r)
    let fits (x : Int) : Bool := decide (-32768 ≤ x ∧ x ≤ 32767)
    if fits off && fits gain then some (code 16 off * 2 ^ 16 + code 16 gain) else none

/-- GAIN from the two bus points in units of 2^-39, 0 where they do not part (R323). -/
def gainOf (xp xm : Int) : Int := if xp - xm ≤ 0 then 0 else roundEven (9 * 2 ^ 61) (10 * (xp - xm))

/-- Limits of a newly computed coefficient (Table "Coefficient limits", R313). -/
def offsetOk (x : Int) : Bool := decide (-0x10000 ≤ x ∧ x ≤ 0x10000)
def gainOk (x : Int) : Bool := decide (0x3EB852 ≤ x ∧ x ≤ 0x4147AE)
def rshOk (r : Nat) (x : Int) : Bool :=
  let lo := if r < 9 then 97 else 98
  let hi := if r < 9 then 103 else 102
  decide (lo * 2 ^ 30 ≤ 100 * x ∧ 100 * x ≤ hi * 2 ^ 30)

/-- The new element of an INTERNAL measurement from its points, oldest first (R323): none where a coefficient that it computes falls
outside its limits (R313). What a hold or a booster element leaves as it is, is not computed (R322). -/
def internalEl (e : CalElem) (r : Nat) (held : Bool) (xs : List Int) : Option CalElem :=
  match xs with
  | z :: p :: m :: rest =>
    let off := roundEven z 65536
    let gain := gainOf p m
    let y (x : Int) : Int := roundEven (gain * (x - off * 65536)) (2 ^ 22)
    let aux : Option Nat :=
      match held, rest with
      | false, [a, b] => dacTrims r (y a) (y b)
      | false, [a] =>
        let rsh := roundEven (gain * (a - off * 65536) * 20) (9 * 2 ^ 31)
        if rshOk r rsh then some rsh.toNat else none
      | _, _ => some e.aux
    if offsetOk off && gainOk gain then aux.map fun a => { e with offset := off, gain := gain, aux := a } else none
  | _ => none

/-- The declared standard as a FRAC24 code (R324). -/
def State.stdCode (s : State) (g r : Nat) : Int × Int :=
  if r < 3 then (s.rd .CAL_STD g * 2 ^ 23, spanV r) else (s.rd .CAL_STD g * 2 ^ 23, 2 * fsI (r - 3))

/-- The standard read with the coefficients in force differs from CAL_STD by more than 2 % (R324). -/
def State.stdOff (s : State) (g c r : Nat) (x : Int) : Bool :=
  let k := s.effEl c r
  let (n, d) := s.stdCode g r
  -- the reading is y / q in units of 2^-38, the standard n / d
  let y : Int := k.2.1 * (x - k.1 * 65536) * (if r < 3 then 1 else 2 ^ 30)
  let q : Int := if r < 3 then 1 else k.2.2
  decide (2 * (n * 2 ^ 38 * q).natAbs < 100 * (y * d - n * 2 ^ 38 * q).natAbs)

/-- The new element of an EXT_V or EXT_I measurement (R324). -/
def State.extEl (s : State) (g r : Nat) (e : CalElem) (xs : List Int) : Option CalElem :=
  match xs with
  | [z, x] =>
    let off := roundEven z 65536
    let (n, d) := s.stdCode g r
    let q := x - off * 65536
    if r < 3 then
      let den := q * d
      let gain := if den = 0 then 0 else if den < 0 then roundEven (-n * 2 ^ 38) (-den) else roundEven (n * 2 ^ 38) den
      if offsetOk off && gainOk gain then some { e with offset := off, gain := gain } else none
    else
      let num := e.gain * q * d * 2 ^ 30
      let den := n * 2 ^ 38
      let rsh := if den = 0 then 0 else if den < 0 then roundEven (-num) (-den) else roundEven num den
      if offsetOk off && rshOk r rsh then some { e with offset := off, aux := rsh.toNat } else none
  | _ => none

/-- Load power from sums of V and I over n samples, as a fraction of µW (R316). -/
def powerOf (v i : Int) (n : Nat) : Nat × Nat := if n = 0 then (0, 1) else ((v * i).natAbs, n * n * 2 ^ 46 * 1000000000)

/-- Load power of a channel over the last 10 ms (R316). -/
def loadPower (a : Aper) : Nat × Nat := powerOf a.pwrV a.pwrI a.pwrN

/-- A calibration point of a channel begins: its settling, then its samples (R316, R323). -/
def State.capBegin (s : State) (c : Nat) : State :=
  s.modAper c fun a => { a with capV := 0, capI := 0, capN := 0, capSkip := s.rdN .CAL_SETTLE }

/-- The measurement of a slice ends with its last element: its channel's span ends at the next strobe, by handover where
the spare carries it (R320). -/
def State.calMeasured (s : State) (g : Nat) : State :=
  (s.modGr g fun r => { r with cal := { r.cal with ranges := [], points := [] } }).push g none .calReturn

/-- The switch to an external standard closes behind the zero point (R324). -/
def State.closeStd (s : State) (c kind : Nat) : State :=
  s.modCh c fun h => { h with isoS := h.isoS || kind == 2, isoI := h.isoI || kind == 3 }

/-- A measurement point completes (R323): the next point, the element, the next element or slice, or the end of the
command. -/
def State.calPoint (s : State) (g : Nat) (x : Int) : State :=
  let k := (s.gr g).cal
  match k.phase, k.todo, k.ranges with
  | 1, p :: _, r :: rs =>
    let pos := s.calPos g p
    let c := if p = 32 then 32 * g + (s.gr g).spareFor else 32 * g + p
    let h := s.ch c
    let on := p == 32 && (s.gr g).spare == 0
    if !(on || h.calMeas) || (s.gr g).hand ≠ 0 then s
    else
      let kind := s.rdN .CAL_KIND g
      let held := !on && h.calHold
      let pts := x :: k.points
      let a := h.aper
      let s := s.capBegin c
      if pts.length < calPointCount kind r held then
        (s.closeStd c kind).modGr g fun q => { q with cal := { q.cal with points := pts } }
      else
        let n := elemNo (srcSlice g pos) r
        let was := s.calEl (srcSlice g pos) r
        let e := { calOf s.cal n with offset := was.offset, gain := was.gain, aux := was.aux }
        let xs := pts.reverse
        if (kind = 2 ∨ kind = 3) ∧ s.stdOff g c r x then s.calEnd g 6 .CAL_STD_RANGE
        else
          let new := if kind = 1 then internalEl e r held xs else s.extEl g r e xs
          match new with
          | none => (s.report (srcSlice g pos) 0x26 n r).calEnd g 7 .OK
          | some e =>
            let (pn, pd) := powerOf a.capV a.capI a.capN
            let e := { e with tCap := (s.sl (srcSlice g pos)).tCap
                              pCap := if kind = 1 then 0 else (roundEven pn pd).toNat
                              capTime := s.tbp / 1000000000 % 2 ^ 48, source := kind + 1, valid := true }
            let s := (s.capTemp (srcSlice g pos)).modGr g fun q => { q with cal := { q.cal with
              points := [], ranges := rs, fresh := q.cal.fresh ++ [(n, e)] } }
            if rs.isEmpty then s.calMeasured g else s
  | _, _, _ => s

/-! ### Commit (R325, R326) -/

/-- The idle half of the calibration area has been written, every page of it (R325, R431): a verified half becomes active, and the elements wait
for their strobe. -/
def State.calWritten (s : State) (g : Nat) (ok : Bool) : State :=
  let k := (s.gr g).cal
  if k.phase ≠ 2 ∨ s.drn.writes.any (·.1 = 13) then s
  else if !ok || s.bankDead 13 then
    let s := { s with nvm := { s.nvm with calBad := setBit s.nvm.calBad (1 - s.nvm.calActive) true } }
    s.calEnd g 11 .NVM_FAULT
  else
    let n := (s.nvm.calCommits + s.calOwed + 1) % 65536
    let fresh := k.fresh.map fun p => (p.1, { p.2 with commit := n })
    let s := s.calActivate (calWith s.cal (s.calWaiting ++ fresh))
    (s.modGr g fun r => { r with cal := { r.cal with phase := 3, fresh := fresh } }).push g none .calCommit

/-- The commit strobe (R325): the elements come into force, and the commit counts (R326). -/
def State.calCommitAt (s : State) (g : Nat) : State :=
  let k := (s.gr g).cal
  if k.phase ≠ 3 then s
  else
    let s := { s with cal := calWith s.cal k.fresh, nvm := { s.nvm with calCommits := satN 32 (s.nvm.calCommits + 1) } }.nvmPut (recPages 2)
    let s := (s.wr .CAL_RESULT g 0 (if k.heldAny then 3 else 2)).wr .CAL_COMMIT_TIME g 0 s.stampNow
    (s.calRelease g).modGr g fun r => { r with cal := {} }

/-! ### The thermal model (R314, R315) -/

/-- dt beyond a number of K in magnitude. -/
def dtAbove (e : CalElem) (t : Option (Int × Nat × Int × Nat)) (k : Nat) : Bool :=
  let (n, d) := dtOf e t
  decide ((k : Int) * d.natAbs < n.natAbs)

/-- The computation is in force from the group's next strobe (R314). -/
def State.thermPass (s : State) (g : Nat) : State :=
  s.each (List.range 33) fun s p =>
    match (s.sl (srcSlice g p)).thermNext with
    | some t => s.modSl (srcSlice g p) fun x => { x with therm := some t, thermNext := none }
    | none => s

/-- The thermal computation of the channel's slice every 10 ms (R314 to R316); none for a slice under measurement, of which the
spare that carries its channel is not one (R321). -/
def State.thermal (s : State) (c : Nat) : State :=
  let h := s.ch c
  let k := s.sliceOf c
  let (pn, pd) := loadPower h.aper
  let s := s.wr .CAL_LOAD_P c 0 (clampI 0 4294967295 (roundEven pn pd))
  let s := s.modAper c fun a => { a with pwrV := 0, pwrI := 0, pwrN := 0 }
  let away := h.onSpare && (s.gr (grpOf c)).spare == 2
  if h.out = .retired ∨ s.fencedSrc k ∨ (h.calSpan ∧ ¬ away) then s
  else
    let x := s.sl k
    let t : Int × Nat := if x.tempN = 0 then (x.temp, 1) else (x.tempSum, x.tempN)
    let th := some (t.1, t.2, (pn : Int), pd)
    let s := s.modSl k fun x => { x with thermNext := th }
    let ev := s.calEl k (s.rdN .V_RANGE c)
    let ei := s.calEl k (s.rdN .I_RANGE c + 3)
    if !h.envelope && (dtAbove ev th 20 || dtAbove ei th 20) then
      (s.report k 0x28 c 0).modCh c fun h => { h with envelope := true }
    else if h.envelope && !dtAbove ev th 19 && !dtAbove ei th 19 then s.modCh c fun h => { h with envelope := false }
    else s

/-! ### Commands -/

/-- CAL_EXT_CHECK (R319): the activity check at the start, or its repeat ahead of an isolation. -/
def execCalExtCheck (g : GroupNo) (means : List (Nat × Int × Int)) (s : State) : Host.Outcome State Fault Refusal :=
  .next (let k := (s.gr g).cal
    let active := means.any fun m => (s.calChans g).contains (32 * g + m.1) &&
      (s.ch (32 * g + m.1)).idleOut && s.extActive (32 * g + m.1) m.2.1 m.2.2
    match k.starting with
    | some a =>
      if active then (s.modGr g fun r => { r with cal := {} }).answer (some a) .CAL_EXT_ACTIVE
      else (s.calRun g).answer (some a) .OK
    | none =>
      match k.phase, k.todo with
      | 1, p :: _ =>
        if k.checked ∨ ¬ (s.ch (32 * g + p)).idleOut ∨ (s.ch (32 * g + p)).calSpan then s
        else if means.any fun m => m.1 == p && s.extActive (32 * g + p) m.2.1 m.2.2 then s.calEnd g 5 .CAL_EXT_ACTIVE
        else (s.modGr g fun r => { r with cal := { r.cal with checked := true } }).push g none .calBegin
      | _, _ => s)

/-- CAL_POINT_DONE (R323). -/
def execCalPointDone (g : GroupNo) (x : Int) (s : State) : Host.Outcome State Fault Refusal := .next (s.calPoint g x)

/-- CAL_NVM_WRITE_DONE (R325). -/
def execCalNvmWriteDone (g : GroupNo) (verified : Bool) (s : State) : Host.Outcome State Fault Refusal :=
  .next (s.calWritten g verified)

/-- A slice's temperature crosses a limit of kind THERMAL upwards (Table "Fault kinds"; one report a crossing, DEDUCED, log
20). -/
def State.thermalLimit (s : State) (k : Nat) (old new : Int) : State :=
  let detail := clampI 0 255 (new / 128)
  if 120 * 128 < new ∧ old ≤ 120 * 128 then s.report srcSup 0x39 (k / 33) detail.toNat .grave
  else if 105 * 128 < new ∧ old ≤ 105 * 128 then s.report srcSup 0x39 (k / 33) detail.toNat .note
  else s

/-- SLICE_TEMP_READ (R314): the engine reads the temperature sensors. -/
def execSliceTempRead (temps : List (Nat × Int)) (s : State) : Host.Outcome State Fault Refusal :=
  .next (s.each temps fun s t =>
    let old := (s.sl t.1).temp
    (s.modSl t.1 fun x => { x with temp := t.2, tempSum := x.tempSum + t.2, tempN := x.tempN + 1,
                                    capSum := x.capSum + t.2, capN := x.capN + 1 }).thermalLimit t.1 old t.2)

/-- CAL_THERMAL_UPDATE (R314): every occupied slice, and a new 10 ms begins. -/
def execCalThermalUpdate (s : State) : Host.Outcome State Fault Refusal :=
  .next (let s := s.each allChans fun s c => s.thermal c
    { s with slice := s.slice.map fun p => (p.1, { p.2 with tempSum := 0, tempN := 0 }) })

end Sys2Proof.Machine
end

