-- ==== Sys2Proof/Machine/Net.lean ====
section
/-! DEFINITION. Network ports, time and record streams (R357 to R369, R376 to R382), with the events of this family. -/
namespace Sys2Proof.Machine
open Sys2Proof

/-! ### Frames sent -/

/-- Kinds of frames that the model tells apart: ARP request and reply, DHCP, ICMP echo reply, PTP. -/
def frArpReq : Nat := 1
def frArpReply : Nat := 2
def frDhcp : Nat := 3
def frIcmp : Nat := 4
def frPtp : Nat := 5

/-- A frame leaves a port whose link is up and that is not fenced, and is counted (R383). -/
def State.sendFrame (s : State) (p kind : Nat) (frame : List Byte) : State :=
  if s.portUsable p then (s.send (.frame p kind frame)).inc .NET_TX_FRAMES p else s

/-- An ARP packet leaves a port for a MAC address (R362). -/
def State.sendArp (s : State) (p kind dst op tmac tip : Nat) : State :=
  s.sendFrame p kind (s.ether p dst 0x0806 (arpBytes op (Config.netMac p).toNat (s.rdN .NET_IP p) tmac tip))

/-! ### ARP (R362) -/

/-- An address is learnt: newest first, 64 at most (R362). -/
def State.arpLearn (s : State) (p ip mac : Nat) : State :=
  s.modPort p fun x => { x with arp := ((ip, mac, s.now) :: x.arp.filter fun e => e.1 ≠ ip).take 64
                                asking := x.asking.filter fun e => e.1 ≠ ip }

/-- The MAC address of an address, where it has been learnt. -/
def State.arpMac (s : State) (p ip : Nat) : Option Nat := ((s.port p).arp.find? fun e => e.1 = ip).map fun e => e.2.1

/-- The port asks for an address (R362). -/
def State.arpAsk (s : State) (p ip : Nat) : State :=
  if ip = 0 ∨ (s.port p).asking.any fun e => e.1 = ip then s
  else (s.modPort p fun x => { x with asking := x.asking ++ [(ip, s.now)] }).sendArp p frArpReq macAll 1 0 ip

/-- An address is an IPv4 multicast group (R376). -/
def multicast (ip : Nat) : Bool := bits ip 28 4 == 14

/-- The address that a stream's packets are handed to: the destination on the port's own subnet, else the router (R362). -/
def State.nextHop (s : State) (p k : Nat) : Nat :=
  let ip := s.rdN .STREAM_DEST_IP k
  let m := (s.port p).mask
  if ip &&& m = s.rdN .NET_IP p &&& m then ip else (s.port p).router

/-- The MAC address of a stream's destination by a port (R362, R376): that of the group, or the one learnt. -/
def State.streamMac (s : State) (p k : Nat) : Option Nat :=
  let ip := s.rdN .STREAM_DEST_IP k
  if multicast ip then some (0x01005E000000 + ip % 2 ^ 23) else s.arpMac p (s.nextHop p k)

/-- Ports of a stream that can carry records. -/
def State.livePorts (s : State) (k : Nat) : List Nat := [0, 1].filter fun p => bit (s.streamPorts k) p && s.portUp p

/-- The stream's destination is resolved on every port that it can use (R380). -/
def State.streamResolved (s : State) (k : Nat) : Bool :=
  !(s.livePorts k).isEmpty && (s.livePorts k).all fun p => (s.streamMac p k).isSome

/-- The ports of a running or waiting stream ask for its destination where it is not resolved (R362). -/
def State.streamAsk (s : State) (k : Nat) : State :=
  s.each (s.livePorts k) fun s p => if (s.streamMac p k).isSome then s else s.arpAsk p (s.nextHop p k)

/-! ### Streams start and stop (R380) -/

/-- A stream runs: the first record of each of its channels carries GAP (R184, R380). -/
def State.streamRun (s : State) (k : Nat) : State :=
  let s := s.wr .STREAM_STATE k 0 1
  s.each (s.streamChans k) fun s c => s.modAper c fun a => { a with gap := true }

/-- A stream that waits for its destination starts once it is resolved (R380). -/
def State.streamTry (s : State) (k : Nat) : State :=
  if s.rd .STREAM_STATE k = 2 ∧ s.streamResolved k then s.streamRun k else s

/-- STREAM_EN = true at its execution (R380). A stream that still drains gives up what it holds to its new run. -/
def State.streamStart (s : State) (k : Nat) : State :=
  let st := s.rd .STREAM_STATE k
  let s := s.wr .STREAM_EN k 0 1
  if st = 1 ∨ st = 2 then s
  else
    let a := (s.st k).ans
    let s := ((s.modSt k fun x => { x with ans := [] }).answers a .OK).moveIfLost k
    if multicast (s.rdN .STREAM_DEST_IP k) || s.streamResolved k then s.streamRun k
    else (s.wr .STREAM_STATE k 0 2).streamAsk k

/-- STREAM_EN = false at its execution (R380): the open blocks close, and the request waits until the last block has
left; blocks of an earlier run cannot leave while the destination is not resolved, and are lost. -/
def State.streamStop (s : State) (k : Nat) (a : Ans) : State :=
  let st := s.rd .STREAM_STATE k
  if st = 0 ∨ st = 2 then
    let s := if st = 2 then s.loseBlocks k else s
    (((s.wr .STREAM_EN k 0 0).wr .STREAM_STATE k 0 0).modSt k fun _ => {}).answer a .OK
  else
    let s := if st = 1 then s.each (s.streamChans k) fun s c => s.closeBlock c else s
    let s := (s.wr .STREAM_EN k 0 0).wr .STREAM_STATE k 0 3
    (s.modSt k fun x => { x with ans := x.ans ++ [a] }).drainCheck k

/-- Every stream that runs or waits asks for what it has not resolved, and starts where it can (R362, R380). -/
def State.streamsAsk (s : State) : State :=
  s.each (List.range 32) fun s k => if s.rd .STREAM_STATE k = 0 then s else (s.streamAsk k).streamTry k

/-- A port can carry records again: streams that cannot use their own take it, mirrored ones go on by it alone while the other is lost,
and those that wait ask (R380, R381). -/
def State.portGained (s : State) (p : Nat) : State :=
  let s := s.moveStreams (1 - p)
  let s := s.each (List.range 32) fun s k =>
    if s.rd .STREAM_STATE k ≠ 0 ∧ s.streamPorts k = 3 ∧ s.portUp p ∧ ¬ s.portUp (1 - p) then s.dropPort k (1 - p) else s
  s.streamsAsk

/-! ### Addresses (R361) -/

/-- The start of the time for which a port has held link and address (R381). -/
def State.holdFrom (s : State) (p : Nat) : State :=
  let up := (s.port p).link && s.rd .NET_IP p != 0
  s.modPort p fun x => { x with goodFrom := if up then (if x.goodFrom.isSome then x.goodFrom else some s.now) else none }

/-- The gratuitous ARP of an address that has taken effect leaves as soon as the port can send it (R361). -/
def State.gratuitous (s : State) (p : Nat) : State :=
  if (s.port p).garp && s.portUsable p && s.rd .NET_IP p != 0 then
    (s.modPort p fun x => { x with garp := false }).sendArp p frArpReq macAll 1 0 (s.rdN .NET_IP p)
  else s

/-- An address takes effect on a port, or goes (R361): one gratuitous ARP, and the rules of streams; under the same address the way to
their destinations may have changed (R362). -/
def State.setAddr (s : State) (p ip mask router : Nat) : State :=
  let old := s.rdN .NET_IP p
  let s := (s.wr .NET_IP p 0 ip).modPort p fun x => { x with mask := mask, router := router }
  let s := s.holdFrom p
  if ip = old then s.streamsAsk
  else if ip = 0 then (s.modPort p fun x => { x with garp := false }).portLost p
  else ((s.modPort p fun x => { x with garp := true }).gratuitous p).portGained p

/-- The static address in effect (R361). -/
def State.staticAddr (s : State) (p : Nat) : State :=
  if s.rd .NET_ADDR_MODE p = 0 then s.setAddr p (s.rdN .NET_IP_STATIC p) (s.rdN .NET_MASK p) (s.rdN .NET_GW p) else s

/-- A DHCP message of a type (RFC 2131, option 53) leaves by broadcast, with the address asked for or 0. A DISCOVER and each renewal draw
a transaction identifier, a free value; the REQUEST that answers an offer keeps it (RFC 2131; log 94). A renewal goes to the server alone.
-/
def State.dhcpSend (s : State) (p type ask : Nat) (alone : Bool := false) : State :=
  let keep := ask ≠ 0
  let xid := if keep then (s.port p).xid else (Config.freeValue s.fresh).toNat % 2 ^ 32
  let own := s.rdN .NET_IP p
  let s := { s with fresh := s.fresh + 1 }.modPort p fun x => { x with sent := s.now, xid := xid }
  let x := s.port p
  s.sendFrame p frDhcp (s.udpFrame p (if alone then x.serverMac else macAll) (if alone then x.server else 0xFFFFFFFF) 68 67
    (dhcpBytes type (Config.netMac p).toNat xid own ask x.server))

/-- The client starts: DISCOVER (R361). -/
def State.dhcpStart (s : State) (p : Nat) : State :=
  (s.modPort p fun x => { x with dhcp := .selecting, tries := 0 }).dhcpSend p 1 0

/-- NET_ADDR_MODE at its execution (R361): the static address, or a client that starts where the link is up. -/
def State.addrMode (s : State) (p : Nat) : State :=
  if s.rd .NET_ADDR_MODE p = 0 then (s.modPort p fun x => { x with dhcp := .init, lease := 0 }).staticAddr p
  else
    let s := s.setAddr p 0 0 0
    if (s.port p).link then s.dhcpStart p else s

/-- Interval after the n-th unanswered DISCOVER in ns: 4, 8, 16, 32, then 64 s (R361). -/
def dhcpWait (n : Nat) : Nat := (if n < 4 then 4 * 2 ^ n else 64) * 1000000000

/-- A message of a DHCP server, in the transaction that the client has begun (R361). -/
def State.dhcpTake (s : State) (p : Nat) (m : DhcpIn) : State :=
  let x := s.port p
  let asked := decide (x.dhcp = .requesting ∨ x.dhcp = .renewing ∨ x.dhcp = .rebinding)
  if s.rd .NET_ADDR_MODE p ≠ 1 ∨ ¬ s.portUsable p ∨ m.xid ≠ x.xid then s
  else match m.msg with
  | .offer ip server =>
    if x.dhcp = .selecting then
      (s.modPort p fun x => { x with dhcp := .requesting, server := server, serverMac := m.mac, offered := ip }).dhcpSend p 3 ip
    else s
  | .ack ip mask router lease t1 t2 =>
    if !asked then s
    else
      let s := s.modPort p fun x =>
        { x with dhcp := .bound, leaseAt := s.now, lease := lease, tries := 0, serverMac := m.mac
                 t1 := t1.getD (lease / 2), t2 := t2.getD (7 * lease / 8) }
      s.setAddr p ip mask router
  | .nak => if asked then (s.setAddr p 0 0 0).dhcpStart p else s

/-- A time of the lease has come, in s from its start; a lease of 2^32 − 1 s has no end (RFC 2131). -/
def State.leasePast (s : State) (p t : Nat) : Bool :=
  decide ((s.port p).lease ≠ 0xFFFFFFFF ∧ (s.port p).leaseAt + t * 1000000000 ≤ s.now)

/-! ### Links (R357, R358) -/

/-- The link of a port goes down. -/
def State.linkOff (s : State) (p : Nat) : State :=
  ((s.modPort p fun x => { x with link := false, asking := [] }).holdFrom p).portLost p

/-- The link of a port is up (R358): the DHCP client starts (R361). No link trains without VDDSD, rail 5 (Table "Supplies"). -/
def State.linkOn (s : State) (p : Nat) : State :=
  if s.rd .NET_MODE p = 0 ∨ (s.port p).link ∨ s.pwr.asleep ∨ bit s.pwr.lost 5 ∨ s.tb (17 + p) = 4 then s
  else
    let s := (s.modPort p fun x => { x with link := true }).holdFrom p
    let s := if s.rd .NET_ADDR_MODE p = 1 then s.dhcpStart p else s
    (s.gratuitous p).portGained p

/-! ### Time (R364 to R369) -/

/-- The servo takes a state; entries to and exits from LOCKED are reported (R367). -/
def State.servoTo (s : State) (st : Nat) : State :=
  let old := s.rdN .PTP_STATE
  let s := s.wr .PTP_STATE 0 0 st
  let s := if st ≤ 1 then { s with clk := { s.clk with rate := 0 } } else s
  if st = 3 ∧ old ≠ 3 then s.report srcPtp 0x31 0 1
  else if st ≠ 3 ∧ old = 3 then s.report srcPtp 0x31 0 0
  else s

/-- The counter is stepped by an offset (R368). What it has stamped of an exchange in progress holds no longer (DEDUCED, log 96). -/
def State.stepTime (s : State) (d : Int) : State :=
  { s with clk := { s.clk with tbp := s.clk.tbp - d, stepNo := s.clk.stepNo + 1, good := 0
                               sync2 := none, syncDiff := none, reqAt := none, pdelay := none } }.inc .PTP_STEPS

/-- An offset in UNCALIBRATED: a step beyond 1 µs, and LOCKED after 16 in a row within 100 ns (R367). -/
def State.calibrate (s : State) (d : Int) : State :=
  if 1000 < d.natAbs then s.stepTime d
  else if 100 < d.natAbs then { s with clk := { s.clk with good := 0 } }
  else if 15 ≤ s.clk.good then { s with clk := { s.clk with good := 0 } }.servoTo 3
  else { s with clk := { s.clk with good := s.clk.good + 1 } }

/-- The servo trims the rate: by how much within ±200 ppm the spec leaves open (R364, R367; a free value, log 45). -/
def State.trim (s : State) : State :=
  { s with clk := { s.clk with rate := ((Config.freeValue s.fresh).toNat % 400001 : Nat) - 200000 }, fresh := s.fresh + 1 }

/-- The servo takes an offset from its selected source (R367). -/
def State.servo (s : State) (d : Int) : State :=
  let s := { s with clk := { s.clk with lastSync := s.now } }.wr .PTP_OFFSET 0 0 (clampI (-2147483648) 2147483647 d)
  if s.tb tbP = 4 ∨ s.fencedSrc srcPtp then s
  else match s.rdN .PTP_STATE with
  | 2 => (s.calibrate d).trim
  | 3 => if 1000 < d.natAbs then (({ s with clk := { s.clk with good := 0 } }.servoTo 2).calibrate d).trim else s.trim
  | 1 | 4 => (({ s with clk := { s.clk with good := 0 } }.servoTo 2).calibrate d).trim
  | _ => s

/-- The port that carries PTP has changed: HOLDOVER until a Sync on the new one (R366). -/
def State.ptpMoved (s : State) (old : Nat) : State :=
  if s.ptpPort ≠ old ∧ (s.rd .PTP_STATE = 2 ∨ s.rd .PTP_STATE = 3) ∧ s.rd .TIME_SRC = 0 then s.servoTo 4 else s

/-- Rank of an announced clock: of two sources the lower rank is the better (R365, the data set comparison of IEEE 1588). -/
def clockRank (x : PtpClock) : Nat :=
  (((((x.prio1 * 2 ^ 8 + x.cls) * 2 ^ 8 + x.accuracy) * 2 ^ 16 + x.variance) * 2 ^ 8 + x.prio2) * 2 ^ 64 + x.identity) * 2 ^ 16
    + x.steps

/-- The best of the sources that a port hears of (R365). -/
def bestClock (p : Nat) (l : List (Nat × PtpClock × Nat)) : Option Nat :=
  ((l.filter fun x => x.1 = p).foldl (fun (m : Option PtpClock) x =>
    match m with
    | some y => if clockRank x.2.1 < clockRank y then some x.2.1 else m
    | none => some x.2.1) none).map (·.identity)

/-- The sources heard of within PTP_TIMEOUT are compared, and each port selects the best (R365; DEDUCED, log 96). -/
def State.ptpSelect (s : State) : State :=
  let l := s.clk.heard.filter fun x => decide (s.now < x.2.2 + s.rdN .PTP_TIMEOUT * 1000000)
  { s with clk := { s.clk with heard := l, src0 := bestClock 0 l, src1 := bestClock 1 l } }

/-- The servo holds over after PTP_TIMEOUT without its source, and gives it up after ten times that (R367). -/
def State.servoTimeout (s : State) : State :=
  let t := s.rdN .PTP_TIMEOUT * 1000000
  let st := s.rdN .PTP_STATE
  let late (from_ n : Nat) : Bool := decide (from_ + n * t ≤ s.now)
  let quiet := late s.clk.lastSync 1 || (s.rd .TIME_SRC == 0 && late s.clk.lastAnnounce 1)
  let old := s.ptpPort
  if st = 3 ∧ quiet then (s.ptpSelect.servoTo 4).ptpMoved old
  else if st = 4 ∧ late s.clk.lastSync 10 then
    ({ s with clk := { s.clk with heard := s.clk.heard.filter fun x => x.1 ≠ old } }.ptpSelect).servoTo 1
  else s

/-- TIME_SRC at its execution (R364, R367). -/
def State.setTimeSrc (s : State) (v : Int) : State :=
  let old := s.rd .TIME_SRC
  let s := s.wr .TIME_SRC 0 0 v
  if v = old then s
  else { s with clk := { s.clk with heard := [], src0 := none, src1 := none, good := 0 } }.servoTo (if v = 2 then 0 else 1)

/-- The TAI second that a PPSIN edge stands for: the one that the host named, else the calendar's nearest (R369). -/
def State.ppsSecond (s : State) : Nat := s.clk.ppsNext.getD ((s.rtc + 500000000) / 1000000000)

/-- A PPSIN edge (R369). -/
def State.ppsEdge (s : State) : State :=
  let d : Int := (s.tbp : Int) - (s.ppsSecond * 1000000000 : Nat)
  let s := s.wr .PPSIN_LAST 0 0 s.stampNow
  let s := if s.rd .TIME_SRC = 1 then { s with clk := { s.clk with ppsNext := none } }.servo d else s
  s.edge (selector 8 0 0)

/-- PPSOUT is due now: the counter stands at a TAI second plus the offset in force for it, within 8 ns (R369). -/
def State.ppsDue (s : State) : Bool :=
  let near (off : Int) (new : Bool) : Bool :=
    let x := (s.tbp : Int) - off
    let sec := (x + 500000000) / 1000000000
    decide ((x - sec * 1000000000).natAbs ≤ 8) && (new == decide ((s.clk.ppsFrom : Int) ≤ sec))
  near (s.rd .PPSOUT_OFFSET) true || near s.clk.ppsOld false

/-- PPSOUT_OFFSET at its execution: it holds from the next second (R369). -/
def State.setPpsOffset (s : State) (v : Int) : State :=
  let now := s.tbp / 1000000000
  let old := if s.clk.ppsFrom ≤ now then s.rd .PPSOUT_OFFSET else s.clk.ppsOld
  { s with clk := { s.clk with ppsOld := old, ppsFrom := now + 1 } }.wr .PPSOUT_OFFSET 0 0 v

/-- PPSOUT_WIDTH at its execution: it holds from the next second (R369). -/
def State.setPpsWidth (s : State) (v : Int) : State :=
  let now := s.tbp / 1000000000
  let old := if s.clk.ppsWFrom ≤ now then s.rdN .PPSOUT_WIDTH else s.clk.ppsWOld
  { s with clk := { s.clk with ppsWOld := old, ppsWFrom := now + 1 } }.wr .PPSOUT_WIDTH 0 0 v

/-- The width of a pulse that rises now, in the TAI second that it belongs to (R369). -/
def State.ppsWidth (s : State) : Nat :=
  let off := if (s.clk.ppsFrom : Int) ≤ (s.tbp : Int) / 1000000000 then s.rd .PPSOUT_OFFSET else s.clk.ppsOld
  if (s.clk.ppsWFrom : Int) ≤ ((s.tbp : Int) - off + 500000000) / 1000000000 then s.rdN .PPSOUT_WIDTH else s.clk.ppsWOld

/-! ### Stream packets (R377 to R379, R193) -/

/-- Records that a port has yet to send of a block. -/
def Blk.left (b : Blk) (p : Nat) : List BRec :=
  if bit b.ports p then b.recs.drop (if p = 0 then b.sent0 else b.sent1) else []

/-- Records of a channel that wait at a port, oldest first, with their stream. -/
def State.waitingRecs (s : State) (c p : Nat) : List (Nat × BRec) :=
  (s.ch c).aper.ready.flatMap fun b => (b.left p).map fun r => (b.stream, r)

/-- Most records of a packet of a stream by a port (R379); the packets of a mirrored stream are those of both ports. -/
def State.packetMax (s : State) (k p : Nat) : Nat :=
  let jumbo := if s.rd .STREAM_PORTS k = 3 then s.rdT .NET_JUMBO 0 && s.rdT .NET_JUMBO 1 else s.rdT .NET_JUMBO p
  let m := if jumbo then 512 else 90
  if s.rdN .STREAM_PKT_MAX k < m then s.rdN .STREAM_PKT_MAX k else m

/-- Records up to the end of a packet that the other port has sent (R379). -/
def uptoCut : List BRec → List BRec
  | [] => []
  | r :: l => if r.cut.isSome then [r] else r :: uptoCut l

/-- A record goes on in the packet that `a` began (R378). -/
def sameGrid (k : Nat) (a : BRec) (x : Nat × BRec) : Bool :=
  x.1 == k && !a.short && !x.2.short && x.2.n == a.n && x.2.no / 2 ^ 48 == a.no / 2 ^ 48 && decide (a.no < x.2.no) &&
    x.2.us == a.us + (x.2.no - a.no) * a.n && x.2.pos == a.pos

/-- The records of the next packet of a channel by a port. -/
def State.packetRecs (s : State) (c p : Nat) : List BRec :=
  match s.waitingRecs c p with
  | [] => []
  | (k, a) :: l => uptoCut (a :: ((l.takeWhile (sameGrid k a)).take (s.packetMax k p - 1)).map (·.2))

/-- A channel's packet is due at a port: since when its oldest record has waited, none where it is not (R379). -/
def State.packetDue (s : State) (c p : Nat) : Option Nat :=
  match s.waitingRecs c p with
  | [] => none
  | (k, a) :: l =>
    if (s.streamMac p k).isNone then none
    else if (s.packetRecs c p).any (·.cut.isSome) ∨ s.packetMax k p ≤ l.length + 1 ∨ a.made + s.rdN .REC_FLUSH * 1000 ≤ s.now ∨ s.rd .STREAM_STATE k = 3 then some a.made
    else none

/-- An aggregates packet waits at a port: since when, with its stream. -/
def State.aggDue (s : State) (k p : Nat) : Option (Nat × AggPkt) :=
  if (s.streamMac p k).isNone then none else ((s.st k).aggs.find? fun a => bit a.ports p).map fun a => (a.made, a)

/-- The due packet that has waited longest (R379): of a channel (true) or of a stream's aggregates, ties to the lower
number, records first. -/
def State.nextPacket (s : State) (p : Nat) : Option (Bool × Nat) :=
  let a := (s.chan.map fun x => x.1).filterMap fun c => (s.packetDue c p).map fun t => (t, true, c)
  let b := (List.range 32).filterMap fun k => (s.aggDue k p).map fun t => (t.1, false, k)
  let best := (a ++ b).foldl (fun (m : Option (Nat × Bool × Nat)) x =>
    match m with
    | none => some x
    | some y => if x.1 < y.1 then some x else m) none
  best.map (·.2)

/-- n records of a channel have been sent by a port; blocks that every port has sent return to the pool (R191, R379). -/
def sentRecs (p : Nat) : Nat → List Blk → List Blk
  | _, [] => []
  | n, b :: l =>
    let k := (b.left p).length
    if k = 0 then b :: sentRecs p n l
    else if n < k then
      (if p = 0 then { b with sent0 := b.sent0 + n } else { b with sent1 := b.sent1 + n }) :: l
    else
      let b := { b with ports := setBit b.ports p false }
      if b.ports = 0 then sentRecs p (n - k) l else b :: sentRecs p (n - k) l

/-- The packet is the first of its channel, or of its group in its stream, after a step (R368). -/
def State.stepDue (s : State) (key : Nat) : Bool := s.clk.stepSeen.get (fun _ => 0) key != s.clk.stepNo

/-- FLAGS of a stream header, and STEP marked as carried (R368, R377); a packet that the other port has sent keeps its STEP (R379). -/
def State.packetFlags (s : State) (k p key : Nat) (locked : Bool) (cut : Option Bool) : Nat × State :=
  let step := cut.getD (s.stepDue key)
  (b2n step * 8 + b2n locked * 4 + b2n (s.rd .STREAM_PORTS k == 3) * 2 + p,
   { s with clk := { s.clk with stepSeen := s.clk.stepSeen.put (fun _ => 0) key s.clk.stepNo } })

/-- The datagram of a stream packet: its header, and the items of `w` bytes each, every field most significant byte first (R6,
R377). -/
def streamPacket (kind stream flags unit epoch first time period w : Nat) (items : List Nat) : List Byte :=
  beBytes 2 0x4B53 ++ beBytes 1 1 ++ beBytes 1 kind ++ beBytes 1 stream ++ beBytes 1 flags ++ beBytes 2 unit ++ beBytes 2 epoch
    ++ beBytes 6 first ++ beBytes 10 time ++ beBytes 4 period
    ++ beBytes 2 items.length ++ items.flatMap fun x => beBytes w x

/-- A stream packet in a frame of a port, from port 47121 to the stream's destination (R376). -/
def State.streamFrame (s : State) (k p : Nat) (datagram : List Byte) : List Byte :=
  s.udpFrame p ((s.streamMac p k).getD 0) (s.rdN .STREAM_DEST_IP k) 47121 (s.rdN .STREAM_DEST_PORT k) datagram

/-- The packet that ends with record number `no` goes by the other port as it stands (R379). -/
def Aper.cutAt (no : Nat) (step : Bool) (a : Aper) : Aper :=
  { a with ready := a.ready.map fun b =>
      { b with recs := b.recs.map fun r => if r.no = no then { r with cut := some step } else r } }

/-- A records packet of a channel leaves a port (R377 to R379). -/
def State.sendRecords (s : State) (c p : Nat) : State :=
  match s.waitingRecs c p with
  | [] => s
  | (k, a) :: _ =>
    let l := s.packetRecs c p
    let end_ := l.getLast?
    let cut := end_.bind (·.cut)
    let step := cut.getD (s.stepDue c)
    let (fl, s) := s.packetFlags k p c a.locked cut
    let s := s.send (.packet p k (s.streamFrame k p
      (streamPacket 1 k fl c (a.no / 2 ^ 48) (a.no % 2 ^ 48) (time80 a.time) a.n 16 (l.map (·.word)))))
    let s := if s.rd .STREAM_PORTS k = 3 then s.modAper c (Aper.cutAt ((end_.map (·.no)).getD 0) step) else s
    let s := s.modAper c fun x => { x with ready := sentRecs p l.length x.ready }
    (((s.inc .STREAM_PACKETS k).inc .STREAM_RECORDS k l.length).inc .NET_TX_FRAMES p).drainCheck k

/-- An aggregates packet of a stream leaves a port (R377, R378). -/
def State.sendAggs (s : State) (k p : Nat) : State :=
  match s.aggDue k p with
  | none => s
  | some (_, a) =>
    let step := a.step.getD (s.stepDue (512 + 16 * k + a.g))
    let (fl, s) := s.packetFlags k p (512 + 16 * k + a.g) a.locked a.step
    let s := s.send (.packet p k (s.streamFrame k p (streamPacket 2 k fl a.g 0 a.window (time80 a.time) a.period 32 a.items)))
    let s := s.modSt k fun x =>
      { x with aggs := (x.aggs.map fun b => if b = a then { b with ports := setBit b.ports p false, step := some step } else b).filter fun b =>
          b.ports ≠ 0 }
    ((s.inc .STREAM_PACKETS k).inc .NET_TX_FRAMES p).drainCheck k

/-- A record with its GAP flag set (R178, R193). -/
def BRec.withGap (r : BRec) : BRec := { r with word := setBit r.word 22 true }

/-- A block without its first record's GAP gets it. -/
def Blk.withGap (b : Blk) : Blk :=
  { b with recs := match b.recs with | r :: l => r.withGap :: l | [] => [] }

/-- The channel's first record behind its ready blocks carries GAP (R193). -/
def Aper.gapOpen (a : Aper) : Aper :=
  match a.block.reverse with
  | r :: l => { a with block := (r.withGap :: l).reverse }
  | [] => { a with gap := true }

/-- A ready block is gone, and the channel's next block carries GAP in its first record (R193). -/
def Aper.dropBlock (b : Blk) (a : Aper) : Aper :=
  let no (x : Blk) := x.recs.head?.map (·.no)
  let (l, r) := a.ready.span fun x => no x ≠ no b
  match r with
  | _ :: n :: r => { a with ready := l ++ n.withGap :: r }
  | _ => Aper.gapOpen { a with ready := l }

/-- A block of a channel cannot be read: it is discarded, its records are lost, and the error is reported (R193). -/
def State.discardBlock (s : State) (c : Nat) (b : Blk) : State :=
  let n := b.recs.length
  let s := ((s.inc .REC_LOST c n).inc .REC_LOST_TOTAL 0 n).inc .BLOCK_DISCARDS
  let s := s.modAper c (Aper.dropBlock b)
  (s.report srcSram 0x19 0 1).drainCheck b.stream

/-- The blocks from which `n` records of a channel are read for a port, oldest first. -/
def blocksFor (p : Nat) : Nat → List Blk → List Blk
  | _, [] => []
  | n, b :: l => if n = 0 then [] else b :: blocksFor p (n - (b.left p).length) l

/-- The blocks that the next packet of a channel reads for a port. -/
def State.packetBlocks (s : State) (c p : Nat) : List Blk :=
  blocksFor p (s.packetRecs c p).length ((s.ch c).aper.ready.filter fun b => !(b.left p).isEmpty)

/-- A packet that is due leaves a port (R379). Of the blocks that it reads, those at the places `bad` cannot be read; what is left
leaves (R193). -/
def State.sendPacket (s : State) (p : Nat) (bad : List Nat) : State :=
  if !s.portUp p then s
  else match s.nextPacket p with
  | none => s
  | some (true, c) =>
    let bs := s.packetBlocks c p
    let lost := ((List.range bs.length).zip bs).filterMap fun x => if bad.contains x.1 then some x.2 else none
    let s := s.each lost fun s b => s.discardBlock c b
    if lost.length < bs.length then s.sendRecords c p else s
  | some (false, k) => s.sendAggs k p

/-- A moved stream returns to its own port, which has held link and address for 1 s and is not fenced (R381). -/
def State.streamReturn (s : State) (k : Nat) : State :=
  match (s.st k).movedTo with
  | none => s
  | some q =>
    let h := 1 - q
    match (s.port h).goodFrom with
    | some t => if t + 1000000000 ≤ s.now ∧ s.portUp h then (s.moveStream k h).streamAsk k else s
    | none => s

/-! ### Commands -/

/-- LINK_UP (R358). -/
def execLinkUp (n : Fin 2) (s : State) : Host.Outcome State Fault Refusal :=
  .next ((s.linkOn n).ptpMoved s.ptpPort)

/-- LINK_DOWN (R358): a lost link, or errors that leave it up. -/
def execLinkDown (n : Fin 2) (errorsOnly : Bool) (s : State) : Host.Outcome State Fault Refusal :=
  .next (if !(s.port n).link then s
    else if errorsOnly then s.report (srcNet n) 0x30 0 1
    else ((s.linkOff n).report (srcNet n) 0x30 0 0).ptpMoved s.ptpPort)

/-- STREAM_PORT_RETURN (R381). -/
def execStreamPortReturn (st : Fin 32) (s : State) : Host.Outcome State Fault Refusal := .next (s.streamReturn st)

/-- DHCP_MESSAGE (R361). -/
def execDhcpMessage (n : Fin 2) (m : DhcpIn) (s : State) : Host.Outcome State Fault Refusal := .next (s.dhcpTake n m)

/-- DHCP_DISCOVER_RETRY (R361). A REQUEST without an answer is followed by a DISCOVER (DEDUCED, log 94). -/
def execDhcpDiscoverRetry (n : Fin 2) (s : State) : Host.Outcome State Fault Refusal :=
  .next (let x := s.port n
    if (x.dhcp = .selecting ∨ x.dhcp = .requesting) ∧ x.sent + dhcpWait x.tries ≤ s.now then
      (s.modPort n fun x => { x with dhcp := .selecting, tries := x.tries + 1 }).dhcpSend n 1 0
    else s)

/-- DHCP_RENEW (R361): at T1, a REQUEST to the server (RFC 2131). -/
def execDhcpRenew (n : Fin 2) (s : State) : Host.Outcome State Fault Refusal :=
  .next (if (s.port n).dhcp = .bound ∧ s.leasePast n (s.port n).t1 then
      (s.modPort n fun x => { x with dhcp := .renewing }).dhcpSend n 3 0 true
    else s)

/-- DHCP_REBIND (R361): at T2, a REQUEST to every server (RFC 2131). -/
def execDhcpRebind (n : Fin 2) (s : State) : Host.Outcome State Fault Refusal :=
  .next (if ((s.port n).dhcp = .bound ∨ (s.port n).dhcp = .renewing) ∧ s.leasePast n (s.port n).t2 then
      (s.modPort n fun x => { x with dhcp := .rebinding }).dhcpSend n 3 0
    else s)

/-- DHCP_LEASE_EXPIRY (R361): the address goes at once, and the client starts again. -/
def execDhcpLeaseExpiry (n : Fin 2) (s : State) : Host.Outcome State Fault Refusal :=
  .next (let x := s.port n
    if s.rd .NET_ADDR_MODE n = 1 ∧ x.lease ≠ 0 ∧ s.leasePast n x.lease then
      let s := (s.modPort n fun x => { x with lease := 0 }).setAddr n 0 0 0
      if (s.port n).link then s.dhcpStart n else s
    else s)

/-- ARP_REQUEST (R362): a request for the port's own address is answered, and the sender learnt. -/
def State.arpTake (s : State) (n senderIp senderMac targetIp : Nat) : State :=
  let ip := s.rdN .NET_IP n
  if ip = 0 ∨ targetIp ≠ ip then s
  else (s.arpLearn n senderIp senderMac).sendArp n frArpReply senderMac 2 senderMac senderIp

def execArpRequest (n : Fin 2) (senderIp senderMac targetIp : Nat) (s : State) : Host.Outcome State Fault Refusal :=
  .next (s.arpTake n senderIp senderMac targetIp)

/-- ARP_CACHE_EXPIRY (R362): 300 s after it was learnt; streams that need it ask again. -/
def execArpCacheExpiry (n : Fin 2) (ip : Nat) (s : State) : Host.Outcome State Fault Refusal :=
  .next (let s := s.modPort n fun x => { x with arp := x.arp.filter fun e => !(e.1 == ip && decide (e.2.2 + 300000000000 ≤ s.now)) }
    s.each (List.range 32) fun s k => if s.rd .STREAM_STATE k = 0 then s else s.streamAsk k)

/-- ARP_RETRY (R362): every 1 s. -/
def execArpRetry (n : Fin 2) (ip : Nat) (s : State) : Host.Outcome State Fault Refusal :=
  .next (if (s.port n).asking.any fun e => e.1 == ip && decide (e.2 + 1000000000 ≤ s.now) then
      (s.modPort n fun x => { x with asking := x.asking.filter fun e => e.1 ≠ ip }).arpAsk n ip
    else s)

/-- An ICMP echo request is answered with the same data, its identifier and sequence first (R363). -/
def State.icmpTake (s : State) (n srcIp srcMac : Nat) (data : List Byte) : State :=
  if s.rd .NET_IP n = 0 then s
  else s.sendFrame n frIcmp (s.ether n srcMac 0x0800 (ipv4 1 (s.rdN .NET_IP n) srcIp
    ([0#8, 0#8] ++ beBytes 2 (checksum ([0#8, 0#8, 0#8, 0#8] ++ data)) ++ data)))

/-- ICMP_ECHO (R363). -/
def execIcmpEcho (n : Fin 2) (srcIp srcMac : Nat) (data : List Byte) (s : State) : Host.Outcome State Fault Refusal :=
  .next (s.icmpTake n srcIp srcMac data)

/-- A port carries PTP: over UDP it needs an address (R361, R365). -/
def State.ptpCarries (s : State) (n : Nat) : Bool :=
  s.portUsable n && (s.rd .PTP_TRANSPORT == 1 || s.rd .NET_IP n != 0)

/-- A Sync has been received, with `x` the receipt minus the origin and the corrections, in 2^-16 ns: the offset is what the mean delay
leaves of it, and PTP_ASYM (R365, R366). -/
def State.syncDone (s : State) (x : Int) : State :=
  let d := roundEven (x - s.rd .PTP_MEAN_DELAY * 65536) 65536 + s.rd .PTP_ASYM
  { s with clk := { s.clk with sync2 := none, syncDiff := some x } }.servo d

/-- Twice the mean delay, in 2^-16 ns, has been measured (R365). -/
def State.delayDone (s : State) (x : Int) : State :=
  { s with clk := { s.clk with reqAt := none, pdelay := none } }.wr .PTP_MEAN_DELAY 0 0 (clampI 0 4294967295 (roundEven x 131072))

/-- The time at which a response with the sequence of the request in progress came, less that of the request, in 2^-16 ns. -/
def State.sinceReq (s : State) (seq : Nat) : Option Int :=
  match s.clk.reqAt with
  | some (q, t) => if q = seq then some (((s.tbp : Int) - t) * 65536) else none
  | none => none

/-- A PTP message of the device's version and domain (R365, R367): Sync and delay measurements with their corrections (IEEE 1588-2019). -/
def State.ptpTake (s : State) (n : Nat) (m : PtpMsg) : State :=
  let on := decide (s.rd .TIME_SRC = 0 ∧ n = s.ptpPort)
  let peer := s.rd .PTP_DELAY = 1
  let now : Int := s.tbp
  if s.fencedSrc srcPtp ∨ s.pwr.asleep ∨ ¬ s.ptpCarries n then s
  else match m with
  | .announce x utc =>
    if s.rd .TIME_SRC ≠ 0 then s
    else
      let old := s.ptpPort
      let s := { s with clk := { s.clk with
        heard := (n, x, s.now) :: s.clk.heard.filter fun y => !(y.1 == n && y.2.1.identity == x.identity) } }
      let s := (s.ptpSelect).ptpMoved old
      if n ≠ s.ptpPort ∨ s.ptpSource ≠ some x.identity then s
      else
        let s := { s with clk := { s.clk with lastAnnounce := s.now } }.wr .PTP_UTC_OFFSET 0 0 (clampI (-32768) 32767 utc)
        if s.rd .PTP_STATE = 1 then { s with clk := { s.clk with good := 0 } }.servoTo 2 else s
  | .sync id seq two t c =>
    if !on ∨ s.ptpSource ≠ some id then s
    else if two then { s with clk := { s.clk with sync2 := some (id, seq, s.tbp, c) } }
    else s.syncDone ((now - t) * 65536 - c)
  | .followUp id seq t c =>
    match s.clk.sync2 with
    | some (id', seq', at_, c') =>
      if !on ∨ s.ptpSource ≠ some id ∨ id ≠ id' ∨ seq ≠ seq' then s else s.syncDone (((at_ : Int) - t) * 65536 - c' - c)
    | none => s
  | .delayResp id seq mine t c log =>
    if !on ∨ peer ∨ !mine ∨ s.ptpSource ≠ some id then s
    else
      let s := { s with clk := { s.clk with reqExp := (clampI 0 7 (log + 4)).toNat } }
      match s.clk.syncDiff, s.clk.reqAt with
      | some x, some (q, from_) => if q = seq then s.delayDone (x + ((t : Int) - from_) * 65536 - c) else s
      | _, _ => s
  | .pdelayResp seq mine two t c =>
    match s.sinceReq seq with
    | some x =>
      if !on ∨ !peer ∨ !mine then s
      else if two then { s with clk := { s.clk with pdelay := some (x + t * 65536 - c) } }
      else s.delayDone (x - c)
    | none => s
  | .pdelayRespFollowUp seq mine t c =>
    match s.clk.pdelay, s.clk.reqAt with
    | some x, some (q, _) => if !on ∨ !peer ∨ !mine ∨ q ≠ seq then s else s.delayDone (x - t * 65536 - c)
    | _, _ => s
  | .pdelayReq id k seq c =>
    let stamp := beBytes 10 s.stampNow ++ beBytes 8 id ++ beBytes 2 k
    if peer ∧ n = s.ptpPort then
      (s.sendFrame n frPtp (s.ptpFrame n ptpPdelayResp seq stamp)).sendFrame n frPtp (s.ptpFrame n ptpPdelayRespFollowUp seq stamp c)
    else s

/-- PTP_MESSAGE (R365): one of another version or domain, or with an option that the table does not list, is discarded. -/
def execPtpMessage (n : Fin 2) (m : PtpIn) (s : State) : Host.Outcome State Fault Refusal :=
  .next (if m.version = 2 ∧ m.domain = s.rdN .PTP_DOMAIN ∧ m.outside = false then s.ptpTake n m.msg else s)

/-- PTP_DELAY_REQ_SEND (R365): Delay_Req or Pdelay_Req, by its message type, no sooner than the interval allows. -/
def execPtpDelayReqSend (s : State) : Host.Outcome State Fault Refusal :=
  .next (if s.rd .TIME_SRC = 0 ∧ s.ptpSource.isSome ∧ ¬ s.fencedSrc srcPtp ∧ s.ptpCarries s.ptpPort ∧ s.clk.reqNext ≤ s.now then
      let peer := s.rd .PTP_DELAY = 1
      { s with clk := { s.clk with ptpSeq := (s.clk.ptpSeq + 1) % 65536, reqAt := some (s.clk.ptpSeq, s.tbp), pdelay := none
                                   reqNext := s.now + 62500000 * 2 ^ s.clk.reqExp } }.sendFrame s.ptpPort frPtp
        (s.ptpFrame s.ptpPort (if peer then ptpPdelayReq else ptpDelayReq) s.clk.ptpSeq (beBytes (if peer then 20 else 10) 0))
    else s)

/-- PTP_TIMEOUT (R367). -/
def execPtpTimeout (s : State) : Host.Outcome State Fault Refusal := .next s.servoTimeout

/-- PPSIN_EDGE (R369). -/
def execPpsinEdge (s : State) : Host.Outcome State Fault Refusal := .next (if s.pwr.asleep then s else s.ppsEdge)

/-- PPSOUT_PULSE (R369). -/
def execPpsoutPulse (s : State) : Host.Outcome State Fault Refusal :=
  .next (if s.rdT .PPSOUT_EN ∧ ¬ s.pwr.asleep ∧ ¬ s.clk.ppsOut ∧ s.ppsDue then
      { s with clk := { s.clk with ppsOut := true, ppsEnd := s.now + s.ppsWidth * 1000 } }.edge (selector 8 0 1)
    else s)

/-- PPSOUT_PULSE_END (R369). -/
def execPpsoutPulseEnd (s : State) : Host.Outcome State Fault Refusal :=
  .next (if s.clk.ppsOut ∧ s.clk.ppsEnd ≤ s.now then { s with clk := { s.clk with ppsOut := false } } else s)

/-- STREAM_ARP_RESOLVED (R380). -/
def execStreamArpResolved (st : Fin 32) (n : Fin 2) (mac : Nat) (s : State) : Host.Outcome State Fault Refusal :=
  .next (if s.rd .STREAM_STATE st = 0 then s else (s.arpLearn n (s.nextHop n st) mac).streamTry st)

/-- STREAM_PACKET_SEND (R379). -/
def execStreamPacketSend (n : Fin 2) (readUe : List Nat) (s : State) : Host.Outcome State Fault Refusal :=
  .next (s.sendPacket n readUe)

end Sys2Proof.Machine
end

