-- ==== Sys2Proof/Machine/Recover.lean ====
section
/-! DEFINITION. Reports at the collector, fences on their way, releases, error lines, and the votes of the collector
(R330 to R356), with the commands that they come by. -/
namespace Sys2Proof.Machine
open Sys2Proof

/-! ### Messages (R330, R350) -/

/-- A GRAVE message that finds the queue with no place left waits at its source (R350). -/
def State.mustWait (s : State) (m : FaultMsg) : Bool :=
  decide (classOf m = .grave) && decide (63 ≤ generals s.flt.queue) && s.flt.queue.any fun x => x.reserved

/-- The first message held at a unit that the intake can accept, and the others in order. -/
def firstReady (wait : FaultMsg → Bool) : List FaultMsg → Option (FaultMsg × List FaultMsg)
  | [] => none
  | m :: l =>
    if wait m then (firstReady wait l).map fun x => (x.1, m :: x.2) else some (m, l)

/-- The intake accepts a message: one that a unit holds, or one that arrives now (R330). -/
def State.acceptReport (s : State) (m : Option FaultMsg) : State :=
  match m with
  | some m =>
    if (srcType m.source).isNone ∨ ¬ knownKind m.kind then s
    else if s.mustWait m then { s with flt := { s.flt with inbox := s.flt.inbox ++ [m] } }
    else s.takeReport m
  | none =>
    match firstReady s.mustWait s.flt.inbox with
    | none => s
    | some (m, l) => { s with flt := { s.flt with inbox := l } }.takeReport m

/-! ### Fence arrival (R337) -/

/-- A group with a partner that stands by announces that it fails: it is held in MUTE until the partner's strobe h, and is isolated then
(R414, R416). The cell has arrived after its 256 ns (DEDUCED, log 17). A handover under way ends (R417). -/
def State.groupFailOut (s : State) (g : Nat) : State :=
  if s.peerGroups.contains g then
    (((s.giveEnd g).push g none .engineFence).sendCell (.groupFail g)).pushAt g 256 .isolate
  else s

/-- The fence of a group's unit arrives: it takes effect at the group's next open strobe; a group without strobes takes
an engine fence's MUTE at a TBA tick (R20, R337). -/
def State.arriveFence (s : State) (us src : Nat) : State :=
  match groupOf src, srcType src with
  | some g, some 0 => s.push g none (.sliceFence (src % 33) us)
  | some g, some 1 => (s.push g none .engineFence).groupFailOut g
  | some g, some 2 => (s.push g none .engineFence).groupFailOut g
  | some g, some 3 => (s.push g none .slideFence).groupFailOut g
  | some g, some 4 => s.groupFailOut g
  | some g, some 20 => ((s.push g none .engineFence).push g none .slideFence).groupFailOut g
  | _, _ => s

/-! ### Releases (R341) -/

/-- The sources that one SEVERE report fenced together with a source (R341). -/
def State.fencedWith (s : State) (src : Nat) : List Nat :=
  let f := s.flt.fenced.get (fun _ => (0, false)) src
  (s.flt.fenced.filter fun p => p.2.1 = f.1).map (·.1)

/-- A release starts: the collector runs the self-tests, and the request waits for them (R341). -/
def State.askRelease (s : State) (l : List Nat) (a : Ans) (mon : Option Nat := none) : State :=
  { s with flt := { s.flt with release := s.flt.release ++ [⟨l, a, mon⟩] } }

/-- A source is released: fence and bucket clear, its first DEADLINE is uncounted again (R31, R335, R341). -/
def State.clearFence (s : State) (k : Nat) : State :=
  { s with flt := { s.flt with fenced := s.flt.fenced.put (fun _ => (0, false)) k (0, false)
                               bucket := s.flt.bucket.put (fun _ => 0) k 0
                               dead1 := s.flt.dead1.filter (· ≠ k) } }

/-- A filter engine starts at the next frame start, its first records with GAP (R184, R194, R341). -/
def State.restartFilt (s : State) (g : Nat) : State :=
  let s := s.modGr g fun r => { r with filt := .stopped, fill := 0, filtStart := some [] }
  s.each (chansOf g) fun s c => s.modAper c fun a => { a with gap := true, samps := [], pre := none, endN := none }

/-- A released unit takes up its work: a filter engine that the host has not stopped restarts (R194, R272, R341, R395). -/
def State.afterRelease (s : State) (k : Nat) : State :=
  match srcType k with
  | some 2 => if k < 0x230 ∧ s.rdT .FILT_RUN (k % 16) then s.restartFilt (k % 16) else s
  | some 12 => if k = srcPtp then s else ((s.holdFrom (k - 0x493)).gratuitous (k - 0x493)).portGained (k - 0x493)
  | some 7 => s.wr .MTX_STATE (k - 0x480) 0 0
  | _ => s

/-- The self-tests of the oldest release end (R341). MON_RESTART has recalibrated its monitor, which `fa` and `fb` say the failed
slices of; two of one converter leave it fenced (R272). -/
def State.releaseDone (s : State) (pass : Bool) (fa fb : Nat) : State :=
  match s.flt.release with
  | [] => s
  | r :: rest =>
    let s := { s with flt := { s.flt with release := rest } }
    let s := match r.mon with | some g => s.monRestored g fa fb | none => s
    let twice := r.mon.isSome && (decide (2 ≤ popcount5 fa) || decide (2 ≤ popcount5 fb))
    if pass && !twice then (s.each r.srcs fun s k => (s.clearFence k).afterRelease k).answer r.ans .OK
    else s.answer r.ans .FENCED

/-- The buckets of every source of a type are zeroed (R335). -/
def State.zeroBuckets (s : State) (t : Nat) : State :=
  { s with flt := { s.flt with bucket := s.flt.bucket.filter fun p => srcType p.1 ≠ some t } }

/-- Every bucket leaks by one µs of TBA (R335). -/
def State.leak (s : State) : State :=
  { s with flt := { s.flt with bucket := (s.flt.bucket.map fun p => (p.1, p.2 - 1)).filter fun p => p.2 ≠ 0 } }

/-- The fault log and its NVM copy are emptied (R353). -/
def State.faultLogClear (s : State) : State :=
  { s with flt := { s.flt with log := [] }, nvm := { s.nvm with flog := [] } }

/-! ### Error lines (R332) -/

/-- A cluster's pair changes (R332). -/
def State.lineChange (s : State) (k pair : Nat) (lasting : Bool) : State :=
  let s := { s with flt := { s.flt with lines := s.flt.lines.put (fun _ => 1) k pair } }
  if pair = 0 ∨ pair = 3 then (if lasting then s.report (srcCluster k) 0x04 0 pair else s)
  else if pair = 2 then
    let t := s.flt.lineMsg.get (fun _ => 0) k
    if t ≠ 0 ∧ s.now ≤ t - 1 + 10000 then s
    else if s.flt.lineWait.contains k then s
    else { s with flt := { s.flt with lineWait := s.flt.lineWait ++ [k] } }
  else s

/-! ### Commands -/

/-- FAULT_REPORT (R330, R334). -/
def execFaultReport (m : Option FaultMsg) (s : State) : Host.Outcome State Fault Refusal := .next (s.acceptReport m)

/-- FENCE_ARRIVAL (R337): the oldest fence under way reaches its group. -/
def execFenceArrival (s : State) : Host.Outcome State Fault Refusal :=
  .next (match s.flt.arriving with
    | [] => s
    | (us, src) :: l => { s with flt := { s.flt with arriving := l } }.arriveFence us src)

/-- TAKEOVER_BLANK_END (R343, R344): the law runs on the spare, and the first record that keeps one of its samples
carries GAP. At ticks of 8 µs and longer, four more samples lie before the end of the blank. -/
def execTakeoverBlankEnd (c : ChanNo) (s : State) : Host.Outcome State Fault Refusal :=
  .next (let h := s.ch c
    if h.taking ∧ h.blank = 0 then
      s.modCh c fun h => { h with taking := false, aper := { h.aper with gapKept := true, hush := if 8 ≤ s.tickUs (grpOf c) then 4 else 0 } }
    else s)

/-- FAULT_LOG_DRAIN (R350, R351). -/
def execFaultLogDrain (s : State) : Host.Outcome State Fault Refusal := .next s.drain

/-- COLLECTOR_VOTE (R349): a disagreement of the three copies enters the safe state at once, and is then logged. -/
def execCollectorVote (disagree : Option Nat) (s : State) : Host.Outcome State Fault Refusal :=
  .next (match disagree with
    | none => s
    | some k =>
      let r : Report := ⟨⟨srcColl, 0x06, 0, k, .grave⟩, .grave, s.stampNow⟩
      (s.safeEntry r).faultLog (logElement r 0 1))

/-- ERROR_LINE_CHANGE (R332). -/
def execErrorLineChange (k : Fin 26) (pair : Fin 4) (lasting : Bool) (s : State) : Host.Outcome State Fault Refusal :=
  .next (s.lineChange k pair lasting)

/-- LINE_ERR_WINDOW_EXPIRY (R332): no coded message has explained the pair. -/
def execLineErrWindowExpiry (k : Fin 26) (s : State) : Host.Outcome State Fault Refusal :=
  .next (if s.flt.lineWait.contains k.val then
      { s with flt := { s.flt with lineWait := s.flt.lineWait.filter (· ≠ k.val) } }.report (srcCluster k) 0x05 0 0
    else s)

/-- UNFENCE_SELFTEST_DONE (R341). -/
def execUnfenceSelftestDone (found : SelftestOut) (s : State) : Host.Outcome State Fault Refusal :=
  .next (s.releaseDone found.pass found.failA found.failB)

end Sys2Proof.Machine
end

