-- ==== Sys2Proof/Machine/Matrix.lean ====
section
/-! DEFINITION. The matrix controller at work (R237 to R255): claims, arbitration, words and echoes, settling, the ledger;
with the events of this family. -/
namespace Sys2Proof.Machine
open Sys2Proof

/-! ### Words (R241, R242) -/

/-- The inverted exclusive OR of the seven nibbles of a 28-bit number (R242). -/
def checkNibble (v : Nat) : Nat := 15 - (List.range 7).foldl (fun a k => a ^^^ bits v (4 * k) 4) 0

/-- A matrix word (Table "Matrix word", R241). -/
def mtxWord (ep op phase tag : Nat) : BitVec 32 :=
  let v := ep % 2 ^ 20 * 256 + op % 8 * 32 + phase % 4 * 8 + tag % 8
  BitVec.ofNat 32 (v * 16 + checkNibble v)

/-- Fields of a matrix word. -/
def wEp (w : BitVec 32) : Nat := bits w.toNat 12 20
def wOp (w : BitVec 32) : Nat := bits w.toNat 9 3

/-! ### Claims (R237 to R240) -/

/-- The status of a claim answered SKIP to a host (R240 step 5). -/
def State.skipStatus (s : State) (c l : Nat) : Status :=
  let m := s.mapEl (c * 2048 + l)
  let fenced (p : Nat) : Bool := bit (s.mapEl p) 15 && !bit (s.ledgerEl p) 3 && s.lineFenced (s.lineOf p)
  if fenced (bits m 44 20) || (bit m 23 && fenced (bits m 24 20)) then .FENCED else .ENDPOINT_RETIRED

/-- Steps 1 to 3 of R240. -/
def State.claimPre (s : State) (c : Nat) : Option Status :=
  if s.latch then some .SAFE_STATE
  else if s.standby (grpOf c) then some .PAIR_STANDBY
  else if (s.ch c).out = .retired then some .FENCED
  else none

/-- Steps 1 to 4 of R240. -/
def State.connectPre (s : State) (c : Nat) : Option Status :=
  (s.claimPre c).orElse fun _ => if (s.ch c).cht.st = .idle then none else some .STATE_CONFLICT

/-- EP_CONNECT at its strobe (R240): the claim is taken, or the held endpoint released. -/
def State.connectAt (s : State) (c : Nat) (l : Option Nat) (a : Ans) : State :=
  match s.connectPre c with
  | some st => s.answer a st
  | none =>
    match l with
    | none => s.releaseEp c a
    | some l => (s.modHold c fun h => { h with want := h.want ++ [(l, a)] }).askClaim c false

/-- The answer to a host's claim (R240), or its status where the channel may no longer connect. -/
def State.claimHost (s : State) (c l : Nat) (a : Ans) : State :=
  match s.claimPre c with
  | some st => s.answer a st
  | none =>
    match s.resolve c l with
    | .granted alt p => (s.setResv p (some c)).connectEp c p alt a
    | .conflict => s.answer a .ENDPOINT_CONFLICT
    | _ => s.answer a (s.skipStatus c l)

/-- The answer to a unit's claim (R207, R237). -/
def State.claimUnit (s : State) (c : Nat) : State :=
  let k := s.resolve c (s.ch c).cht.nu.l
  let s := match k with
    | .granted _ p => s.setResv p (some c)
    | _ => s
  s.modCht c fun t => { t with nu := { t.nu with claim := k } }

/-- The claim of channel c at the head of those waiting is answered (R237, R238). -/
def State.answerClaim (s : State) (c : Nat) : State :=
  match s.mtx.claims with
  | x :: l =>
    if x.ch ≠ c then s
    else
      let s := { s with mtx := { s.mtx with claims := l } }.inc .EP_CLAIMS c
      if x.unit then if (s.ch c).cht.begun ∧ (s.ch c).cht.nu.claim = .asked then s.claimUnit c else s
      else match (s.ch c).hold.want with
      | (l, a) :: rest => (s.modHold c fun h => { h with want := rest }).claimHost c l a
      | [] => s
  | [] => s

/-! ### Ledger (R249 to R254) -/

/-- A confirmed MAKE: one relay cycle, with WARN and RET as it reaches the marks of its rating class (R250, R252). -/
def State.relayCount (s : State) (p : Nat) : State :=
  let n := s.ledgerEl p
  let full := decide (268435455 ≤ ledRelay n + 1)
  let r := if full then 268435455 else ledRelay n + 1
  let rated := s.rdN .RATED_CYCLES 0 (bits (s.mapEl p) 16 4)
  let warn := decide (rated ≠ 0 ∧ rated * 4 ≤ r * 5)
  let ret := decide (rated ≠ 0 ∧ rated ≤ r)
  let newWarn := warn && !bit n 2
  let newRet := ret && !bit n 3
  let s := s.setLedger p (ledMake r (ledBias n) (bit n 3 || ret) (bit n 2 || warn) (if newRet then false else bit n 1) (bit n 0 || full))
  let s := if newWarn then (s.report srcMtx 0x22 p 0).edge (selector 6 0 0) else s
  if newRet then (s.report srcMtx 0x22 p 1).edge (selector 6 0 1) else s

/-- LEDGER_CMD on an endpoint (R253): 1 RETIRE, 2 RESTORE, 3 CLEAR_BIAS. -/
def State.ledgerCmd (s : State) (op p : Nat) : State × Status :=
  if (s.resvBy p).isSome ∨ s.mtx.partner.get (fun _ => 0) p ≠ 0 then (s, .STATE_CONFLICT)
  else
    let n := s.ledgerEl p
    let v := if op = 1 then ledMake (ledRelay n) (ledBias n) true (bit n 2) true (bit n 0)
      else if op = 2 then ledMake 0 (ledBias n) false false true (bit n 0)
      else ledMake (ledRelay n) 0 (bit n 3) (bit n 2) (bit n 1) (bit n 0)
    (s.setLedger p v, .OK)

/-! ### Arbitration (R247, R248) -/

/-- A transaction goes before another (R248): BREAK_ALL first, then EP_PRIO, age, channel. -/
def State.before (s : State) (a b : Txn) : Bool :=
  match a.ch, b.ch with
  | none, none => decide (a.since < b.since)
  | none, some _ => true
  | some _, none => false
  | some c, some d =>
    let p := s.rdN .EP_PRIO c
    let q := s.rdN .EP_PRIO d
    decide (q < p) || (p == q && (decide (a.since < b.since) || (a.since == b.since && decide (c < d))))

/-- A transaction can take the port: a MAKE needs a line of the ledger cache (R254). -/
def State.ready (s : State) (t : Txn) : Bool := t.words.all fun w => w.2.1 != opMake || s.cacheRoom w.1

/-- The transaction that is granted next. -/
def State.chooseTxn (s : State) : Option Txn :=
  (s.mtx.waiting.filter s.ready).foldl (fun m t =>
    match m with
    | none => some t
    | some u => if s.before t u then some t else some u) none

/-- How long a transfer of a matrix word takes, in ns, by the settings with which the transaction began (R241, R387, R390). -/
def Matrix.wordNs (m : Matrix) : Nat :=
  let t := 10 * bits m.cfg 16 8
  5 * m.lead + 32 * (if bit m.cfg 4 then t / 2 else t) + 5 * m.lag

/-- The transaction that holds SP0 has waited `ns` more for it (R248, R392). -/
def State.sp0Waited (s : State) (ns : Nat) : State :=
  let n := s.mtx.waited + ns
  let s := { s with mtx := { s.mtx with waited := n } }
  if s.rdN .SP0_WAIT_MAX < n / 1000 then s.wr .SP0_WAIT_MAX 0 0 (clampI 0 4294967295 (n / 1000 : Nat)) else s

/-- A word leaves on SP0, and is counted (R241, R244). The transfer ends `later` ns from now: a break is timed from the end of
its word (R246). -/
def State.sendWord (s : State) (line : Nat) (w : BitVec 32) (later : Nat) : State :=
  let s := (s.send (.sp0 line w)).inc .MTX_WORDS line
  let s := { s with mtx := { s.mtx with await := some w } }
  match s.mtx.cur.bind (·.ch) with
  | some c =>
    if wOp w = opBreak then
      s.modHold c fun h => { h with old := h.old.map fun x => if x.1 = wEp w then (x.1, some (s.now + later)) else x }
    else s
  | none => s

/-- A new word of the transaction leaves, with the next tag of its line (R241). -/
def State.sendNew (s : State) (t : Txn) (ep op phase : Nat) (rest : List (Nat × Nat × Nat)) (later : Nat) : State :=
  let tag := s.mtx.tag.get (fun _ => 0) t.line
  let w := mtxWord ep op phase tag
  let s := { s with mtx := { s.mtx with tag := s.mtx.tag.put (fun _ => 0) t.line ((tag + 1) % 8)
                                        cur := some { t with words := rest }, sent := s.mtx.sent ++ [({ w := w } : Word1)] } }
  s.sendWord t.line w later

/-- The next transfer of the transaction (R243, R244): a word to send again, the next unsent word, or the closing NOP once
more, which collects the last echo and keeps its tag (R241; DEDUCED, log 31). -/
def State.transfer (s : State) (t : Txn) (later : Nat) : State :=
  match s.mtx.again with
  | w :: l => { s with mtx := { s.mtx with again := l } }.sendWord t.line w later
  | [] =>
    match t.words with
    | (ep, op, ph) :: rest => s.sendNew t ep op ph rest later
    | [] =>
      match s.mtx.sent.find? fun x => wOp x.w == opNop with
      | some x => s.sendWord t.line x.w later
      | none => s.sendNew t 0 opNop 0 [] later

/-- SP0 is free and goes to the transaction of highest rank (R248). One whose line is fenced fails without a word. This grant is the one
that loads the ledger lines of its makes (R254; DEDUCED, log 89). -/
def State.mtxTake (s : State) : State :=
  match s.chooseTxn with
  | none => s
  | some t =>
    let s := { s with mtx := { s.mtx with
      waiting := s.mtx.waiting.erase t, cur := some t, start := s.now, sent := [], again := [], await := none, collisions := 0, first := true
      waited := 0, cfg := s.rdN .SEL_CFG t.line, lead := s.rdN .SEL_LEAD t.line, lag := s.rdN .SEL_LAG t.line } }
    let s := (s.sp0Waited (s.now - t.since)).modSp 0 fun x => { x with busBusy := false }
    if (s.lineFenced t.line && !t.restart) || s.fencedSrc srcMtx || s.fencedSrc (srcSp 0) then
      let eps := s.txnEps t
      let s := { s with mtx := { s.mtx with cur := none } }
      match t.ch with
      | some c => s.failChannel c eps
      | none => if t.restart then s.answer t.ans .FENCED else s.breakAllOver
    else
      let s := s.each (t.words.filter fun w => w.2.1 = opMake) fun s w => s.loadLine w.1
      (s.modSp 0 fun x => { x with mastering := true }).transfer t s.mtx.wordNs

/-- A MAKE waits for a line of a ledger cache whose every clean line is taken: Drone commits on demand (R254). -/
def State.commitDemand (s : State) : State :=
  if s.mtx.committing.isSome ∨ s.mtx.waiting.all s.ready then s else s.commitStart []

/-- SP0 is arbitrated (R248). As multi-master the port waits for the idle condition first (R392), and before the base configuration and
in deep sleep it drives nothing (R385). -/
def State.mtxGrant (s : State) : State :=
  let s := s.commitDemand
  if s.mtx.cur.isSome ∨ ¬ s.sp0.on then s
  else if s.sp0.role = 1 ∧ s.chooseTxn.isSome ∧ ¬ s.fencedSrc (srcSp 0) then s.modSp 0 fun x => { x with busBusy := true }
  else s.mtxTake

/-! ### Echoes (R243, R244) -/

/-- A word confirmed by its echo: a MAKE counts once (R250). -/
def State.confirm (s : State) (w : BitVec 32) : State :=
  match s.mtx.sent.find? fun x => x.w = w with
  | none => s
  | some x =>
    let s := { s with mtx := { s.mtx with sent := s.mtx.sent.map fun (y : Word1) => if y.w = w then { y with ok := true, busy := 0 } else y } }
    if x.ok ∨ wOp w ≠ opMake then s
    else
      let s := s.relayCount (wEp w)
      match s.mtx.cur.bind (·.ch) with
      | some c => if s.sharesResv c then s.shareResv c (.confirmedMake (Fin.ofNat 16 (grpOf c)) (wEp w)) else s
      | none => s

/-- The echo of a word was wrong (R244): sent again at most 3 times; false where the word has failed. -/
def State.wrongEcho (s : State) (line : Nat) (w : BitVec 32) (busy : Bool) : State × Bool :=
  match s.mtx.sent.find? fun x => x.w = w with
  | none => (s, true)
  | some x =>
    let put (s : State) (y : Word1) : State :=
      { s with mtx := { s.mtx with sent := s.mtx.sent.map fun (z : Word1) => if z.w = w then y else z, again := s.mtx.again ++ [w] } }
    if busy then
      let s := s.inc .MTX_BUSY line
      if s.rdN .MTX_BUSY_MAX < x.busy + 1 then (s, false) else (put s { x with busy := x.busy + 1 }, true)
    else if 3 ≤ x.resends then (s, false)
    else (((put s { x with resends := x.resends + 1, busy := 0 }).inc .MTX_RESENDS line).report (srcLine line) 0x21 (wEp w)
      (x.resends + 1) .transient, true)

/-- The transaction has ended with its NOP (R243, R246). -/
def State.txnDone (s : State) (t : Txn) : State :=
  let made := s.mtx.sent.any fun x => wOp x.w == opMake
  let start := s.mtx.start
  let s := { s with mtx := { s.mtx with cur := none, sent := [], again := [], await := none, collisions := 0 } }
  let s := s.spEnd 0
  match t.ch with
  | some c => if made then s.modHold c fun h => { h with makeFrom := some start } else s
  | none =>
    if t.restart then
      let s := s.endLine t.line
      if s.fencedSrc (srcLine t.line) then s.askRelease (s.fencedWith (srcLine t.line)) t.ans else s.answer t.ans .OK
    else s.breakAllOver

/-- A strobe error on a port (R389). -/
def State.strobeError (s : State) (n line : Nat) : State :=
  ((s.modSp n fun x => { x with strobeErr := true }).inc .SP_STROBE_ERRS n).report (srcSp n) 0x32 0 line .transient

/-- A transfer of SP0 has completed; `ok` is false where the returned strobe gave no valid reply (R389, R402). -/
def State.sp0Word (s : State) (line : Nat) (ok : Bool) : State :=
  let s := (s.inc .SEL_WORDS line).inc .SP_WORDS 0
  if ok then s else s.strobeError 0 line

/-- The first transfer since the start or restart of a transaction, which brings no echo (R244, R389, R402). -/
def State.sp0First (s : State) (line : Nat) (ok : Bool) : State :=
  if s.mtx.first then { s with mtx := { s.mtx with first := false } }.sp0Word line ok else s

/-- One transfer of the transaction: it carries the next word, and brings the echo of the word before (R244). The returned strobe
counts where the select uses it (R389). -/
def State.mtxEcho (s : State) (echo : BitVec 32) (x : StrobeIn) : State :=
  match s.mtx.cur, s.mtx.await with
  | some t, some w =>
    let rstb := bit s.mtx.cfg 3
    let ok := x.ok || !rstb
    let s := (s.sp0First t.line (x.firstOk || !rstb)).sp0Word t.line ok
    let s := s.transfer t 0
    let (s, good) := if wOp w = opNop then (s, true)
      else if ok ∧ echo = w then (s.confirm w, true)
      else s.wrongEcho t.line w (ok && echo == 0x5A5A5A5A#32)
    if !good then s.txnFail (wEp w)
    else
      match s.mtx.cur, s.mtx.await with
      | some t, some w' => if wOp w' = opNop ∧ s.mtx.again.isEmpty ∧ t.words.isEmpty then s.txnDone t else s
      | _, _ => s
  | _, _ => s

/-- A collision restarts the transaction from its first word, with the tags it had; the third fails it (R393, R394). `whole` tells that
a first transfer not yet counted had completed. -/
def State.mtxCollide (s : State) (whole : Bool) : State :=
  match s.mtx.cur with
  | none => s
  | some t =>
    let s := if whole then s.sp0First t.line true else s
    let n := s.mtx.collisions + 1
    if 3 ≤ n then s.txnFail ((s.mtx.sent.head?.map fun x => wEp x.w).getD 0)
    else
      { s with mtx := { s.mtx with collisions := n, again := s.mtx.sent.map fun (x : Word1) => x.w, await := none, first := true
                                   start := s.now } }.modSp 0 fun x => { x with busBusy := true, mastering := false }

/-- SP0 has become idle after a collision: the transaction starts again (R394). -/
def State.mtxRestart (s : State) : State :=
  match s.mtx.cur with
  | some t =>
    if s.sp0.busBusy ∧ ¬ s.sp0.mastering then
      let s := s.sp0Waited (s.now - s.mtx.start)
      let s := { s with mtx := { s.mtx with start := s.now } }
      (s.modSp 0 fun x => { x with busBusy := false, mastering := true }).transfer t s.mtx.wordNs
    else s
  | none => if s.sp0.busBusy ∧ s.sp0.on then (s.modSp 0 fun x => { x with busBusy := false }).mtxTake else s

/-! ### Settling (R239, R246) -/

/-- A transaction of channel c is under way or waits. -/
def State.txnOf (s : State) (c : Nat) : Bool :=
  (match s.mtx.cur with | some t => t.ch == some c | none => false) || s.mtx.waiting.any fun t => t.ch == some c

/-- The break of an endpoint is confirmed and has had its time (R244, R246). -/
def State.breakDue (s : State) (x : Nat × Option Nat) : Bool :=
  match x.2 with
  | some t => !(s.mtx.sent.any fun w => wOp w.w == opBreak && wEp w.w == x.1 && !w.ok) && decide (t + s.rdN .MTX_BREAK (s.lineOf x.1) * 100 ≤ s.now)
  | none => false

/-- A break has settled (R239, R245, R246): the old endpoint's reservation ends, and the second transaction of a change
across select lines enters arbitration. -/
def State.breakDone (s : State) (c : Nat) : State :=
  let h := (s.ch c).hold
  match h.old.find? s.breakDue with
  | none => s
  | some x =>
    ((s.modHold c fun h => { h with old := h.old.erase x }).freeResv c x.1).makeNext c

/-- A connection has settled (R246). -/
def State.makeDone (s : State) (c : Nat) : State :=
  let h := (s.ch c).hold
  match h.ep, h.coming, h.makeFrom with
  | some p, some q, some t =>
    if p ≠ q ∨ s.txnOf c ∨ s.now < t + s.rdN .MTX_SETTLE (s.lineOf p) * 100 then s
    else (s.modHold c fun h => { h with coming := none, makeFrom := none }).holdAnswer c
  | _, _, _ => s

/-! ### Commits (R254, R437) -/

/-- A commit has completed once every page of it is verified: the logs are copied with it, and the requests that waited are answered
(R254, R353, R437). -/
def State.commitDone (s : State) : State :=
  match s.mtx.committing with
  | some [] =>
    let a := s.mtx.commitAns
    let more := s.mtx.commitMore
    let s := { s with mtx := { s.mtx with committing := none, commitAns := [], commitMore := false } }
    let s := (s.copyLogs.wr .LEDGER_LAST 0 0 s.stampNow).answers a .OK
    if more then s.commitStart [] else s
  | _ => s

/-! ### Commands -/

/-- CLAIM_ANSWER (R237, R238). -/
def execClaimAnswer (c : ChanNo) (s : State) : Host.Outcome State Fault Refusal := .next (s.answerClaim c)

/-- MATRIX_GRANT (R248). -/
def execMatrixGrant (s : State) : Host.Outcome State Fault Refusal := .next s.mtxGrant

/-- MATRIX_WORD_ECHO (R244). -/
def execMatrixWordEcho (echo : BitVec 32) (strobe : StrobeIn) (s : State) : Host.Outcome State Fault Refusal :=
  .next (s.mtxEcho echo strobe)

/-- BREAK_SETTLED (R246). -/
def execBreakSettled (c : ChanNo) (s : State) : Host.Outcome State Fault Refusal := .next (s.breakDone c)

/-- CONNECTION_SETTLED (R246). -/
def execConnectionSettled (c : ChanNo) (s : State) : Host.Outcome State Fault Refusal := .next (s.makeDone c)

/-- LEDGER_COMMIT_PERIODIC (R254, R425, R437): every 60 s on its own schedule, once no commit runs; and 1 s after the start of a commit
that requests wait behind. -/
def execLedgerCommitPeriodic (s : State) : Host.Outcome State Fault Refusal :=
  .next (if !s.droneUp || s.mtx.committing.isSome then s
    else if !s.mtx.commitNext.isEmpty && decide (s.mtx.commitAt + 1000000000 ≤ s.now) then
      let a := s.mtx.commitNext
      { s with mtx := { s.mtx with commitNext := [] } }.commitStart a
    else if s.drn.dueLed ≤ s.now then
      let s := s.started .DRN_LATE_LEDGER s.drn.dueLed 5000000000
      { s with drn := { s.drn with dueLed := s.drn.dueLed + 60000000000 } }.commitStart []
    else s)

/-- LEDGER_COMMIT_DONE (R254). -/
def execLedgerCommitDone (s : State) : Host.Outcome State Fault Refusal := .next s.commitDone

end Sys2Proof.Machine
end

