-- ==== Sys2Proof/Machine/Serial.lean ====
section
/-! DEFINITION. The serial ports (R384 to R402): SP1's list, polls and mailbox, the slave, and collisions; with the events
of this family. -/
namespace Sys2Proof.Machine
open Sys2Proof

/-- The busy pattern of a word length: the first bits of the repeating 0101 1010 (R397). -/
def busyPattern (wlen : Nat) : Nat := 0x5A5A5A5A / 2 ^ (32 - wlen)

/-- SP1 may master: not fenced, not slave only (R391, R399, R401). -/
def State.sp1Role (s : State) : Option Status :=
  match s.fenceStatus (srcSp 1) with
  | some st => some st
  | none => if s.sp1.role = 2 then some .STATE_CONFLICT else none

/-- A list that cannot run has result 3: a GO answers BAD_VALUE, a poll is skipped (R400; DEDUCED, log 47). -/
def State.sp1Not (s : State) (poll : Bool) (a : Ans) : State :=
  let s := s.wr .SP1_RESULT 0 0 3
  if poll then s.inc .SP1_POLL_SKIPS else s.answer a .BAD_VALUE

/-- The list starts, once the bus is idle, with the words staged then and the SEL_CFG of its select (R390, R392, R399, R400). -/
def State.sp1Master (s : State) : State :=
  let s := s.modSp 1 fun x => { x with busBusy := false }
  match s.mbox.list with
  | some (sel, _, a) =>
    if !s.listOk sel then ({ s with mbox := { s.mbox with list := none } }.spEnd 1).sp1Not s.mbox.poll a
    else
      let ws := blobWords (s.rdV .SP1_TX).blob
      ({ s with mbox := { s.mbox with list := some (sel, ws, a), sel := sel, cfg := s.rdN .SEL_CFG (8 + sel) } }.send (.sp1 sel ws)).modSp 1
        fun x => { x with mastering := true }
  | none => s

/-- A list is to start on a select (R399): in role 1 it waits for the idle bus (R392). -/
def State.sp1Start (s : State) (sel : Nat) (poll : Bool) (a : Ans) : State :=
  if !s.listOk sel then s.sp1Not poll a
  else
    let s := { s with mbox := { s.mbox with list := some (sel, blobWords (s.rdV .SP1_TX).blob, a), poll := poll } }
    if s.sp1.role = 1 then s.modSp 1 fun x => { x with busBusy := true } else s.sp1Master

/-- GOs that wait start in order as the port becomes free (R399). -/
def sp1NextGo : List (Nat × Ans) → State → State
  | [], s => s
  | (sel, a) :: l, s =>
    let s := { s with mbox := { s.mbox with goWait := l } }
    match s.sp1Role with
    | some st => sp1NextGo l (s.answer a st)
    | none =>
      let s := s.sp1Start sel false a
      if s.mbox.list.isSome then s else sp1NextGo l s

/-- The bus of SP1 has become idle: the list that waited starts, or the next GO behind one that no longer can (R392, R399). -/
def State.sp1Idle (s : State) : State :=
  let s := s.sp1Master
  if s.mbox.list.isNone then sp1NextGo s.mbox.goWait s else s

/-- SP1_GO at its execution (R399, R400): refused, started, or waiting for the list that runs. -/
def State.sp1Go (s : State) (sel : Nat) (a : Ans) : State :=
  match s.sp1Role with
  | some st => s.answer a st
  | none =>
    if s.mbox.list.isSome then { s with mbox := { s.mbox with goWait := s.mbox.goWait ++ [(sel, a)] } }
    else s.sp1Start sel false a

/-- A poll falls due (R399, R400): one that finds a list running is skipped. In the quiesce phase of deep sleep entry and after it none
starts (R401). -/
def State.sp1PollDue (s : State) : State :=
  if s.sp1Role.isSome ∨ ¬ s.sp1.on ∨ 2 ≤ s.pwr.entry then s
  else if s.mbox.list.isSome then s.inc .SP1_POLL_SKIPS
  else s.sp1Start (s.rdN .SP1_POLL_SEL) true none

/-- A list ends (R399, R400): its result, the replies of the transfers that completed, and the time. -/
def State.sp1End (s : State) (result : Nat) (replies : List Nat) : State :=
  match s.mbox.list with
  | none => s
  | some (sel, ws, a) =>
    let wlen := bits s.mbox.cfg 8 6
    let rs := (replies.take ws.length).map fun r => r % 2 ^ wlen
    let busy := (rs.filter fun r => r = busyPattern wlen).length
    let s := { s with mbox := { s.mbox with list := none } }.spEnd 1
    let s := (s.wr .SP1_RESULT 0 0 result).wrV .SP1_RX 0 0 (.bytes (rs.flatMap fun r => beBytes 4 r))
    let s := s.wr .SP1_RX_TIME 0 0 s.stampNow
    let s := ((s.inc .SP_WORDS 1 rs.length).inc .SEL_WORDS (8 + sel) rs.length).inc .SP_BUSY_RX 1 busy
    let s := s.answer a .OK
    sp1NextGo s.mbox.goWait s

/-- A collision on a port that masters (R393, R394, R400). -/
def State.collide (s : State) (n line : Nat) (replies : List Nat) : State :=
  if !(s.sp n).mastering then s
  else
    let s := ((s.modSp n fun x => { x with mmFault := true }).inc .SP_COLLISIONS n).report (srcSp n) 0x32 0 line .transient
    if n = 0 then s.mtxCollide (!replies.isEmpty) else s.sp1End 1 replies

/-- The slave's select is asserted (R395, R397). -/
def State.slaveSelect (s : State) : State :=
  if s.rd .SP1_SLAVE_SEL = 0xFF ∨ s.sp1.role = 0 ∨ s.fencedSrc (srcSp 1) ∨ s.sp1.mastering ∨ ¬ s.sp1.on then s
  else
    let sel := s.rdN .SP1_SLAVE_SEL
    let wlen := s.sp1Wlen sel
    let s := { s with mbox := { s.mbox with sel := sel, cfg := s.rdN .SEL_CFG (8 + sel) } }.modSp 1 fun x => { x with slave := true }
    match s.mbox.txq with
    | w :: _ => { s with mbox := { s.mbox with reply := some (w % 2 ^ wlen), fromQueue := true } }
    | [] => { s with mbox := { s.mbox with reply := some (busyPattern wlen), fromQueue := false } }

/-- A transfer in the slave role has ended (R391, R395): a list that waits to master keeps the role it waits in. -/
def State.slaveEnd (s : State) : State :=
  if s.mbox.list.isSome then s.modSp 1 fun x => { x with slave := false } else s.spEnd 1

/-- A word completes in the slave role (R398). -/
def State.slaveDone (s : State) (w : Nat) : State :=
  match s.mbox.reply with
  | none => s
  | some r =>
    let sel := s.mbox.sel
    let w := w % 2 ^ bits s.mbox.cfg 8 6
    let q := if s.mbox.fromQueue then s.mbox.txq.drop 1 else s.mbox.txq
    let full := decide (64 ≤ s.mbox.rxq.length)
    let s := { s with mbox := { s.mbox with txq := q, reply := none, fromQueue := false
                                            rxq := if full then s.mbox.rxq else s.mbox.rxq ++ [w] } }
    let s := (s.send (.spBack r)).slaveEnd
    let s := if full then s.inc .SP1_MB_OVF else s
    (s.inc .SP_WORDS 1).inc .SEL_WORDS (8 + sel)

/-- A word is cut by its select (R396): the reply stays at the head of its queue. -/
def State.slaveCut (s : State) : State :=
  match s.mbox.reply with
  | none => s
  | some _ =>
    ({ s with mbox := { s.mbox with reply := none, fromQueue := false } }.slaveEnd).inc .SP_PARTIAL 1

/-- SP1_MB_TX (R398). -/
def State.mailboxPut (s : State) (ws : List Nat) : State × Status :=
  if 64 < s.mbox.txq.length + ws.length then (s, .STATE_CONFLICT)
  else ({ s with mbox := { s.mbox with txq := s.mbox.txq ++ ws } }, .OK)

/-- SP_RESTART (R341, R401): the self-test and the release of the port's fence. -/
def State.spRestartReq (s : State) (n : Nat) (a : Ans) : State :=
  if s.fencedSrc (srcSp n) then s.askRelease (s.fencedWith (srcSp n)) a else s.answer a .OK

/-! ### Commands -/

/-- SP_BUS_IDLE (R392, R394): the waiting transaction starts. -/
def execSpBusIdle (n : Fin 2) (s : State) : Host.Outcome State Fault Refusal :=
  .next (if n.val = 0 then s.mtxRestart
    else if s.sp1.busBusy ∧ ¬ s.sp1.slave then s.sp1Idle else s)

/-- SP_COLLISION (R393). -/
def execSpCollision (n : Fin 2) (line : Fin 8) (replies : List Nat) (s : State) : Host.Outcome State Fault Refusal :=
  .next (s.collide n line replies)

/-- SLAVE_SELECT_ASSERT (R397). -/
def execSlaveSelectAssert (s : State) : Host.Outcome State Fault Refusal := .next s.slaveSelect

/-- SLAVE_WORD_COMPLETE (R398). -/
def execSlaveWordComplete (w : Nat) (s : State) : Host.Outcome State Fault Refusal := .next (s.slaveDone w)

/-- SLAVE_PARTIAL (R396). -/
def execSlavePartial (s : State) : Host.Outcome State Fault Refusal := .next s.slaveCut

/-- SP1_POLL (R399): at frame-grid microsecond m. -/
def execSp1Poll (m : Nat) (s : State) : Host.Outcome State Fault Refusal :=
  .next (if s.rd .SP1_POLL ≠ 0 ∧ (m : Int) % s.rd .SP1_POLL = 0 then s.sp1PollDue else s)

/-- SP1_LIST_END (R399). -/
def execSp1ListEnd (replies : List Nat) (strobeErr : Bool) (s : State) : Host.Outcome State Fault Refusal :=
  .next (match s.mbox.list with
    | some (sel, _, _) =>
      if !s.sp1.mastering then s
      else if strobeErr && bit s.mbox.cfg 3 then (s.strobeError 1 sel).sp1End 2 replies
      else s.sp1End 0 replies
    | none => s)

end Sys2Proof.Machine
end

