-- ==== Sys2Proof/Machine/Tick.lean ====
section
/-! DEFINITION. The frame start and the group tick (R18 to R31, R80, R113 to R134, R164 to R174, R194): samples, laws, and
the closing of staging; with the commands of this family. -/
namespace Sys2Proof.Machine
open Sys2Proof

/-! ### Frame starts (R18, R19, R134, R194) -/

/-- Frames run: the boot has ended and the device is awake (R18, R460). -/
def State.framesRun (s : State) : Bool := s.pwr.stage == 5 && !s.pwr.asleep

/-- The stages of a modulator's filter, empty again (R194; DESIGN CHOICE, log 2). An overload stays as it is. -/
def Filt.emptied (f : Filt) : Filt := { ovl := f.ovl }

/-- The filter engine of a group starts FILLING at this frame start, at the tick rate last written (R39, R194): no record to repeat,
and no state of a threshold event, stands from before (R179, R185). -/
def State.filtBegin (s : State) (g : Nat) (a : List Ans) : State :=
  let s := s.modGr g fun r => { r with filt := .filling, fill := 0, filtStart := none, rate := s.rdN .TICK_RATE g }
  let s := s.each (List.range 33) fun s p =>
    s.modSl (srcSlice g p) fun x => { x with fv := x.fv.emptied, fi := x.fi.emptied }
  let s := s.each (chansOf g) fun s c => s.modAper c fun a =>
    { a with lastV := 0, lastVr := 0, lastI := 0, lastIr := 0, tevInitV := false, tevInitI := false }
  s.answers a .OK

/-- The control engine of a group starts at this frame start with every law state at 0 (R134). -/
def State.ctlBegin (s : State) (g : Nat) (a : List Ans) : State :=
  let s := s.modGr g fun r => { r with ctl := true, ctlStart := none }
  let s := s.each (chansOf g) fun s c => s.modCh c fun h =>
    { h with run := { v := h.run.v, i := h.run.i }, old := {} }
  s.answers a .OK

/-- A frame start of a group at frame-grid microsecond `us` (R18, R20, R194). -/
def State.groupFrame (s : State) (g us : Nat) : State :=
  let s := if (s.gr g).powered ∧ s.tb g = 1 then s.setTb g 2 else s
  if !s.strobes g then s
  else
    let s := s.modGr g fun r => { r with ticks := us }
    let r := s.gr g
    let s := match r.filt, r.filtStart with
      | .stopped, some a => s.filtBegin g a
      | .filling, _ => s.modGr g fun r => { r with fill := r.fill + 1 }
      | _, _ => s
    match (s.gr g).filt, (s.gr g).ctlStart with
    | .running, some a => s.ctlBegin g a
    | _, _ => s

/-- A frame start: the count, its TBP stamp, and what waits for it (R18, R19). While TBP is lost the stamps run free
(Table "Timebase loss"). -/
def State.frame (s : State) : State :=
  let stamp : Int := if s.tb tbP = 2 ∧ ¬ s.fencedSrc srcPtp then s.tbp else s.clk.stamp + 32000
  let us := 32 * s.clk.frames
  let s := { s with clk := { s.clk with frames := s.clk.frames + 1, stamp := stamp, stampWas := s.clk.stamp } }
  s.each allGroups fun s g => s.groupFrame g us

/-! ### Samples of a tick (R164 to R174) -/

/-- What a slice delivers in a tick: record-path samples of V and I, each with whether it is a substitute, the loop samples,
and the slice's clamp or limiter action. -/
structure TickData where
  v : List (Int × Bool)
  i : List (Int × Bool)
  lv : Int
  li : Int
  act : Bool

/-- The channel whose settings a slot samples with: the one whose home it is; of the spare, the one that it carries, takes over, or
carried last (R15, R164; DESIGN CHOICE, log 78). -/
def State.slotChan (s : State) (g p : Nat) : Nat := if p < 32 then 32 * g + p else 32 * g + (s.gr g).spareFor

/-- Place of slot p's sample of frame-grid microsecond `us` on the frame grid, in quarters of a ns (R164). -/
def gridAt (us p : Nat) : Nat := 4000 * us + 125 * p

/-- How the stages of slot p take the samples around the latest strobe (R140, R146, R147): of V, and of I. -/
def State.turnOf (s : State) (g p : Nat) : Turn × Turn :=
  let c := s.slotChan g p
  let k := srcSlice g p
  let vr := s.rdN .V_RANGE c
  let ir := s.rdN .I_RANGE c
  let (num, den) := s.resRatio c k
  let newV := calV (s.effAt k vr)
  let newI := calI (s.effAt k (ir + 3)) num den
  match (s.ch c).aper.pre with
  | some y =>
    let n := preOuts p + 1
    let cv (z : Int) : Int := sat24 (convWide false z y.vr vr)
    (⟨n, calV (s.effAt k y.vr), newV, cv, cv⟩,
     ⟨n, calI (s.effAt k (y.ir + 3)) y.num y.den, newI, fun z => sat24 (convWide true z y.ir ir),
      fun z => if y.ir = ir then z else sat24 (roundEven (z * (y.num * den)) (y.den * num))⟩)
  | none => (⟨0, newV, newV, id, id⟩, ⟨0, newI, newI, id, id⟩)

/-- One slot's modulators pass the filter stages (R165 to R171). The samples of the tick are those up to frame-grid microsecond `us`.
-/
def State.feedSlot (s : State) (g us : Nat) (x : SlotIn) : State × TickData :=
  let k := srcSlice g x.slot
  let (tv, ti) := s.turnOf g x.slot
  let rate := (s.gr g).rate
  let first := gridAt (us + 1 - s.tickUs g) x.slot
  let (fv, v, lv) := feed rate (s.recTaps g) (s.loopTaps g) first x.v tv (s.sl k).fv
  let (fi, i, li) := feed rate (s.recTaps g) (s.loopTaps g) first x.i ti (s.sl k).fi
  (s.modSl k fun y => { y with fv := fv, fi := fi }, { v := v, i := i, lv := lv, li := li, act := x.act })

/-- Every slot of a tick, the spare's too, in slot order as they are brought; the results by slice position (R15, R164). -/
def State.feedAll (s : State) (g us : Nat) : List SlotIn → State × List (Nat × TickData)
  | [] => (s, [])
  | x :: l =>
    let (s, d) := s.feedSlot g us x
    let (s, ds) := s.feedAll g us l
    (s, (x.slot, d) :: ds)

/-- The j-th record-path sample of a channel in a tick that begins at `us` (R172, R178): none of a slice that delivers
nothing. -/
def State.sampleJ (s : State) (c us j : Nat) (x : SampCtx) (d : Option TickData) (miss : Bool) : State :=
  if !x.run then s
  else match d with
    | some d =>
      let (v, sv) := d.v.getD j (0, false)
      let (i, si) := d.i.getD j (0, false)
      s.sample c (us + j) x v i (sv || si) (decide (j < d.v.length ∧ j < d.i.length)) d.act miss
    | none => s.sample c (us + j) x 0 0 false false false miss

/-- The first sample of a tick where it belongs before the latest strobe, and the end of the grid that it belongs to (R172). -/
def State.samplePre (s : State) (c us : Nat) (d : Option TickData) (miss : Bool) : State :=
  let a := (s.ch c).aper
  let s := match s.preOf c with
    | some x => s.sampleJ c us 0 x d miss
    | none => s
  let s := s.modAper c fun a => { a with pre := none }
  match a.endN with
  | some n => s.endGrid c n
  | none => s

/-- The record-path samples of a channel in a tick of K microseconds (R172, R178). -/
def State.sampleTick (s : State) (c us K : Nat) (d : Option TickData) (miss : Bool) : State :=
  let first := if (s.preOf c).isSome then 1 else 0
  let s := s.samplePre c us d miss
  s.each ((List.range K).drop first) fun s j =>
    let x := s.sampCtx c
    (s.sampleJ c us j x d miss).modAper c (Aper.sampled (s.pos c))

/-- Limiter actions of the tick period that has ended, whatever the engines do (R80). -/
def State.limiters (s : State) (g : Nat) (slots : List SlotIn) : State :=
  s.each (chansOf g) fun s c =>
    let act := (s.ch c).out != .retired && slots.any fun x => x.slot == s.pos c && x.act
    let s := s.modCh c fun h => { h with act := act }
    if act then s.inc .DRV_LIMIT_TICKS c else s

/-- The loop sample of a channel, and the events on loop samples (R168, R185). -/
def State.loopTick (s : State) (c us : Nat) (d : TickData) (miss : Bool) : State :=
  let s := s.modCh c fun h => { h with v := d.lv, i := d.li }
  s.tevBoth c us false miss d.lv d.li

/-! ### Laws of a tick (R113 to R129) -/

/-- The OFF ramp reference of the next law: its start value first, then moved toward 0 by OFF_SLEW × tick period (R128). -/
def State.rampMove (s : State) (c : Nat) (r : LawRun) : LawRun :=
  match r.ramp with
  | none => r
  | some x =>
    if !r.rampOn then { r with rampOn := true }
    else
      let d : Int := s.rd .OFF_SLEW c * s.tickUs (grpOf c) * (2 ^ 23 * 25000000 / spanV (s.rdN .V_RANGE c))
      { r with ramp := some (if x < 0 then (if x + d < 0 then x + d else 0) else if 0 < x - d then x - d else 0) }

/-- A held tick of a channel: its law stays as it was (R129, R343). -/
def State.heldTick (s : State) (c : Nat) : State :=
  (s.countHeld c).modCh c fun h => { h with run := { h.run with ran := false, staged := none, sel := 3 } }

/-- The law of a channel in a tick (R113 to R122). A bumpless load that waits takes the place of the law (R129): no law moves the
ramp reference, and the tick counts neither as a limit tick nor as a free one (DEDUCED, log 72). -/
def State.evalLaw (s : State) (c : Nat) : State :=
  match (s.ch c).run.load with
  | some q =>
    let (p, d) := s.lawPar c
    s.modCh c fun h =>
      { h with run := { h.run with law := bumplessQ p h.v h.i q h.run.law, load := none, ran := false, staged := none, sel := 3
                                   declHit := d } }
  | none =>
    let s := s.modCh c fun h => { h with run := s.rampMove c h.run }
    let h := s.ch c
    let (p, d) := s.lawPar c
    let o := lawStep p h.v h.i (kpAdjust p (p.errs h.v h.i) h.run.law)
    s.modCh c fun h =>
      { h with run := { h.run with law := o.law, sat := o.sat, declHit := d, sel := o.sel, ran := true, staged := some o.code
                                   limit := o.sel != 0 || (p.fi && d) || o.sat || h.act } }

/-- The compliance comparison of a channel in MUTE (R101, R127); none where a hold for calibration leaves no live sample (R322). -/
def State.muteTick (s : State) (c : Nat) : State :=
  let h := s.ch c
  let (p, d) := s.lawPar c
  let y : Int := ((p.roles h.v h.i).2.natAbs : Nat)
  let over_ := !(h.calHold && h.calMeas) && (decide (p.lim < y) ||
    (p.fi && (match s.decl c with | some d => decide (d < (h.i.natAbs : Int)) | none => false)))
  s.modCh c fun h =>
    { h with run := { h.run with ran := false, staged := none, sel := 3, declHit := d
                                 excur := if over_ then h.run.excur + 1 else 0 } }

/-- The control engine's work for a channel in a tick (R113, R118). What it leaves can be discarded at clock 48 (R29). The
increment that R147 omits is that of this tick alone; a takeover blank counts down whether laws run or not (R343). -/
def State.chanLaw (s : State) (c : Nat) : State :=
  let s := s.modCh c fun h =>
    { h with old := h.run, held := false, heldBit := false, aper := { h.aper with arUpWas := h.aper.arUp, arDnWas := h.aper.arDn } }
  let h := s.ch c
  let quiet := h.taking || h.blank != 0
  let s := if quiet then s.modCh c fun h => { h with blank := h.blank - 1 } else s
  let loop := h.run.ramp.isSome || (h.out.loop && h.rampEnd.isNone)
  let idle (s : State) : State := s.modCh c fun h =>
    { h with run := { h.run with ran := false, staged := none, sel := 3, declHit := false } }
  let s :=
    if !s.lawRuns (grpOf c) || s.passive (grpOf c) then idle s
    else if quiet then
      if loop || h.out == .mute then s.heldTick c else s.modCh c fun h => { h with held := true }
    else if loop then s.evalLaw c
    else if h.out = .mute ∧ h.rampEnd.isNone then s.muteTick c
    else idle s
  s.modCh c fun h => { h with noInc := false, run := if h.held then h.run else { h.run with v := h.v, i := h.i } }

/-! ### Ticks (R24, R27, R30) -/

/-- The smaller of a margin and what has been seen. -/
def minPace (n : Nat) : Option Nat → Option Nat
  | none => some n
  | some m => some (if n < m then n else m)

/-- The pace margin of a tick (R24): PACE_LOW at most once per telemetry frame. -/
def State.paceTick (s : State) (g n : Nat) : State :=
  let low := decide (n < s.rdN .PACE_ALARM) && !(s.gr g).paceSaid
  let s := s.modGr g fun r =>
    { r with pace := minPace n r.pace, pace1 := minPace n r.pace1, pace100 := minPace n r.pace100, paceSaid := r.paceSaid || low }
  let s := if n < s.rdN .PACE_MIN_RESET then s.wr .PACE_MIN_RESET 0 0 n else s
  if low then s.report (srcCtl g) 0x03 0 (if 255 < n / 4 then 255 else n / 4) else s

/-- What the slice of a channel delivers in a tick: nothing once RETIRED. -/
def State.dataOf (s : State) (c : Nat) (ds : List (Nat × TickData)) : Option TickData :=
  if (s.ch c).out = .retired then none else (ds.find? fun x => x.1 = s.pos c).map (·.2)

/-- The samples of a tick after the filter engine's stop that belong before its strobe, and the short records (R194). -/
def State.tickEnd (s : State) (g us : Nat) (ds : List (Nat × TickData)) (miss : Bool) : State :=
  s.each (chansOf g) fun s c => s.samplePre c us (s.dataOf c ds) miss

/-- The channels of a group in the order of the slots that sample them: one that the spare carries comes last (R164, R186). -/
def State.slotOrder (s : State) (g : Nat) : List Nat :=
  ((chansOf g).filter fun c => !(s.ch c).onSpare) ++ (chansOf g).filter fun c => (s.ch c).onSpare

/-- Samples of a tick where the filter engine is RUNNING (R164 to R189); the first is of frame-grid microsecond `us`. -/
def State.tickSamples (s : State) (g us : Nat) (ds : List (Nat × TickData)) (miss : Bool) : State :=
  let K := s.tickUs g
  s.each (s.slotOrder g) fun s c =>
    let d := s.dataOf c ds
    let s := s.sampleTick c us K d miss
    match d with
    | some d => s.loopTick c (us + K - 1) d miss
    | none => (s.tevHold c false).tevHold c true

/-- A group tick (R27, R113): edges and steps of the tick before arrive, the slots deliver their samples, and every law is
evaluated. -/
def State.tick (s : State) (g : Nat) (slots : List SlotIn) (pace : Nat) (miss : Bool) : State :=
  let r := s.gr g
  let s := s.modGr g fun r =>
    { r with edges := [], later := [], trips := [], arrived := r.trips ++ r.arrived ++ r.later, opened := true, ticks := r.ticks + s.tickUs g
             tickAt := s.now }
  let s := ((s.paceTick g pace).each r.edges fun s e => s.edge e 593).limiters g slots
  let live := !s.fencedSrc (srcLoop g) && !s.fencedSrc (srcRec g)
  let late := (chansOf g).any fun c => ((s.preOf c).map (·.run)).getD false
  if (r.filt = .stopped ∧ ¬ late) ∨ ¬ live then s.each (chansOf g) fun s c => s.chanLaw c
  else
    let (s, ds) := s.feedAll g r.ticks slots
    if r.filt ≠ .running then
      let s := if late then s.tickEnd g (r.ticks + 1 - s.tickUs g) ds miss else s
      s.each (chansOf g) fun s c => s.chanLaw c
    else
      let s := if miss then (s.inc .DEADLINE_RECORD g).report (srcRec g) 0x02 0 0 .transient else s
      let s := s.tickSamples g (r.ticks + 1 - s.tickUs g) ds miss
      let s := s.each (chansOf g) fun s c => s.chanLaw c
      s.each (chansOf g) fun s c => s.autoRange c

/-- The slice positions that are fenced at a strobe, in the order of their classification, the lower position first in one TBA tick
(R342). -/
def fencesOf (l : List Change) : List Nat :=
  (l.foldl (fun m x => match x.what with | .sliceFence p t => insertBy id (t, p) m | _ => m) []).map (·.2)

/-- The channel that Crook moves onto the spare at the coming strobe (R342). -/
def State.movesNext (s : State) (g : Nat) : Option Nat :=
  if s.latch ∨ (s.gr g).spare = 1 ∨ s.fencedSrc (srcCrook g) ∨ s.fencedSrc (srcSlice g 32) then none
  else (((fencesOf (s.gr g).frozen).filter (· < 32)).map fun p => 32 * g + p).find? (fun c => (s.ch c).out != .retired)
    |>.filter fun c => !(s.ch c).onSpare

/-- A takeover holds the tick of a slot that has not staged, and no DEADLINE is reported for it (R343). -/
def State.excused (s : State) (g p : Nat) : Bool :=
  (chansOf g).any fun c => s.pos c == p && ((s.ch c).taking || (s.ch c).blank != 0 || s.movesNext g == some c)

/-- Staging closes at clock 48 (R27, R29): the changes that have arrived are frozen, and a slot that has not staged discards
its evaluation, whatever its channel's state. The report counts the slots, that of an unoccupied spare included (R15). An
auto-range step that the discarded tick has asked for is no request (R156). -/
def State.staging (s : State) (g : Nat) (missed : List Nat) : State :=
  let s := s.modGr g fun r => { r with frozen := r.frozen ++ r.arrived, arrived := [], opened := false }
  let slots := (List.range 33).filter fun p => missed.contains p && !s.excused g p
  if slots.isEmpty || !s.lawRuns g then s
  else
    let l := (chansOf g).filter fun c => slots.contains (s.pos c) && (s.ch c).out != .retired
    let s := s.each l fun s c => (s.inc .LOOP_HELD_TICKS c).discard c
    let s := s.modGr g fun r => { r with later := r.later.filter fun x =>
      match x.what with | .range c q => !(q.src == .auto && l.contains c) | _ => true }
    (s.inc .DEADLINE_STAGING g).report (srcCtl g) 0x02 0 slots.length .transient

/-! ### Overloads (R163) -/

/-- An overload is detected or ends at a modulator (R163), at place `x` of the frame grid; samples up to `y` have been delivered. -/
def Filt.overload (f : Filt) (x y : Nat) (what : Overload) : Filt :=
  let l := ovlTrim y f.ovl
  match what with
  | .positive => { f with ovl := (x, some 0x600000) :: l }
  | .negative => { f with ovl := (x, some (-0x600000)) :: l }
  | .returned => match l with
    | (_, some _) :: _ => { f with ovl := (x, none) :: l }
    | _ => f

/-- Where slot p's latest sample, and the present instant after it, lie on the frame grid (R163, R164; DEDUCED, log 79). -/
def State.gridNow (s : State) (g p : Nat) : Nat × Nat :=
  let r := s.gr g
  let k := s.tickUs g
  let e := min (4 * (s.now - r.tickAt)) (4000 * k)
  (gridAt (r.ticks - k) p, 4000 * (r.ticks - k) + max e (125 * p))

/-! ### Commands -/

/-- FRAME_START (R18). -/
def execFrameStart (s : State) : Host.Outcome State Fault Refusal := .next (if s.framesRun then s.frame else s)

/-- GROUP_TICK (R113). -/
def execGroupTick (g : GroupNo) (slots : List SlotIn) (pace : Nat) (recordMiss : Bool) (s : State) :
    Host.Outcome State Fault Refusal :=
  .next (if s.framesRun ∧ s.strobes g then s.tick g slots pace recordMiss else s)

/-- STAGING_CLOSE (R27, R29). -/
def execStagingClose (g : GroupNo) (missed : List Nat) (s : State) : Host.Outcome State Fault Refusal :=
  .next (if s.framesRun ∧ s.strobes g then s.staging g missed else s)

/-- MODULATOR_OVERLOAD (R163). -/
def execModulatorOverload (g : GroupNo) (slot : Nat) (current : Bool) (what : Overload) (s : State) :
    Host.Outcome State Fault Refusal :=
  .next (if 33 ≤ slot then s
    else
      let (y, x) := s.gridNow g slot
      let s := s.modSl (srcSlice g slot) fun z =>
        if current then { z with fi := z.fi.overload x y what } else { z with fv := z.fv.overload x y what }
      if what = .returned then s else s.inc .OVERLOADS g)

/-- APERTURE_CLOSE (R174): a full aperture of a running filter engine yields its record. -/
def execApertureClose (c : ChanNo) (s : State) : Host.Outcome State Fault Refusal :=
  .next (if (s.gr (grpOf c)).filt = .running ∧ ¬ s.pwr.asleep then s.closeAper c else s)

/-- REC_FLUSH_EXPIRY (R191): the open block has waited REC_FLUSH. -/
def execRecFlushExpiry (c : ChanNo) (s : State) : Host.Outcome State Fault Refusal :=
  .next (match (s.ch c).aper.block.getLast? with
    | some r => if r.made + s.rdN .REC_FLUSH * 1000 ≤ s.now then s.closeBlock c else s
    | none => s)

/-- FILT_FILL_DONE (R194): two frames have filled the stages; the engine runs from the next strobe. -/
def execFiltFillDone (g : GroupNo) (s : State) : Host.Outcome State Fault Refusal :=
  .next (if (s.gr g).filt = .filling ∧ 2 ≤ (s.gr g).fill then s.push g none .filtRun else s)

/-- RESERVATION_WRITE (R183): Drone writes the next reservation of a channel that comes within 2^31 of its own. -/
def execReservationWrite (c : ChanNo) (s : State) : Host.Outcome State Fault Refusal :=
  .next (if s.reserved c < s.rdN .REC_NEXT c + 2 ^ 31 ∧ (s.ch c).aper.rsvAsked.isNone ∧ ¬ (recPages 0).any s.pageDead then
      (s.modAper c fun a => { a with rsvAsked := some (s.rdN .REC_NEXT c + 2 ^ 32) }).nvmPut (recPages 0)
    else s)

/-- RESERVATION_CONFIRM (R183): the written reservation holds, once both copies of the record are verified; the channel's next record
carries GAP where it waited. A reservation that falls on a dead bank is never confirmed (R436). -/
def execReservationConfirm (c : ChanNo) (s : State) : Host.Outcome State Fault Refusal :=
  .next (match (s.ch c).aper.rsvAsked with
    | some n =>
      if (recPages 0).any fun p => s.pageDead p || s.drn.writes.contains p then s
      else { s with nvm := { s.nvm with rsv := s.nvm.rsv.put (fun _ => 0) c n } }.modAper c fun a => { a with rsvAsked := none }
    | none => s)

/-- AUTO_RANGE_STEP (R156, R157): the request reaches the strobe of the next tick. -/
def execAutoRangeStep (c : ChanNo) (s : State) : Host.Outcome State Fault Refusal :=
  .next (match (s.ch c).aper.arAsk with
    | none => s
    | some up =>
      let cur := s.limCur c
      let s := s.modAper c fun a => { a with arUp := 0, arDn := 0, arAsk := none }
      match s.arNext c cur up with
      | none => s
      | some r =>
        let q : RangeReq := { vr := if cur then none else some r, ir := if cur then some r else none, src := .auto }
        s.modGr (grpOf c) fun x => { x with later := x.later ++ [{ ans := none, what := .range c q }] })

/-- AGG_WINDOW_CLOSE (R189): the window in progress has ended at a boundary, and the next one begins there. -/
def State.aggClose (s : State) (g : Nat) : State :=
  let r := s.gr g
  let (b, p) := s.aggEdge g
  if r.filt ≠ .running ∨ ¬ s.filtLive g ∨ b ≤ r.windows then s
  else
    let s := s.each (chansOf g) fun s c => if s.produces g then s.closeAgg c b else s
    let t := r.aggTime
    let s := s.wr .AGG_LAST_START g 0 (time80 t)
    let pkt (k : Nat) : AggPkt :=
      { g := g, window := if r.aggP = 0 then 0 else r.windows / r.aggP, time := t, period := r.aggP
        items := (chansOf g).map fun c => beNat (s.rdV .AGG_LAST c).blob, ports := s.blockPorts k
        locked := r.aggLocked, made := s.now }
    let ks := (List.range 32).filter fun k => s.rd .STREAM_STATE k == 1 && bit (s.rdN .STREAM_AGG_GROUPS k) g
    let s := s.each (if s.produces g then ks else []) fun s k =>
      s.modSt k fun x =>
        let mine := x.aggs.filter fun a => a.g = g
        let l := if 2 ≤ mine.length then (match mine with | a :: _ => x.aggs.erase a | [] => x.aggs) else x.aggs
        { x with aggs := l ++ [pkt k] }
    (s.modGr g fun r => { r with windows := b, aggP := p }).aggOpen g

def execAggWindowClose (g : GroupNo) (s : State) : Host.Outcome State Fault Refusal := .next (s.aggClose g)

end Sys2Proof.Machine
end

