-- ==== Sys2Proof/Machine/Pair.lean ====
section
/-! DEFINITION. Redundant pair operation (R403 to R424): roles, the mirror, takeover, handover, link loss; with the commands
of this family. -/
namespace Sys2Proof.Machine
open Sys2Proof

/-! ### Roles (R404) -/

/-- The role of a group. -/
def State.role (s : State) (g : Nat) : Nat := s.rdN .PAIR_ROLE g

/-- Messages of a group that wait for a cell are dropped, once the group is not mirrored (R411, R421). -/
def State.dropQueued (s : State) (g : Nat) : State :=
  { s with pair := { s.pair with outSt := s.pair.outSt.filter fun x => x.2.1 ≠ g, outCf := s.pair.outCf.filter fun x => x.2.1 ≠ g } }

/-- A role change with its time (R424); a calibration command of the group ends with it (R328). -/
def State.setRole (s : State) (g n : Nat) : State :=
  if s.role g = n then s
  else
    let s := ((s.calEnd g 10 (if n = 3 ∨ n = 4 then .PAIR_STANDBY else .STATE_CONFLICT)).wr .PAIR_ROLE g 0 n).wr .PAIR_LAST_CHANGE g 0
      s.stampNow
    if n = 1 ∨ n = 2 then s else (s.dropQueued g).modGr g fun r => { r with pair := { r.pair with behind := false } }

/-- Objects that CONFIG cells carry of a channel's or group's unit, and that the standby takes from their defaults on (R411). -/
def inConfig (o : Obj) : Bool :=
  !inState o && o != .CTL_RUN && o != .FILT_RUN && (match o.desc.cls with | .RW | .RWS => true | _ => false)

/-- The objects of a group's units that hold a value of their own. -/
def State.configObjs (s : State) (g : Nat) : List (Obj × Nat × Nat) :=
  (s.od.filterMap fun x => findObj (x.1 / 256) (x.1 % 256)).filter fun x => inConfig x.1 && groupOfObj x.1 x.2.1 == some g

/-- The group of a sweep memory element: that of the channel whose region holds it (R199). -/
def State.sweepGroup (s : State) (k : Nat) : Option Nat := (allChans.find? fun c => s.inRegion c k).map grpOf

/-- The partner's mirror of a group starts anew (R404, R421): everything that it carries is sent. -/
def State.resync (s : State) (g : Nat) : State :=
  let s := (s.dropQueued g).modGr g fun r => { r with pair := { r.pair with behind := true } }
  let s := s.each (chansOf g) fun s c => (s.modCh c fun h => { h with told := [] }).tell g (.next (Fin.ofNat 512 c) (s.rdN .REC_NEXT c))
  let s := s.each (chansOf g) fun s c =>
    match (s.ch c).hold.ep with | some p => s.tell g (.reserve (Fin.ofNat 512 c) p) | none => s
  let s := s.tellConfig g (.restart (Fin.ofNat 16 g))
  let s := (s.configOut .CTL_RUN g 0 (s.rd .CTL_RUN g)).configOut .FILT_RUN g 0 (s.rd .FILT_RUN g)
  let s := s.each (s.configObjs g) fun s x => s.configOut x.1 x.2.1 x.2.2 (s.rd x.1 x.2.1 x.2.2)
  let s := s.each (s.sweep.filter fun x => s.sweepGroup x.1 == some g) fun s x => s.tellConfig g (.sweep x.1 x.2.toNat)
  s.each (s.mtx.map.filter fun x => grpOf (x.1 / 2048) == g) fun s x => s.tellConfig g (.map x.1 x.2)

/-- Roles that drive: ACTIVE_SYNC, ACTIVE, ACTIVE_ALONE. -/
def driving (n : Nat) : Bool := n == 1 || n == 2 || n == 5

/-- Every channel of the group is OFF. -/
def State.allOff (s : State) (g : Nat) : Bool := (chansOf g).all fun c => (s.ch c).out == .off

/-- The output state of a code (Table OUT_STATE). -/
def outOfCode (n : Nat) : OutState :=
  match n with
  | 1 => .armed | 2 => .force | 3 => .compl | 4 => .mute | 5 => .safe | 6 => .retired | _ => .off

/-- Table "Standby switch settings" (R413). -/
def State.standbySwitches (s : State) (c : Nat) : State :=
  s.modCh c fun h => { h with isoF := false, isoS := true, isoI := false, bg := .off, drv := h.out.charged }

/-- The preset of a tick (R99). -/
def State.preset (s : State) (c : Nat) : Int :=
  presetCode (s.ch c).v (s.ch c).i (s.rdN .V_RANGE c) (s.rdN .I_RANGE c)

/-- A channel of a group that gives up its role is OFF, with its Slide and Chanter ended (R406, R414, R416). It stays in SAFE or RETIRED
only by this member's own latch or slice: such a state of the mirror is the partner's. -/
def State.pairOff (s : State) (c : Nat) : State :=
  let h := s.ch c
  if (h.out = .safe ∧ s.latch) ∨ (h.out = .retired ∧ s.fencedSrc (s.sliceOf c)) then s
  else
    let s := (s.chtStopIf c 7).slideEnd c .RANGE_REFUSED 4
    let s := if h.out = .off then s.wr .OUT_CAUSE c 0 11 else s.setOut c .off false 11
    let s := (s.switches c).modCh c fun k =>
      { k with armAns := [], offAns := [], offWait := false, armFrom := none, rampEnd := none, due := none
               run := { k.run with ramp := none, load := none, sel := 3 } }
    (s.answers h.armAns .STATE_CONFLICT).replies h.offAns .OK

/-- A standby group that cannot take over becomes SOLO with every channel OFF (R406, R414). -/
def State.soloOff (s : State) (g : Nat) : State := (s.each (chansOf g) fun s c => s.pairOff c).setRole g 0

/-! ### At a strobe (R414 to R417) -/

/-- A channel begins to drive from the preset of this tick, with its records from here on, and of its samples those whose instants follow
(R415, R419). One held in MUTE has no state of its own from before: RESUME takes it to FORCE (R102). One whose slice this member has fenced
has nothing to drive with and retires (DEDUCED, log 17). -/
def State.driveFrom (s : State) (c : Nat) : State :=
  let s := s.modAper c fun a => { a with gap := true, samps := a.samps.map fun x => { x with kept := false }
                                         pre := a.pre.map fun x => { x with keep := false } }
  let h := s.ch c
  if h.out.charged then
    let s := (s.switches c).modCh c fun h => { h with dac := s.preset c, before := .force }
    if h.out.loop then s.loadCode c else s
  else s.switches c

/-- The reservations that the mirror holds for a group's channels are this member's own from now on (R412). -/
def State.ownResv (s : State) (g : Nat) : State :=
  s.each (chansOf g) fun s c =>
    match (s.ch c).hold.ep with
    | some p => { s with mtx := { s.mtx with partner := s.mtx.partner.put (fun _ => 0) p 0 } }.setResv p (some c)
    | none => s

/-- Channels of a new active group whose slice this member has fenced, with no spare that carries them, retire. -/
def State.retireFenced (s : State) (g : Nat) : State :=
  s.each (chansOf g) fun s c => if s.fencedSrc (s.sliceOf c) then s.retire c else s

/-- The takeover of a group at strobe h of a failover (R415, R420). A group that is no longer in STANDBY does not take
over. -/
def State.takeAt (s : State) (g : Nat) : State :=
  if s.role g ≠ 4 then s
  else
    let s := s.each (chansOf g) fun s c =>
      (((s.driveFrom c).wr .OUT_CAUSE c 0 11).modCht c fun t => { t with again := t.live }).reExecute c
    let s := (s.ownResv g).modGr g fun r => { r with pair := { r.pair with take := none } }
    ((s.setRole g 5).inc .PAIR_FAILOVERS).retireFenced g

/-- The group is isolated with the switch settings of OFF, and stands by (R413, R416, R422). A handover under way ends (R417). -/
def State.isolateAt (s : State) (g : Nat) : State :=
  let s := (s.giveEnd g).each (chansOf g) fun s c => (s.pairOff c).standbySwitches c
  s.setRole g 3

/-- The new active member of a handover counts down to strobe h, drives from it, and exchanges roles at h + 1 (R417). -/
def State.takeCount (s : State) (g : Nat) : State :=
  match (s.gr g).pair.take with
  | none => s
  | some 0 =>
    let s := s.each (chansOf g) fun s c => s.wr .OUT_CAUSE c 0 11
    let s := (s.ownResv g).modGr g fun r => { r with pair := { r.pair with take := none } }
    ((s.setRole g 2).inc .PAIR_HANDOVERS).retireFenced g
  | some n =>
    if s.role g ≠ 4 then s.modGr g fun r => { r with pair := { r.pair with take := none } }
    else
      let s := s.modGr g fun r => { r with pair := { r.pair with take := some (n - 1) } }
      if n = 1 then s.each (chansOf g) fun s c => s.driveFrom c else s

/-- The reservations of a group's channels are the partner's from now on (R412). -/
def State.giveResv (s : State) (g : Nat) : State :=
  s.each (chansOf g) fun s c =>
    match (s.ch c).hold.ep with
    | some p =>
      { s with mtx := { s.mtx with partner := s.mtx.partner.put (fun _ => 0) p (c + 1), resv := s.mtx.resv.put (fun _ => 0) p 0 } }.modHold c
        fun h => { h with bias := 0 }
    | none => s

/-- The old active member of a handover applies the standby settings at strobe h + 1 (R417). -/
def State.giveCount (s : State) (g : Nat) : State :=
  let p := (s.gr g).pair
  match p.give with
  | none => s
  | some 0 =>
    let s := s.each (chansOf g) fun s c => (s.standbySwitches c).wr .OUT_CAUSE c 0 11
    let s := s.modGr g fun r => { r with pair := { r.pair with give := none, acked := false, ans := none } }
    (((s.giveResv g).setRole g 4).inc .PAIR_HANDOVERS).answer p.ans .OK
  | some n => s.modGr g fun r => { r with pair := { r.pair with give := some (n - 1) } }

/-- A strobe of a group in a pair. -/
def State.pairStrobe (s : State) (g : Nat) : State :=
  (s.takeCount g).giveCount g

/-! ### Triggers (R409, R414, R418, R421) -/

/-- A failover trigger reaches a group: in STANDBY it takes over, in STANDBY_SYNC it becomes SOLO and OFF (R414). -/
def State.trigger (s : State) (g : Nat) : State :=
  let s := s.giveEnd g
  if s.role g = 4 then
    (s.pushAt g 0 .pairTake).modGr g fun r => { r with pair := { r.pair with take := none } }
  else if s.role g = 3 then s.soloOff g
  else if s.role g = 1 ∨ s.role g = 2 then s.setRole g 5
  else s

/-- The witness balls are named (R418). -/
def State.witnessed (s : State) : Bool := s.rd .PAIR_WIT_EVO != 0xFF && s.rd .PAIR_WIT_EVI != 0xFF

/-- The partner is dead: heartbeat and witness have both been silent (R414). -/
def State.partnerDead (s : State) : State :=
  s.wr .PAIR_STATE 0 0 4 |>.each allGroups fun s g => s.trigger g

/-- The link is lost and the partner lives (R421). -/
def State.linkLost (s : State) : State :=
  let s := (s.wr .PAIR_STATE 0 0 3).report srcPair 0x33 0 0xFE .severe
  let s := { s with pair := { s.pair with outSt := [], outCf := [] } }
  s.each allGroups fun s g =>
    let s := s.giveEnd g
    let r := s.role g
    if r = 1 ∨ r = 2 then s.setRole g 5 else if r = 4 then s.setRole g 3 else s

/-- PAIR_HB_TIMEOUT in ns. -/
def State.hbTime (s : State) : Nat := s.rdN .PAIR_HB_TIMEOUT * 1000

/-- An edge of the partner's witness: while the heartbeat is lost it shows that the partner lives (R418, R421). -/
def State.witnessEdge (s : State) : State :=
  let s := { s with pair := { s.pair with lastWitness := s.now, witSilent := false } }
  if s.pair.hbLost ∧ s.rd .PAIR_STATE = 2 then s.linkLost else s

/-! ### Dissolution (R406) -/

/-- The pair dissolves (R406, R407). -/
def State.dissolve (s : State) : State :=
  let s := s.each allGroups fun s g =>
    let s := s.giveEnd g
    let s := if s.standby g then s.each (chansOf g) fun s c => s.pairOff c else s
    (s.setRole g 0).modGr g fun r => { r with pair := {} }
  { s with mtx := { s.mtx with partner := [] }, pair := { s.pair with hbLost := false } }

/-! ### Cells (R408 to R412) -/

/-- A valid cell of any type arrives on a receive lane: the lane is up, and the cell counts as heartbeat (R408, R409). -/
def State.cellIn (s : State) (lane : Nat) : State :=
  if 2 ≤ lane then s
  else
    let p := { s.pair with lastCell := s.now, hbLost := false }
    let s := { s with pair := if lane = 0 then { p with lane0 := s.now } else { p with lane1 := s.now } }
    s.wr .PAIR_LANES 0 0 (setBit (s.rdN .PAIR_LANES) lane true)

/-- The transmit lanes run, where the device takes part in a pair (R408, R424). -/
def State.lanesUp (s : State) : State := if s.rdT .PAIR_EN then s.wr .PAIR_LANES 0 0 (s.rdN .PAIR_LANES ||| 12 : Nat) else s

/-- A member takes part in a pair: PAIR_EN is true and the device is awake. -/
def State.pairOn (s : State) : Bool := s.rdT .PAIR_EN && !s.pwr.asleep

/-- A group of a formed pair follows what the partner reports (R404, R410). -/
def State.follow (s : State) (g n : Nat) : State :=
  let s := s.modGr g fun r => { r with pair := { r.pair with partner := n } }
  let r := s.role g
  if r = 1 ∧ n = 4 then s.setRole g 2
  else if r = 2 ∧ n = 3 then s.setRole g 1
  else s

/-- A group enters STANDBY_SYNC with the standby's switch settings (R404, R413). -/
def State.standBy (s : State) (g : Nat) : State := (s.each (chansOf g) fun s c => s.standbySwitches c).setRole g 3

/-- A group when the link has returned: an active one sends its mirror anew (R421, R422). -/
def State.compare (s : State) (g n : Nat) : State :=
  let s := s.modGr g fun r => { r with pair := { r.pair with partner := n } }
  let r := s.role g
  if driving r && driving n then
    let s := s.report srcPair 0x33 0 0xFF .severe
    if s.rd .PAIR_ID = 1 then s.push g none .isolate else (s.setRole g 1).resync g
  else if driving r then (s.setRole g 1).resync g
  else if driving n ∧ (r = 3 ∨ r = 4 ∨ s.allOff g) then s.standBy g
  else s

/-- Before the pair forms, member 1 takes the frame count of member 0 while its control engines are stopped (R407). -/
def State.shiftFrames (s : State) (frame : Nat) : State :=
  if s.rd .PAIR_ID = 1 ∧ allGroups.all fun g => !(s.gr g).ctl then { s with clk := { s.clk with frames := frame } } else s

/-- A HEARTBEAT cell (R407, R409, R422). A transmit lane that the partner hears is up (R408; DESIGN CHOICE, log 75). -/
def State.beat (s : State) (b : Beat) : State :=
  let s := s.cellIn b.lane
  let s := s.wr .PAIR_LANES 0 0 (s.rdN .PAIR_LANES ||| b.hears % 4 * 4 : Nat)
  let st := s.rdN .PAIR_STATE
  if st ≠ 2 ∧ st ≠ 3 ∧ st ≠ 4 then s.shiftFrames b.frame
  else
    let s := s.wr .PAIR_SKEW 0 0 (clampI (-32768) 32767 b.skew)
    if 20 < b.skew.natAbs then
      let s := (s.report srcPair 0x33 0 0xF0 .severe).dissolve
      s.wr .PAIR_STATE 0 0 1
    else
      let back := st != 2
      let s := s.wr .PAIR_STATE 0 0 2
      s.each ((List.range 16).zip b.roles) fun s x => if back then s.compare x.1 x.2 else s.follow x.1 x.2

/-- A unit as a Chanter message names it: one that the standby knows, or one whose entry it fetches; the base level of an entry's first unit is
the SETPOINT of its begin strobe (R205, R411). -/
def State.mirrorUnit (s : State) (c : Nat) (begins : Bool) (p k : Nat) : SUnit :=
  let t := (s.ch c).cht
  let new (base : Int) : SUnit := { addr := p, entry := s.sweepEl p, param := s.sweepEl (p + 1), k := k, base := base }
  if begins ∧ k = 0 then new (s.rd .SETPOINT c)
  else if t.nu.addr = p ∧ t.nu.k = k then t.nu
  else if t.cur.addr = p ∧ t.cur.k = k then t.cur
  else if t.cur.addr = p then new t.cur.base
  else if t.nu.addr = p then new t.nu.base
  else new (s.rd .SETPOINT c)

/-- A Chanter has applied a unit between two strobes. -/
def Chanter.applied (a b : Chanter) : Bool := b.live && (!a.live || a.cur != b.cur || (a.begun && !b.begun))
/-- A Chanter's dwell begins between two strobes. -/
def Chanter.turned (a b : Chanter) : Bool := a.applied b || (b.live && a.st == .settle && b.st == .dwell)

/-- The Chanter of a channel as the partner reports it (R411, R413): units that begin, apply, settle and end at the strobe of the message,
from which the standby counts the dwell (R420). -/
def State.mirrorCht (s : State) (c st pos unit : Nat) (cur : Nat × Nat) : State :=
  let old := (s.ch c).cht
  let nu := s.mirrorUnit c (bit st 3 && !old.begun) pos unit
  let u := s.mirrorUnit c false cur.1 cur.2
  let k : ChtSt := match st % 4 with | 0 => .idle | 1 => .wait | 2 => .settle | _ => .dwell
  let s := (s.wr .CHT_POS c 0 pos).wr .CHT_UNIT c 0 unit
  let new : Chanter := { st := k, paused := bit st 5, cur := u, live := bit st 2, nu := nu, begun := bit st 3 }
  s.modCht c fun _ => { new with count := if old.turned new then 0 else old.count, wtick := if old.applied new then 0 else old.wtick }

/-- The standby counts the dwell of the unit in progress and the ticks of a waveform point (R411, R420). -/
def State.standbyTick (s : State) (c : Nat) (fresh_ : Bool) : State :=
  let t := (s.ch c).cht
  if fresh_ || t.st == .idle || t.paused || s.frozen c || !t.live then s
  else s.modCht c fun t => { t with count := if t.st = .settle then t.count else t.count + 1, wtick := t.wtick + 1 }

/-- A message of a STATE cell comes into force on a standby group (R411 to R413, R420). -/
def State.mirror (s : State) (m : MirrorState) : State :=
  let on (c : Nat) : Bool := s.standby (grpOf c)
  match m with
  | .output c st cause =>
    if !on c then s
    else
      let s := s.modCh c fun h => { h with out := outOfCode (st % 16), transit := bit st 7 }
      ((s.wr .OUT_CAUSE c 0 cause).inc .STATE_CHANGES c).standbySwitches c
  | .param c fm sp lim lr vr ir =>
    if !on c then s
    else
      let s := (((s.wr .FORCE_MODE c 0 fm).wr .SETPOINT c 0 sp).wr .V_RANGE c 0 vr).wr .I_RANGE c 0 ir
      (s.modCh c fun h => { h with lim := lim, limRange := lr }).rebind c
  | .chanter c st pos unit cur => if on c then s.mirrorCht c st pos unit cur else s
  | .reserve c ep =>
    let s := { s with mtx := { s.mtx with partner := s.mtx.partner.put (fun _ => 0) ep (c.val + 1) } }
    if on c then s.modHold c fun h => { h with ep := some ep, bias := 0 } else s
  | .release c ep =>
    let s := { s with mtx := { s.mtx with partner := s.mtx.partner.put (fun _ => 0) ep 0 } }
    if on c ∧ (s.ch c).hold.ep = some ep then s.modHold c fun h => { h with ep := none, bias := 0 } else s
  | .confirmedMake _ ep => s.relayCount ep
  | .grid c n base =>
    if on c then ((s.rebase c).wr .APERTURE_N c 0 n).modAper c fun a => { a with base := base } else s
  | .slide c step status => if on c then s.modCh c fun h => { h with peerStep := step, peerSlide := status } else s
  | .next c no => if on c then s.wr .REC_NEXT c 0 (no : Int) else s
  | .synced g ok =>
    if !s.standby g then s
    else if !ok then s.setRole g 3
    else if s.charges ≤ budgetCap then s.setRole g 4
    else s.report srcSup 0x3A 0 0

/-- A mirrored object comes into force with what follows from it (R411): the engines of the group run as those of the partner
(R413). -/
def State.mirrorObj (s : State) (o : Obj) (i e : Nat) (v : Int) : State :=
  match o with
  | .FILT_RUN =>
    let s := s.wr o i e v
    if v = 0 then s.push i none .filtStop else if (s.gr i).filt = .stopped then s.modGr i fun r => { r with filtStart := some [] } else s
  | .CTL_RUN =>
    let s := s.wr o i e v
    if v = 0 then s.modGr i fun r => { r with ctl := false, ctlStart := none }
    else if (s.gr i).ctl then s else s.modGr i fun r => { r with ctlStart := some [] }
  | .TEV_V_STATE => (s.wr o i e v).modAper i fun a => { a with tevInitV := true }
  | .TEV_I_STATE => (s.wr o i e v).modAper i fun a => { a with tevInitI := true }
  | _ => s.setParam o i e v

/-- A STATE message arrives with the strobes left until it comes into force (R410); a group without strobes takes it as it arrives. -/
def State.mirrorIn (s : State) (x : Nat × MirrorState) : State :=
  let g := stampedGroup x.2
  if x.1 = 0 ∨ ¬ s.strobes g then s.mirror x.2 else s.modGr g fun r => { r with pair := { r.pair with due := r.pair.due ++ [x] } }

/-- The STATE messages of a strobe come into force (R410). -/
def State.mirrorPass (s : State) (g : Nat) : State :=
  let l := (s.gr g).pair.due
  if l.isEmpty then s
  else
    let s := s.modGr g fun r =>
      { r with pair := { r.pair with due := (l.filter fun x => decide (1 < x.1)).map fun x => (x.1 - 1, x.2) } }
    s.each (l.filter fun x => decide (x.1 ≤ 1)) fun s x => s.mirror x.2

/-- The step of a Slide: none, before its make strobe, after it, after its break strobe. -/
def slideStepCode : SlidePhase → Nat
  | .made => 2
  | .broken _ => 3
  | .idle => 0
  | _ => 1

/-- What STATE cells carry of a channel as it stands (Table "Mirrored items"). -/
def State.mirrorItems (s : State) (c : Nat) : List MirrorState :=
  let h := s.ch c
  let k := Fin.ofNat 512 c
  let st := match h.cht.st with | .idle => 0 | .wait => 1 | .settle => 2 | .dwell => 3
  [.output k (h.out.code + 128 * b2n h.transit) (s.rdN .OUT_CAUSE c),
   .param k (s.rdN .FORCE_MODE c) (s.rd .SETPOINT c) h.lim h.limRange (s.rdN .V_RANGE c) (s.rdN .I_RANGE c),
   .chanter k (st + 4 * b2n h.cht.live + 8 * b2n h.cht.begun + 32 * b2n h.cht.paused) (s.rdN .CHT_POS c) (s.rdN .CHT_UNIT c)
     (h.cht.cur.addr, h.cht.cur.k), .grid k (s.rdN .APERTURE_N c) h.aper.base,
   .slide k (slideStepCode h.slide.phase) (s.slideWord c)]

/-- A mirrored group tells its partner what has changed by this strobe (R410, R411; DEDUCED, log 98). -/
def State.mirrorOut (s : State) (g : Nat) : State :=
  if !s.mirrors g then s
  else s.each (chansOf g) fun s c =>
    let l := s.mirrorItems c
    let new := l.filter fun m => !(s.ch c).told.contains m
    if new.isEmpty then s else (s.stateOut (s.gr g).ticks new).modCh c fun h => { h with told := l }

/-- A message of a CONFIG cell (R411). -/
def State.mirrorConfig (s : State) (m : MirrorConfig) : State :=
  match m with
  | .object idx sub v =>
    match findObj idx sub with
    | some (o, i, e) =>
      match groupOfObj o i with
      | some g => if s.standby g then s.mirrorObj o i e v else s
      | none => s
    | none => s
  | .restart g =>
    if !s.standby g then s
    else
      let s := s.each (s.configObjs g) fun s x => s.mirrorObj x.1 x.2.1 x.2.2 (objDefault x.1 x.2.1 x.2.2).int
      { s with sweep := s.sweep.filter fun x => s.sweepGroup x.1 ≠ some g.val
               mtx := { s.mtx with map := s.mtx.map.filter fun x => grpOf (x.1 / 2048) ≠ g.val } }
  | .sweep k v => { s with sweep := s.sweep.put sweepReset k (BitVec.ofNat 128 v) }
  | .map k v => { s with mtx := { s.mtx with map := s.mtx.map.put mapDefault k v } }
  | .bias p =>
    let n := s.ledgerEl p
    let b := if 4294967295 ≤ ledBias n then 4294967295 else ledBias n + 1
    s.setLedger p (ledMake (ledRelay n) b (bit n 3) (bit n 2) (bit n 1) (bit n 0 || b == 4294967295))

/-! ### Forming (R403, R404) -/

/-- Table "Pair forming checks": PAIR_STATE of the first that fails. -/
def State.formCheck (s : State) (p : Partner) : Option Nat :=
  if p.silicon ≠ 0xB1 then some 5
  else if (p.id : Int) = s.rd .PAIR_ID then some 6
  else if p.imageId ≠ s.half.id ∨ p.waveCrcs ≠ (List.range 64).map fun n => s.rdN .WAVE_CRC n then some 7
  else if 10 < p.skew.natAbs then some 8
  else if p.homes ≠ allGroups.map fun g => s.rdN .PAIR_HOME g then some 9
  else none

/-- The pair forms (R403, R404): where the copy of the other member is all OFF, the home member becomes active and the other stands by. -/
def State.form (s : State) (p : Partner) : State :=
  match s.formCheck p with
  | some n => s.wr .PAIR_STATE 0 0 n
  | none =>
    let s := (s.wr .PAIR_STATE 0 0 2).wr .PAIR_PARTNER 0 0 (p.serial % 2 ^ 64 : Nat)
    let s := s.wr .PAIR_SKEW 0 0 (clampI (-32768) 32767 p.skew)
    let s := { s with pair := { s.pair with lastCell := s.now, lastWitness := s.now, hbLost := false, witSilent := false } }
    s.each allGroups fun s g =>
      if s.rd .PAIR_HOME g = s.rd .PAIR_ID then (if p.allOff.getD g false then (s.setRole g 1).resync g else s)
      else if s.allOff g then s.standBy g
      else s

/-! ### What leaves on the lanes (R408 to R410) -/

/-- The partner's mirror of a group lags (R410): a STATE message has waited for more than 1 µs, or a CONFIG message for more than 100 µs. -/
def State.lags (s : State) (g : Nat) : Bool :=
  s.pair.outSt.any (fun x => x.2.1 == g && decide (x.1 + 1000 < s.now)) || s.pair.outCf.any fun x => x.2.1 == g && decide (x.1 + 100000 < s.now)

/-- A group whose mirror lags tells its partner to fall back, and one that has caught up that it is complete (R404, R410). -/
def State.syncPass (s : State) (g : Nat) : State :=
  let k : GroupNo := Fin.ofNat 16 g
  let set (b : Bool) : State := s.modGr g fun r => { r with pair := { r.pair with behind := b } }
  if !s.mirrors g then s
  else if (s.gr g).pair.behind then
    if s.pair.outSt.any (fun x => x.2.1 == g) || s.pair.outCf.any (fun x => x.2.1 == g) then s
    else (set false).stateOut 0 [.synced k true]
  else if s.lags g then
    let s := set true
    { s with pair := { s.pair with outSt := (s.now, g, 0, .synced k false) :: s.pair.outSt } }
  else s

/-- The cell that a lane sends next (R409, R410): two STATE messages, else a CONFIG message, else a HEARTBEAT. -/
def State.lanePass (s : State) (lane : Nat) : State :=
  if !s.laneUp lane then s
  else match s.pair.outSt, s.pair.outCf with
  | a :: l, _ =>
    let items := (a :: l.take 1).map fun x => x.2.2
    { s with pair := { s.pair with outSt := l.drop 1 } }.laneSend lane (.state items)
  | [], a :: l => { s with pair := { s.pair with outCf := l } }.laneSend lane (.config a.2.2)
  | [], [] => s.laneSend lane (.heartbeat s.clk.frames (s.rdN .PAIR_ID) (allGroups.map s.role) s.latch (bits (s.rdN .PAIR_LANES) 0 2))

/-- A cell slot of 256 ns begins on both lanes (R408): they carry a continuous run of cells while the member takes part in a pair. -/
def State.pairSlot (s : State) : State :=
  if !s.pairOn || !s.framesRun then s else ((s.each allGroups fun s g => s.syncPass g).lanePass 2).lanePass 3

/-! ### Handover (R417) -/

/-- PAIR_HANDOVER at its execution (R405, R417): refused, or under way. -/
def State.handoverReq (s : State) (g : Nat) (a : Ans) : State × Option Status :=
  let busy := (chansOf g).any fun c => (s.ch c).slide.phase != .idle || (s.ch c).slide.pend.isSome
  let r := s.gr g
  if s.role g ≠ 2 ∨ r.pair.partner ≠ 4 ∨ busy ∨ r.cal.phase ≠ 0 ∨ r.cal.starting.isSome ∨ r.hand ≠ 0 ∨ r.pair.give.isSome ∨ ¬ s.strobes g then
    (s, some .STATE_CONFLICT)
  else
    let n := s.strobesFor g 20
    let s := s.modGr g fun r => { r with pair := { r.pair with give := some n, acked := false, asked := s.now, ans := a } }
    (s.sendCell (.handover g ((s.gr g).ticks + n * s.tickUs g)), none)

/-! ### Commands -/

/-- PAIR_FORM (R403, R404): with both members enabled and the link up. -/
def execPairForm (p : Partner) (s : State) : Host.Outcome State Fault Refusal :=
  .next (let st := s.rd .PAIR_STATE
    if s.pairOn ∧ bits (s.rdN .PAIR_LANES) 0 2 ≠ 0 ∧ (st = 1 ∨ 5 ≤ st) then s.form p else s)

/-- HEARTBEAT (R409). -/
def execHeartbeat (b : Beat) (s : State) : Host.Outcome State Fault Refusal := .next (if s.pairOn then s.beat b else s)

/-- STATE_CELL (R410, R411). -/
def execStateCell (lane : Nat) (items : List (Nat × MirrorState)) (s : State) : Host.Outcome State Fault Refusal :=
  .next (if !s.pairOn then s
    else if s.rd .PAIR_STATE = 2 then (s.cellIn lane).each items fun s x => s.mirrorIn x
    else s.cellIn lane)

/-- CONFIG_CELL (R410, R411). -/
def execConfigCell (lane : Nat) (items : List MirrorConfig) (s : State) : Host.Outcome State Fault Refusal :=
  .next (if !s.pairOn then s
    else if s.rd .PAIR_STATE = 2 then (s.cellIn lane).each items fun s m => s.mirrorConfig m
    else s.cellIn lane)

/-- FAIL_CELL (R414). -/
def execFailCell (lane : Nat) (s : State) : Host.Outcome State Fault Refusal :=
  .next (if s.pairOn then (s.cellIn lane).each allGroups fun s g => s.trigger g else s)

/-- GROUP_FAIL_CELL (R414). -/
def execGroupFailCell (lane : Nat) (g : GroupNo) (s : State) : Host.Outcome State Fault Refusal :=
  .next (if s.pairOn then (s.cellIn lane).trigger g else s)

/-- HANDOVER_CELL (R414, R417). -/
def execHandoverCell (lane : Nat) (g : GroupNo) (left : Nat) (s : State) : Host.Outcome State Fault Refusal :=
  .next (if !s.pairOn then s
    else
      let s := s.cellIn lane
      if s.role g = 4 ∧ left ≠ 0 then
        (s.modGr g fun r => { r with pair := { r.pair with take := some left } }).sendCell (.ack g)
      else s)

/-- ACK_CELL (R417). -/
def execAckCell (lane : Nat) (g : GroupNo) (s : State) : Host.Outcome State Fault Refusal :=
  .next (if !s.pairOn then s
    else (s.cellIn lane).modGr g fun r => { r with pair := { r.pair with acked := r.pair.acked || r.pair.give.isSome } })

/-- HANDOVER_ACK_TIMEOUT (R417): 10 µs without an ACK. -/
def execHandoverAckTimeout (g : GroupNo) (s : State) : Host.Outcome State Fault Refusal :=
  .next (let p := (s.gr g).pair
    if p.give.isSome ∧ ¬ p.acked ∧ p.asked + 10000 ≤ s.now then s.giveEnd g else s)

/-- LANE_DOWN (R408): a receive lane without a valid cell for 2 µs, or a transmit lane. -/
def execLaneDown (lane : Fin 4) (s : State) : Host.Outcome State Fault Refusal :=
  .next (let last := if lane.val = 0 then s.pair.lane0 else s.pair.lane1
    if !s.pairOn || !bit (s.rdN .PAIR_LANES) lane || (decide (lane.val < 2) && decide (s.now < last + 2000)) then s
    else (s.wr .PAIR_LANES 0 0 (setBit (s.rdN .PAIR_LANES) lane false)).report srcPair 0x33 0 lane .transient)

/-- HEARTBEAT_LOSS (R409, R414, R421): without witness balls a lost heartbeat never takes over. -/
def execHeartbeatLoss (s : State) : Host.Outcome State Fault Refusal :=
  .next (if !s.pairOn ∨ s.rd .PAIR_STATE ≠ 2 ∨ s.pair.hbLost ∨ s.now < s.pair.lastCell + s.hbTime then s
    else
      let s := { s with pair := { s.pair with hbLost := true } }
      if !s.witnessed then s.linkLost else if s.pair.witSilent then s.partnerDead else s)

/-- WITNESS_SILENT (R414, R418). -/
def execWitnessSilent (s : State) : Host.Outcome State Fault Refusal :=
  .next (if !s.pairOn ∨ ¬ s.witnessed ∨ s.pair.witSilent ∨ s.now < s.pair.lastWitness + s.hbTime then s
    else
      let s := { s with pair := { s.pair with witSilent := true } }
      if s.pair.hbLost ∧ s.rd .PAIR_STATE = 2 then s.partnerDead else s)

/-- WITNESS_TOGGLE (R418): at every even frame-grid microsecond m. -/
def execWitnessToggle (m : Nat) (s : State) : Host.Outcome State Fault Refusal :=
  .next (let b := s.rdN .PAIR_WIT_EVO
    if s.pairOn ∧ b < 16 ∧ m % 2 = 0 then { s with rtr := { s.rtr with evo := setBit s.rtr.evo b (!bit s.rtr.evo b) } } else s)

/-- PAIR_CELL_DISCARD (R408). -/
def execPairCellDiscard (lane : Fin 4) (s : State) : Host.Outcome State Fault Refusal :=
  .next (if s.pairOn ∧ lane.val < 2 then s.inc .PAIR_CELL_ERRS else s)

end Sys2Proof.Machine
end

