-- ==== Sys2Proof/Machine/Strobe.lean ====
section
/-! DEFINITION. The group load strobe (R26 to R28, R46, R95 to R106, R122, R143, R159, R206) and the TBA tick of a group
without strobes (R96); with the commands that fall to a strobe. -/
namespace Sys2Proof.Machine
open Sys2Proof

/-! ### Values of a channel or group that come into force outright (R69, R75) -/

/-- LAW_HOLD and the staging bank end (R131, R132). -/
def State.bankClose (s : State) (c : Nat) : State :=
  (s.modCh c fun h => { h with bank := none, holdBit := false }).wr .LAW_HOLD c 0 0

/-- Group g powers down (R458): its PLL, slices, Reeds and monitor stop. -/
def State.groupOff (s : State) (g : Nat) : State :=
  let a := (s.gr g).mon.urgent
  let s := ((s.wr .GROUP_PWR g 0 0).monFence g).modGr g fun r =>
    { r with powered := false, filtStart := none, ctlStart := none, test := none, testNext := false }
  let s := { s with clk := { s.clk with tb := s.clk.tb.put (fun _ => 0) g 0 } }.runState
  match a with | some a => s.answer a .FENCED | none => s

/-- Group g is powered and locks its PLL onto the frame grid (R458): the first samples of its Reeds follow INSIDE ones (R282). -/
def State.groupOn (s : State) (g : Nat) (a : Ans) : State :=
  let s := s.each (chansOf g) fun s c => s.modCh c fun h => { h with freshV := true, freshI := true }
  ((s.wr .GROUP_PWR g 0 1).modGr g fun r => { r with powered := true, pwrAns := a }).runState

/-- BOOST_DECL in force at once: an OFF or ARMED channel takes the switches of its new path and keeps its code (R35, R86). -/
def State.boostPut (s : State) (c : Nat) (n : Int) : State :=
  let s := s.wr .BOOST_DECL c 0 n
  if (s.ch c).out = .off ∨ (s.ch c).out = .armed then
    let d := (s.ch c).dac
    (s.switches c).modCh c fun h => { h with dac := d }
  else s

/-- A value of a mode switch or of a base comes into force (R69, R75, R76, R132). The rest of the object's own behaviour
at a write follows where a start or stop of an engine is written; the check of the taps that R195 makes at a write of FILT_RUN is not made
here (DESIGN CHOICE, log 111). -/
def State.applyObj (s : State) (o : Obj) (i e : Nat) (v : Val) : State :=
  let n := v.int
  let told (t : State) : State := t.configOut o i e n
  match o with
  | .CTL_RUN =>
    let r := s.gr i
    let s := s.wr .CTL_RUN i 0 n
    told <| if n = 0 then
      if !r.ctl && r.ctlStart.isSome then s.push i none .ctlStop else s.modGr i fun r => { r with ctl := false }
    else if r.ctl ∨ r.ctlStart.isSome then s else s.modGr i fun r => { r with ctlStart := some [] }
  | .FILT_RUN =>
    let r := s.gr i
    let stops := decide (r.filt ≠ .stopped) && !s.rdT .FILT_RUN i
    let s := s.wr .FILT_RUN i 0 n
    told <| if n = 0 then
      if r.filt = .stopped then (if r.filtStart.isSome then s.push i none .filtStop else s)
      else
        let s := (s.each (chansOf i) fun s c => s.rebase c).modGr i fun r => { r with filt := .stopped, fill := 0 }
        if r.filtStart.isSome then s.push i none .filtStop else s
    else if (r.filt = .stopped ∨ stops) ∧ r.filtStart.isNone then s.modGr i fun r => { r with filtStart := some [] } else s
  | .LAW_HOLD => told <| if n = 0 then s.bankClose i else (s.modCh i fun h => { h with bank := some [], holdBit := true }).wr o i 0 1
  | .GROUP_PWR =>
    let on := (s.gr i).powered
    told <| if n = 0 then (if on then s.groupOff i else s) else if on then s else s.groupOn i none
  | .BOOST_DECL => told (s.boostPut i n)
  | _ =>
    match v with
    | .num n =>
      let s := if isBank o then s.bankClose i else s
      (match unitOf o i with | .channel _ | .group _ => s.setParam o i e n | _ => s.wr o i e n)
    | .bytes _ => s.wrV o i e v

/-! ### Mode switches at a strobe (R69, R70, R160) -/

/-- The switch has applied to its last group: MODE_PENDING reads 0, the requester is answered, and the next switch is
validated (R69, R70). -/
def State.switchDone (s : State) : State :=
  match s.cfg.cur with
  | none => s
  | some w =>
    let s := (s.wr .MODE_PENDING 0 0 0).inc .MODE_SWITCHES
    let s := { s with cfg := { s.cfg with cur := s.cfg.waiting.head?, waiting := s.cfg.waiting.drop 1, groupsLeft := [] } }
    s.reply w.org .OK

/-- The switch has applied to a group. -/
def State.switchGroup (s : State) (g : Nat) : State :=
  if s.cfg.groupsLeft.contains g then
    let l := s.cfg.groupsLeft.filter (· ≠ g)
    let s := { s with cfg := { s.cfg with groupsLeft := l } }
    if l.isEmpty then s.switchDone else s
  else s

/-- The ranges that a switch writes for a channel, as one request (R160). -/
def modeRange (ts : List Triple) (c : Nat) : Option RangeReq :=
  let f (o : Obj) : Option Nat := (ts.find? fun t => t.o = o ∧ t.i = c).map fun t => t.v.int.toNat
  match f .V_RANGE, f .I_RANGE with
  | none, none => none
  | v, i => some { vr := v, ir := i, src := .mode }

/-- Values of a switch at the strobe of a group; its ranges follow as range requests. -/
def State.modeValues (s : State) (ts : List Triple) : State :=
  s.each ts fun s t => if t.o = .V_RANGE ∨ t.o = .I_RANGE then s else s.applyObj t.o t.i t.e t.v

/-! ### Passes of a strobe -/

/-- A channel that a MUTE reaches at this strobe (R98, R159, R228); `made` tells that its Slide is between make and completion, so
that a fence of the group's Slide is one. -/
def muted (g : Nat) (l : List Change) (c : Nat) (made : Bool := false) : Bool :=
  l.any fun x =>
    match x.what with
    | .mute d _ => d == c
    | .out d k _ => d == c && k == 3
    | .reed d k => d == c && k == 1
    | .engineFence => grpOf c == g
    | .slideFence => grpOf c == g && made
    | _ => false

/-- An OFF of the channel that arrived behind a range request of the same strobe (R159). -/
def offAfter (c : Nat) (seen : Bool) : List Change → Bool
  | [] => false
  | x :: l =>
    match x.what with
    | .range d _ => offAfter c (seen || d == c) l
    | .out d k _ => (seen && d == c && k == 0) || offAfter c seen l
    | .reed d k => (seen && d == c && k == 2) || offAfter c seen l
    | _ => offAfter c seen l

/-- The channel that calibration carries on the spare loses it at this strobe: the spare fails, or its own home, or a slice whose
channel takes the spare (R14, R328). -/
def State.evictedHere (s : State) (g : Nat) (l : List Change) (c : Nat) : Bool :=
  (s.gr g).spare == 2 && c == 32 * g + (s.gr g).spareFor && !s.latch && l.any fun x =>
    match x.what with
    | .sliceFence p _ =>
      (p == 32 && !s.fencedSrc (srcCrook g)) || (p == homeOf c && (s.ch c).onSpare) ||
        (p != 32 && p != homeOf c && (s.ch (32 * g + p)).out != .retired && !s.fencedSrc (srcCrook g) && !s.fencedSrc (srcSlice g 32))
    | _ => false

/-- A MUTE reaches the channel at this strobe (R98, R159, R228, R320, R328): its own, one by which calibration holds it, or one with
which it leaves the spare. -/
def State.mutedHere (s : State) (g : Nat) (l : List Change) (c : Nat) (made : Bool := false) : Bool :=
  muted g l c made || s.evictedHere g l c ||
    (s.calHolds g == some c && l.any fun x => match x.what with | .calBegin => true | _ => false)

/-- The slice that carries the channel fails at this strobe (R159). -/
def State.failsHere (s : State) (g : Nat) (l : List Change) (c : Nat) : Bool :=
  let at_ := if (s.ch c).onSpare then 32 else homeOf c
  l.any fun x => match x.what with | .sliceFence p _ => grpOf c == g && p == at_ | _ => false

/-- The switch settings of a channel's state and ranges, with its code as it is (R90, R93). One that has left the spare of a command that
no longer measures its slice ends its span (R321). -/
def State.reconnect (s : State) (c : Nat) : State :=
  let d := (s.ch c).dac
  ((s.modCh c fun h => { h with apart := false, calSpan := h.calSpan && h.calMeas }).switches c).modCh c fun h => { h with dac := d }

/-- The 20 µs of an ARM are over at this strobe (R99). -/
def State.armOver (s : State) (t : Option Nat) : Option Nat := t.filter fun t => decide (s.now < t + 20000)

/-- A channel follows its preset at this strobe: in ARMED, but for the isolation of a calibration, and on a member that stands by (R99, R320,
R413). A held tick keeps the code (R129). -/
def State.presets (s : State) (g c : Nat) : Bool :=
  let h := s.ch c
  !h.held && ((s.passive g && h.out.charged) || (h.out == .armed && !h.transit && !h.calMeas && s.lawRuns g))

/-- A channel at the start of a strobe: its staged code applies, or its preset (R26, R99, R413). The slice that fails at the strobe
keeps its last code (R93, R343); one that a handover has set apart connects (R93). -/
def State.codePass (s : State) (g : Nat) (l : List Change) (c : Nat) : State :=
  let h := s.ch c
  let s := s.modCh c fun h => { h with written := [], armFrom := s.armOver h.armFrom }
  let s := if h.apart then s.reconnect c else s
  if s.failsHere g l c && !s.latch then s.undo c
  else match h.run.staged with
  | some q =>
    if h.run.ran && !h.held then
      let s := s.modCh c fun h => { h with dac := q }
      if h.run.sat then s.inc .LOOP_SAT_TICKS c else s
    else s
  | none => if s.presets g c then s.modCh c fun h => { h with dac := s.preset c } else s

/-- A change that needs nothing but its strobe (R27, R46): values, holds, re-bases, the values of a mode switch. -/
def State.valuePass (s : State) (x : Change) : State :=
  match x.what with
  | .set o i e v => if o = .DECL_I then s else (s.setParam o i e v).answer x.ans .OK
  | .modeApply _ ts => s.modeValues ts
  | .hold c => (s.modCh c fun h => { h with holdBit := h.bank.isSome }).answer x.ans .OK
  | .commitHold c => (s.modCh c fun h => { h with holdBit := h.bank.isSome }).answer x.ans .OK
  | .rebase c => (s.rebase c).answer x.ans .OK
  | _ => s

/-- A request in the pending slot starts where its channel is ready, after the checks that can have changed (R142). -/
def State.pendStart (s : State) (c : Nat) : State :=
  match (s.ch c).slide.pend with
  | none => s
  | some r =>
    let s := s.modSlide c fun l => { l with pend := none }
    match s.rangeLate c r with
    | some (st, k) => s.rangeRefuse c r st k
    | none =>
      if s.target c r = (s.rdN .V_RANGE c, s.rdN .I_RANGE c) then s.rangeDirect c r else s.slideStart c r

/-- What falls to a strobe keeps a Slide from its make step at it: a MUTE, an OFF, a failure of the slice (Table "Slide
collisions"). -/
def State.makeStops (s : State) (g : Nat) (l : List Change) (c : Nat) : Bool :=
  s.mutedHere g l c true || s.failsHere g l c || offAfter c true l || (s.ch c).transit || !(s.ch c).out.loop

/-- The Slide of a channel at a strobe (R143, R149, R159). Steps need an evaluated tick, but for a break in MUTE. -/
def State.slidePass (s : State) (g : Nat) (l : List Change) (c : Nat) : State :=
  let h := s.ch c
  let ok := h.run.ran && !h.held
  match h.slide.phase with
  | .idle => if h.slide.pend.isSome && !s.makeStops g l c then s.pendStart c else s
  | .due =>
    match h.slide.req with
    | some r => if ok && !s.makeStops g l c then s.slideMake c r else s
    | none => s
  | .prep n => s.modSlide c fun l => { l with phase := .prep (n - 1) }
  | .made => if ok || h.out == .mute then s.slideBreak c else s
  | .broken n =>
    if h.offWait then s.rampStart c h.offCause []
    else s.modSlide c fun l => { l with phase := .broken (n - 1) }

/-- The channels of a group that are not RETIRED. -/
def State.serving (s : State) (g : Nat) : List Nat := (chansOf g).filter fun c => (s.ch c).out != .retired

/-- The fence of a slice in force (R342, R345): a slice failure that no spare takes is announced to a partner (R414). -/
def State.fencePass (s : State) (g p : Nat) : State :=
  if s.latch then s
  else
    let n := s.peerGroups
    let before := s.serving g
    let s := s.sliceFenceAt g p
    if (s.serving g).length ≠ before.length ∧ n.contains g then s.groupFailOut g else s

/-- A stop of the control engine at its strobe (R134): it waits for a start that came before it. A stop that an ARM has
come before leaves the engine running, and a start behind it has nothing to do. -/
def State.ctlStopAt (s : State) (g : Nat) (a : Ans) : State :=
  let r := s.gr g
  if !r.ctl && r.ctlStart.isSome then s.modGr g fun r => { r with arrived := { ans := a, what := .ctlStop } :: r.arrived }
  else if (chansOf g).any fun c => (s.ch c).out.charged then
    let s := ((s.wr .CTL_RUN g 0 1).modGr g fun r => { r with ctlStart := none }).answer a .STATE_CONFLICT
    s.answers (r.ctlStart.getD []) .OK
  else (s.modGr g fun r => { r with ctl := false }).answer a .OK

/-- A stop of the filter engine at its strobe (R194): every aperture in progress closes as a short record. A stop waits for
a start that came before it, as R134 says of the control engine (DEDUCED, log 22). -/
def State.filtStopAt (s : State) (g : Nat) (a : Ans) : State :=
  if (s.gr g).filt = .stopped ∧ (s.gr g).filtStart.isSome then
    s.modGr g fun r => { r with arrived := { ans := a, what := .filtStop } :: r.arrived }
  else
  let s := s.each (chansOf g) fun s c => s.rebase c
  (s.modGr g fun r => { r with filt := .stopped, fill := 0 }).answer a .OK

/-- DECL_I at its strobe, with its admission (R35, R37) where the governor has not reviewed it on arrival. -/
def State.declAt (s : State) (c : Nat) (v : Int) (a : Ans) (adm : Option Bool := none) : State :=
  let s' := s.setParam .DECL_I c 0 v
  if adm.getD (s.admits s') then s'.answer a .OK else s.refuseBudget.answer a .OUTPUT_BUDGET

/-- Output commands, Reed OFFs, engine stops and declarations, in the order of arrival (R37, R98, R134, R285). A command to a channel
that has just retired at this strobe is inapplicable (R98): `gone` lists those. A filter engine that enters RUNNING begins a new window;
the one that a stop left in progress enters no aggregate (R189; DESIGN CHOICE, log 101). -/
def State.outPass (s : State) (g : Nat) (gone : List Nat) (x : Change) : State :=
  match x.what with
  | .out c k o => if gone.contains c then s.reply o .STATE_CONFLICT else if k = 3 then s else s.outAt c k o x.adm
  | .reed c k => if k = 2 then s.reedAct c 2 else s
  | .ctlStop => s.ctlStopAt g x.ans
  | .filtStop => s.filtStopAt g x.ans
  | .filtRun =>
    if (s.gr g).filt = .filling then
      let p := s.rdN .AGG_PERIOD g * 1000
      let s := (s.modGr g fun r => { r with filt := .running, windows := if p = 0 then 0 else r.ticks / p * p, aggP := p }).aggOpen g
      s.each (chansOf g) fun s c => s.modAper c Aper.begun
    else s
  | .set o c _ v => if o = .DECL_I then s.declAt c v x.ans x.adm else s
  | _ => s

/-- The range requests of a strobe by channel, in order of arrival; the later of two wins, field by field, and the earlier
is answered with it (R27, Table "Slide collisions"). -/
def mergeRange (l : List (Nat × RangeReq)) (c : Nat) (r : RangeReq) : List (Nat × RangeReq) :=
  match l with
  | [] => [(c, r)]
  | (d, q) :: l =>
    if d = c then
      let a : List Origin := match q.src with | .host _ | .event .. => [q.src] | _ => []
      (c, { vr := r.vr <|> q.vr, ir := r.ir <|> q.ir, src := r.src, sp := r.sp <|> q.sp, lim := r.lim <|> q.lim
            fm := r.fm <|> q.fm, also := q.also ++ a ++ r.also }) :: l
    else (d, q) :: mergeRange l c r

/-- The range requests of the frozen changes. -/
def rangesOf (l : List Change) : List (Nat × RangeReq) :=
  l.foldl (fun m x =>
    match x.what with
    | .range c r => mergeRange m c r
    | .modeApply _ ts =>
      (ts.map (·.i)).eraseDups.foldl (fun m c => match modeRange ts c with | some r => mergeRange m c r | none => m) m
    | _ => m) []

/-- Range requests at their strobe; a MUTE, an OFF behind them or a failure of the slice at the strobe cancels them (R139,
R159). -/
def State.rangePass (s : State) (g : Nat) (l : List Change) : State :=
  s.each (rangesOf l) fun s p =>
    let h := s.ch p.1
    let stops := s.mutedHere g l p.1 && h.out.loop && !h.transit || s.failsHere g l p.1 && (h.out.loop || h.out == .retired)
      || offAfter p.1 false l && h.out.live && h.transit
    if stops then s.rangeRefuse p.1 p.2 .RANGE_REFUSED 4 else s.rangeApply p.1 p.2

/-- Chanter commands (R225): those that arrived before clock 44 ahead of what the Chanters deliver, the others behind it (R27, R207). -/
def State.chtPass (s : State) (late : Bool) (x : Change) : State :=
  match x.what with
  | .cht c k o => if x.late = late then s.chtCmd c k o else s
  | _ => s

/-- The channels whose APERTURE_N a change sets that arrived behind what the Chanters delivered (R27, R230). -/
def lateAperOf (l : List Change) : List Nat :=
  l.flatMap fun x =>
    if !x.late then []
    else match x.what with
    | .set .APERTURE_N c _ _ => [c]
    | .modeApply _ ts => ts.filterMap fun t => if t.o = .APERTURE_N then some t.i else none
    | _ => []

/-- A MUTE comes into force at this strobe, so that the Chanter makes no move at it (R228). -/
def State.mutesNow (s : State) (g : Nat) (l : List Change) (c : Nat) : Bool :=
  let h := s.ch c
  let made := match h.slide.phase with | .made | .broken _ => true | _ => false
  s.mutedHere g l c made && h.out.loop && !h.transit

/-- The channels whose PULSE gives way to its base level at this strobe (R205). -/
def State.pulsesOver (s : State) (g : Nat) (l : List Change) : List Nat :=
  if s.standby g then [] else (chansOf g).filter fun c => s.pulseEnds c && !s.mutesNow g l c

/-- Ends of units, connections, applications of units, waveform points (R206 to R209, R222). None of a unit where a MUTE comes into
force (R228). -/
def State.unitPass (s : State) (g : Nat) (l : List Change) (x : Change) : State :=
  match x.what with
  | .unitEnd c => if s.endReady c && !s.interrupted c && !s.mutesNow g l c then s.unitEnd c else s
  | .endpoint c k => s.connectAt c k x.ans
  | .unit c ue =>
    if s.unitReady c && !(s.ch c).cht.live && !s.mutesNow g l c && !s.standby g then s.unitApply c ue else s
  | .wave c ue => if s.waveDue c && !s.mutesNow g l c then s.waveStep c ue else s
  | _ => s

/-- The objects that a Chanter's delivery sets (R205, R207). -/
def unitSets (o : Obj) : Bool := o == .SETPOINT || o == .COMPL_LIM || o == .FORCE_MODE || o == .APERTURE_N

/-- Ranges that arrive later than a Chanter's delivery at the same strobe, where they take effect without a Slide (R27, R138). -/
def State.winRange (s : State) (c : Nat) (r : Option RangeReq) : State :=
  match r with
  | some r => if (s.ch c).out.loop then s else s.rangeDirect c { r with src := .mode, also := [] }
  | none => s

/-- A value of another source that arrives later than a Chanter's delivery at the same strobe wins (R27, R230): behind the delivery
of a unit or point in the list, or after clock 44 against the fall of a PULSE in `falls`. -/
def State.winPass (s : State) (falls seen : List Nat) : List Change → State
  | [] => s
  | x :: l =>
    let wins (o : Obj) (c : Nat) : Bool :=
      (seen.contains c && unitSets o) || (x.late && falls.contains c && o == .SETPOINT)
    match x.what with
    | .unit c _ => s.winPass falls (c :: seen) l
    | .wave c _ => s.winPass falls (c :: seen) l
    | .set o c e v => (if wins o c then s.setParam o c e v else s).winPass falls seen l
    | .range c r => (if seen.contains c then s.winRange c (some r) else s).winPass falls seen l
    | .modeApply _ ts =>
      let s := s.modeValues (ts.filter fun t => wins t.o t.i)
      (s.each (seen.filter fun c => (modeRange ts c).isSome) fun s c => s.winRange c (modeRange ts c)).winPass falls seen l
    | _ => s.winPass falls seen l

/-- MUTE from any cause, Reed actions and fences of engines (R98, R101, R337). -/
def State.mutePass (s : State) (g : Nat) (gone : List Nat) (x : Change) : State :=
  match x.what with
  | .out c k o => if k = 3 ∧ ¬ gone.contains c then s.outAt c 3 o else s
  | .mute c k => (s.muteAt c k).getD s
  | .reed c k => if k = 1 then s.reedAct c 1 else s
  | .engineFence => s.engineFenceAt g
  | .slideFence => s.slideFenceAt g
  | _ => s

/-- Calibration and pair at a strobe (R320, R325, R414, R422), and the groups of a mode switch (R69). -/
def State.latePass (s : State) (g : Nat) (x : Change) : State :=
  match x.what with
  | .calBegin => s.calBegin g
  | .calReturn => s.calReturn g
  | .calCommit => s.calCommitAt g
  | .pairTake => s.takeAt g
  | .isolate => s.isolateAt g
  | .modeApply .. => s.switchGroup g
  | _ => s

/-- The second of two Slides makes at this strobe, the completion strobe of the first (R151, R152). -/
def State.legMakes (s : State) (c : Nat) : Bool :=
  let h := s.ch c
  match h.slide.phase, h.slide.leg2, h.slide.req with
  | .broken 0, some ir, some r =>
    h.out.loop && internalI ir && (s.rangeLate c { r with vr := none, ir := some ir }).isNone
  | _, _, _ => false

/-- A make or break step falls to this strobe (R122, R152). -/
def slideStep : SlidePhase → SlidePhase → Bool
  | .made, .broken _ => true
  | .broken _, _ => false
  | .made, _ => false
  | _, .made => true
  | _, .broken _ => true
  | _, .prep 0 => true
  | _, _ => false

/-- The FORCE and COMPL decision of a channel (R101, R122, R126, R127). An excursion in MUTE selects the limit by the sign of the
limited quantity: in FI where the current exceeded decl, by that of the voltage; it sets both counts of R122 to 0 (DESIGN CHOICE,
log 73). -/
def State.complPass (s : State) (c : Nat) (stepped : Bool) : State :=
  let h := s.ch c
  if h.out.loop && !h.transit && h.run.ran && !h.held && !stepped then
    let lim := if h.run.limit then h.limTicks + 1 else 0
    let free := if h.run.limit then 0 else h.freeTicks + 1
    let s := s.modCh c fun h => { h with limTicks := lim, freeTicks := free }
    if h.out = .force ∧ s.rdN .COMPL_ENTER c ≤ lim then
      (s.setOut c .compl false 4).modCh c fun h => { h with limTicks := 0, freeTicks := 0 }
    else if h.out = .compl ∧ s.rdN .COMPL_EXIT c ≤ free then
      (s.setOut c .force false 4).modCh c fun h => { h with limTicks := 0, freeTicks := 0 }
    else s
  else if h.out = .mute ∧ ¬ h.transit ∧ ¬ h.held ∧ 2 ≤ h.run.excur then
    let up := decide (0 ≤ ((s.lawPar c).1.roles h.v h.i).2)
    let s := (s.setOut c .compl false 5).loadCode c
    s.modCh c fun h => { h with limTicks := 0, freeTicks := 0, run := { h.run with sel := if up then 1 else 2, excur := 0 } }
  else s

/-- Bias time of a settled endpoint at a strobe of the member that drives, one count for each full second (R251, R412). -/
def State.biasPass (s : State) (c : Nat) : State :=
  let h := s.ch c
  match h.hold.ep with
  | none => s
  | some p =>
    if h.hold.coming.isSome || !(h.out.live || (h.out == .safe && h.transit)) then s
    else
      let b := h.hold.bias + s.tickUs (grpOf c) * 1000
      if b < 1000000000 then s.modHold c fun h => { h with bias := b }
      else (s.modHold c fun h => { h with bias := b - 1000000000 }).biasCount c p

/-- The governor's reservation of a channel ends with the last admitted request on its way (R37). -/
def State.pledgePass (s : State) (g c : Nat) : State :=
  let waits (x : Change) : Bool := x.adm == some true &&
    (match x.what with | .out d _ _ => d == c | .set _ d _ _ => d == c | _ => false)
  if (s.ch c).pledge = 0 ∨ ((s.gr g).frozen ++ (s.gr g).arrived).any waits then s
  else s.modCh c fun h => { h with pledge := 0 }

/-- The slices of a channel at the end of a strobe: a handover that began at it has its switches open (R93); in ARMED, the preset is
that of the ranges now in force (R99, R138). -/
def State.slicePass (s : State) (g c : Nat) : State :=
  let s := s.modCh c Chan.parted
  if s.presets g c then s.modCh c fun h => { h with dac := s.preset c } else s

/-- A channel at the end of a strobe: state decision, law, slice, counters, Chanter, record flags. -/
def State.endPass (s : State) (g : Nat) (c : Nat) (before : SlidePhase) (fresh_ : Bool) : State :=
  let s := s.complPass c (slideStep before (s.ch c).slide.phase || s.legMakes c)
  let s := ((s.lawPass c).slicePass g c).pledgePass g c
  let s := if (s.ch c).out = .compl then s.inc .COMPL_TICKS c else s
  let s := if s.standby g then s.standbyTick c fresh_ else (s.biasPass c).chtTick c fresh_
  if (s.gr g).filt = .running then s.modAper c fun a => { a with flags := a.flags ||| s.flagsNow c } else s

/-- The group load strobe (R26). Its passes follow the order of R98 and of arrival (R27). -/
def State.strobe (s : State) (g : Nat) : State :=
  let l := (s.gr g).frozen
  let cs := chansOf g
  let before := cs.map fun c => (s.ch c).slide.phase
  let again := cs.filter fun c => (s.ch c).cht.again
  let was := cs.map fun c => (s.ch c).cht
  let s := (s.modGr g fun r => { r with frozen := [], lateAper := lateAperOf l }).mirrorPass g
  let turns := (cs.zip was).map fun x => s.standby g && x.2.turned (s.ch x.1).cht
  let s := (s.holdCtx g).thermPass g
  let s := s.each cs fun s c => s.codePass g l c
  let s := s.each l fun s x => s.valuePass x
  let s := s.each cs fun s c => s.slidePass g l c
  let up := s.serving g
  let s := s.each (fencesOf l) fun s p => s.fencePass g p
  let gone := up.filter fun c => (s.ch c).out == .retired
  let s := s.each l fun s x => s.outPass g gone x
  let s := s.rangePass g l
  let s := s.each l fun s x => s.chtPass false x
  let units := cs.map fun c => (s.ch c).cht.begun
  let falls := s.pulsesOver g l
  let s := s.each falls fun s c => s.pulseFall c
  let s := (s.each l fun s x => s.unitPass g l x).winPass falls [] l
  let s := s.each l fun s x => s.chtPass true x
  let s := s.each l fun s x => s.mutePass g gone x
  let s := s.each l fun s x => s.latePass g x
  let s := (s.handTick g).pairStrobe g
  let s := s.each (cs.zip (before.zip (units.zip turns))) fun s p =>
    s.endPass g p.1 p.2.1 (p.2.2.2 || p.2.2.1 && !(s.ch p.1).cht.begun)
  (s.each again fun s c => s.reExecute c).mirrorOut g

/-! ### TBA ticks of a group without strobes (R96, R280) -/

/-- The slices' own transitions of a group without strobes (R20, R96): closed-loop OFF ramps go on in the safe ramp generator, MUTE,
OFF and Reed actions apply, and ARM, ENABLE and RESUME that still wait answer STATE_CONFLICT; everything else waits. -/
def State.tbaGroup (s : State) (g : Nat) : State :=
  let now (x : Change) : Bool := match x.what with | .mute .. | .reed .. | .engineFence | .out .. => true | _ => false
  let l := (s.gr g).trips ++ (s.gr g).frozen ++ (s.gr g).arrived
  let s := s.modGr g fun r => { r with trips := [], frozen := [], arrived := l.filter fun x => !now x }
  let s := s.each (chansOf g) fun s c =>
    let s := s.rampHand c
    if (s.ch c).offWait then s.rampStart c (s.ch c).offCause [] else s
  let s := s.each (l.filter now) fun s x =>
    match x.what with
    | .out c k o => if k = 1 ∨ k = 2 ∨ k = 4 then s.reply o .STATE_CONFLICT else s.outAt c k o
    | .mute c k => (s.muteAt c k).getD s
    | .reed c k => s.reedAct c k
    | .engineFence => s.engineFenceAt g
    | _ => s
  s.each (chansOf g) fun s c => s.pledgePass g c

/-! ### What follows a strobe -/

/-- The tick's law of a channel was evaluated. -/
def Chan.evaluated (h : Chan) : Bool := h.run.ran && !h.held

/-- An OFF ramp has ended (R103, R128). -/
def State.rampOver (s : State) (c : Nat) : Bool :=
  let h := s.ch c
  h.transit && h.out.live && ((h.run.ramp == some 0 && h.run.rampOn) ||
    (match h.rampEnd with | some t => decide (t ≤ s.now) | none => false))

/-! ### Commands -/

/-- LOAD_STROBE (R26). -/
def execLoadStrobe (g : GroupNo) (s : State) : Host.Outcome State Fault Refusal :=
  .next (if s.framesRun ∧ s.strobes g then s.strobe g else s)

/-- ARM_TRANSIT_END (R99): at the first strobe 20 µs after ARM. -/
def execArmTransitEnd (c : ChanNo) (s : State) : Host.Outcome State Fault Refusal :=
  .next (let h := s.ch c
    if h.out = .armed ∧ h.transit ∧ h.armFrom = none ∧ s.strobes (grpOf c) then
      let s := s.modCh c fun h => { h with transit := false, dac := if h.held then h.dac else s.preset c, armAns := [] }
      s.answers h.armAns .OK
    else s)

/-- OFF_RAMP_END (R103): the strobe after the ramp has reached 0 V. -/
def execOffRampEnd (c : ChanNo) (s : State) : Host.Outcome State Fault Refusal :=
  .next (if s.rampOver c then s.offDone c else s)

/-- SAFE_RAMP_END (R104, R255). -/
def execSafeRampEnd (c : ChanNo) (s : State) : Host.Outcome State Fault Refusal :=
  .next (let h := s.ch c
    match h.rampEnd with
    | some t =>
      if h.out = .safe ∧ h.transit ∧ t ≤ s.now then
        ((s.modCh c fun h => { h with transit := false, rampEnd := none }).switches c).safeIsolated
      else s
    | none => s)

/-- SLIDE_PREP_END (R149): the make step of an up-Slide onto the booster range, with BG in DRIVE. -/
def execSlidePrepEnd (c : ChanNo) (s : State) : Host.Outcome State Fault Refusal :=
  .next (let h := s.ch c
    match h.slide.phase, h.slide.req with
    | .prep 0, some r => if h.evaluated then (s.slideMake c r).lawPass c else s
    | _, _ => s)

/-- SLIDE_COMPLETE (R143, R151): the second of two Slides starts with its checks, or the Slide is done; a pending request starts
at the next strobe (R142). -/
def execSlideComplete (c : ChanNo) (s : State) : Host.Outcome State Fault Refusal :=
  .next (let h := s.ch c
    match h.slide.phase with
    | .broken 0 =>
      match h.slide.leg2, h.slide.req with
      | some ir, some r =>
        if !h.out.loop then s.slideDone c
        else
          let r2 := { r with vr := none, ir := some ir }
          let s := s.inc .SLIDE_COUNT c
          let s := s.modCh c fun h =>
            { h with bg := if internalI (s.rdN .I_RANGE c) then .off else h.bg
                     slide := { h.slide with phase := .idle, req := none, leg2 := none } }
          (match s.rangeLate c r2 with
           | some (st, k) => s.rangeRefuse c r2 st k
           | none => (s.slideStart c r2).lawPass c)
      | _, _ =>
        s.slideDone c
    | _ => s)

/-- UNIT_BEGIN (R206): a unit that is due begins at this strobe. -/
def execUnitBegin (c : ChanNo) (sramBad : Bool) (s : State) : Host.Outcome State Fault Refusal :=
  .next (if s.standby (grpOf c) then s else s.unitBegin c sramBad)

/-- UNIT_APPLY (R207, R208): the conditions hold; the changes arrive at clock 44. -/
def execUnitApply (x : ApplyIn) (s : State) : Host.Outcome State Fault Refusal :=
  .next (if s.unitDue x.c ∧ ¬ s.standby (grpOf x.c) then s.push (grpOf x.c) none (.unit x.c (x.ue.map (·.val))) else s)

/-- UNIT_SETTLE (R209): Slide complete, endpoint settled; the dwell counts from this strobe. -/
def execUnitSettle (c : ChanNo) (s : State) : Host.Outcome State Fault Refusal :=
  .next (let h := s.ch c
    if h.cht.live ∧ h.cht.st = .settle ∧ s.settled c ∧ ¬ s.standby (grpOf c) then
      ((s.unitSettle c).chtTick c true).mirrorOut (grpOf c)
    else s)

/-- UNIT_END (R206): the dwell ends at the coming strobe. -/
def execUnitEnd (c : ChanNo) (s : State) : Host.Outcome State Fault Refusal :=
  .next (if s.endDue c ∧ ¬ s.standby (grpOf c) then s.push (grpOf c) none (.unitEnd c) else s)

/-- WAVE_POINT (R222, R224): a point falls due at the coming strobe. -/
def execWavePoint (c : ChanNo) (ue : Option (Fin 4)) (s : State) : Host.Outcome State Fault Refusal :=
  .next (if s.waveNext c ∧ ¬ s.standby (grpOf c) then s.push (grpOf c) none (.wave c (ue.map (·.val))) else s)

/-- A loss of REFCLK that has lasted 100 ms is reported again, as GRAVE (Table "Fault kinds", CLOCK; the source DEDUCED, log 74). -/
def State.refTick (s : State) : State :=
  match s.clk.refAt with
  | some t =>
    if s.clk.refSaid ∨ s.now < t + 100000000 then s
    else { s with clk := { s.clk with refSaid := true } }.report (srcTb 0) 0x01 0 0 .grave
  | none => s

/-- TBA runs: after a stop it enters the stored cause (R21). -/
def State.tbaRuns (s : State) : State :=
  (if s.tb tbA = 4 then (s.setTb tbA 2).stopLogged else s).refTick

/-- TBA_TICK (R96, R279, R280, R335): buckets leak; groups without strobes transit and sample their Reeds; in deep sleep
every REED_SLEEP_DIV-th tick samples them. -/
def execTbaTick (reeds : List ReedIn) (s : State) : Host.Outcome State Fault Refusal :=
  .next (let s := s.tbaRuns.leak
    if s.pwr.asleep then
      let n := s.pwr.sleepTicks + 1
      if n < s.rdN .REED_SLEEP_DIV then { s with pwr := { s.pwr with sleepTicks := n } }
      else { s with pwr := { s.pwr with sleepTicks := 0 } }.reedAll reeds
    else
      let lost := allGroups.filter fun g => (s.gr g).powered && s.tb g != 2 && s.pwr.stage == 5
      let s := s.each lost fun s g => s.tbaGroup g
      s.reedAll (reeds.filter fun r => lost.contains (grpOf r.ch)))

end Sys2Proof.Machine
end

