-- ==== Sys2Proof/Machine/Drone.lean ====
section
/-! DEFINITION. Drone's work (R425 to R445) and the watch over the timebases (R20, R21), the EVI and EVO balls (R292, R295);
with the commands of these families. -/
namespace Sys2Proof.Machine
open Sys2Proof

/-! ### Waveforms (R218, R219) -/

/-- The points of a waveform change, with WAVE_LEN and WAVE_CRC (R218, R219). -/
def State.setWave (s : State) (n : Nat) (l : List Int) : State :=
  let s := { s with cfg := { s.cfg with waves := s.cfg.waves.put (fun _ => []) n l } }
  (s.wr .WAVE_LEN n 0 l.length).wr .WAVE_CRC n 0 (waveCrc l)

/-- WAVE_LEN at its execution (R218): points are kept or set to 0. -/
def State.waveResize (s : State) (n len : Nat) : State :=
  let l := (wavePoints s n).take len
  s.setWave n (l ++ List.replicate (len - l.length) 0)

/-! ### Scrubs (R428, R429) -/

/-- A block of channel c that the scrub finds unreadable is discarded (R193): block k of those that wait, oldest first, or the open one
after them. -/
def State.scrubBlock (s : State) (c k : Nat) : State :=
  match (s.ch c).aper.ready[k]? with
  | some b =>
    let n := b.recs.length
    let s := ((s.inc .REC_LOST c n).inc .REC_LOST_TOTAL 0 n).inc .BLOCK_DISCARDS
    (s.modAper c (Aper.dropBlock b)).drainCheck b.stream
  | none =>
    let n := (s.ch c).aper.block.length
    if n = 0 then s
    else
      let s := ((s.inc .REC_LOST c n).inc .REC_LOST_TOTAL 0 n).inc .BLOCK_DISCARDS
      s.modAper c fun a => { a with block := [], gap := true }

/-- The endpoint map of the active half, element k (R236). -/
def State.imageMap (s : State) (k : Nat) : Nat :=
  if s.cfg.loaded && s.half.valid then ((s.half.map.find? fun p => p.1 = k).map (·.2)).getD (mapDefault k) else mapDefault k

/-- The calibration elements of the active half (R312). -/
def Nvm.calHalf (v : Nvm) : SMap (Option CalElem) := if v.calActive = 0 then v.cal0 else v.cal1

/-- Table "Uncorrectable SRAM errors": the region's response, by the element that the word holds (numbers DESIGN CHOICE, log 20): of the
record buffer channel + 512 × block, of the miscellaneous region the endpoint map, then from 2^20 on the calibration elements in force. A
sweep entry halts its Chanter when it is fetched (R200). -/
def State.sramBad (s : State) (region k : Nat) : State :=
  match region with
  | 1 => s.scrubBlock (k % 512) (k / 512)
  | 3 => { s with mtx := { s.mtx with ledger := s.mtx.ledger.put (fun _ => 0) k (s.nvm.ledger.get (fun _ => 0) k)
                                      dirty := s.mtx.dirty.filter (· ≠ k) } }
  | 4 => if (s.se k).kind = 0 then s else s.dropSession k
  | 5 =>
    if k < 1048576 then { s with mtx := { s.mtx with map := s.mtx.map.put mapDefault k (s.imageMap k) } }
    else if k < 1048576 + 6336 then
      { s with cal := s.cal.put (fun _ => none) (k - 1048576) (s.nvm.calHalf.get (fun _ => none) (k - 1048576)) }
    else s
  | _ => s

/-- One finding of the SRAM scrub (R428). -/
def State.sramFind (s : State) : ScrubFind → State
  | .clean => s
  | .corrected w => { s with drn := { s.drn with sramCe := s.drn.sramCe + 1 } }.report srcSram 0x18 w 0
  | .uncorrectable w r k => (s.report srcSram 0x19 w r .transient).sramBad r k

/-- The bank of a 64-bit NVM word (R430: banks of 8 Mbit). -/
def nvmBank (w : Nat) : Nat := w / 131072 % 16

/-- A ledger element that NVM has lost (Table "Uncorrectable NVM words"). -/
def lostLedger : Nat := ledMake 268435455 4294967295 true false false true

/-- Table "Uncorrectable NVM words": Drone's action by area; `k` is the element that the word holds. Elements of the
calibration area are numbered from the factory copy, then half 0, then half 1; of the logs from the fault log. -/
def State.nvmBad (s : State) (area k : Nat) : State :=
  match area with
  | 0 =>
    if s.mtx.lines.contains k then
      { s with nvm := { s.nvm with ledger := s.nvm.ledger.put (fun _ => 0) k (s.ledgerEl k) } }
    else
      { s with nvm := { s.nvm with ledger := s.nvm.ledger.put (fun _ => 0) k lostLedger }
               mtx := { s.mtx with ledger := s.mtx.ledger.put (fun _ => 0) k lostLedger } }
  | 1 =>
    let n := k / 65536
    let j := k % 65536
    let l := wavePoints s n
    if l.length ≤ j then s
    else s.setWave n (l.set j (if j = 0 then 0 else l.getD (j - 1) 0))
  | 2 =>
    if k = 0 then { s with nvm := { s.nvm with half0 := { s.nvm.half0 with valid := false } } }
    else { s with nvm := { s.nvm with half1 := { s.nvm.half1 with valid := false } } }
  | 3 =>
    let n := k % 6336
    if k < 6336 then { s with nvm := { s.nvm with factoryBad := n :: s.nvm.factoryBad } }
    else if k < 12672 then
      let x := if s.nvm.calActive = 0 then s.cal.get (fun _ => none) n else s.nvm.cal1.get (fun _ => none) n
      { s with nvm := { s.nvm with cal0 := s.nvm.cal0.put (fun _ => none) n x } }
    else
      let x := if s.nvm.calActive = 1 then s.cal.get (fun _ => none) n else s.nvm.cal0.get (fun _ => none) n
      { s with nvm := { s.nvm with cal1 := s.nvm.cal1.put (fun _ => none) n x } }
  | 4 =>
    if k < 4096 then { s with nvm := { s.nvm with flog := s.nvm.flog.put (fun _ => 0) k 0 } }
    else if k < 8192 then { s with nvm := { s.nvm with elog := s.nvm.elog.put (fun _ => 0) (k - 4096) 0 } }
    else s
  | _ => s

/-- The page whose content stands in page l of the reserve: one of the bank that it replaces, or one that has moved there (R434, R435). -/
def State.reserveHolds (s : State) (l : Nat) : Option (Nat × Nat) :=
  let r := s.rdN .NVM_RESERVE_USE
  if r < 15 then some (r, l)
  else (s.nvm.moved.find? fun x => x.2 = l + 1).map fun x => (x.1 / 256, x.1 % 256)

/-- The page that a 64-bit NVM word belongs to; a free page of the reserve carries none. -/
def State.wordPage (s : State) (w : Nat) : Option (Nat × Nat) :=
  if nvmBank w = 15 then s.reserveHolds (w % 131072 / 512) else some (nvmBank w, w % 131072 / 512)

/-- One finding of the NVM scrub (R429): a corrected word is rewritten, an uncorrectable one is acted on by the area whose content it
carries, and its page written; the factory copy is left as it is. A word of a fenced bank is not scrubbed. -/
def State.nvmFind (s : State) : ScrubFind → State
  | .clean => s
  | .corrected w =>
    let b := nvmBank w
    if s.fencedSrc (srcBank b) then s
    else
      let s := ({ s with drn := { s.drn with nvmCe := s.drn.nvmCe + 1 } }.inc .NVM_CE_COUNT b).report (srcBank b) 0x1A (w % 131072) 0
      s.nvmPut (s.wordPage w).toList
  | .uncorrectable w _ k =>
    let b := nvmBank w
    if s.fencedSrc (srcBank b) then s
    else
      let s := (s.inc .NVM_UE_COUNT b).report (srcBank b) 0x1B (w % 131072) (bankArea b) .transient
      match s.wordPage w with
      | none => s
      | some p =>
        let a := bankArea p.1
        (s.nvmBad a k).nvmPut (if a = 3 ∧ k < 6336 then [] else [p])

/-! ### NVM pages (R431 to R436) -/

/-- The physical page of a logical one after m moves of the gap (R432; the order of the moves DESIGN CHOICE, log 19). -/
def physPage (m l : Nat) : Nat :=
  let gap := 256 - m % 257
  let p := (l + m / 257) % 256
  if gap ≤ p then p + 1 else p

/-- One more write of a physical page (R432). -/
def Nvm.wearPage (v : Nvm) (b p : Nat) : Nvm :=
  { v with wear := v.wear.put (fun _ => 0) (b * 257 + p) (v.wear.get (fun _ => 0) (b * 257 + p) + 1) }

/-- The gap page of a bank holds a page of another bank, moved there from the reserve (R435). -/
def Nvm.gapUsed (v : Nvm) (b : Nat) : Bool := v.moved.any fun x => x.2 = 257 + b

/-- A page write of a bank: its wear, and after 64 writes a move of the gap (R432), unless a page from the reserve stands there (DESIGN
CHOICE, log 107). -/
def State.pageWrite (s : State) (b l : Nat) : State :=
  let m := s.nvm.gap.get (fun _ => 0) b
  let v := s.nvm.wearPage b (physPage m l)
  let n := v.since.get (fun _ => 0) b + 1
  if n < 64 ∨ v.gapUsed b then { s with nvm := { v with since := v.since.put (fun _ => 0) b n } }
  else
    let v := v.wearPage b (256 - m % 257)
    { s with nvm := { v with since := v.since.put (fun _ => 0) b 0, gap := v.gap.put (fun _ => 0) b (m + 1) } }

/-- A page is written where it stands (R432, R434, R435): in its own bank, in the reserve, or in a gap page. -/
def State.placeWrite (s : State) (p : Nat × Nat) : State :=
  let at_ := s.moved p
  if s.fencedSrc (srcBank p.1) then s.pageWrite 15 p.2
  else if at_ = 0 then s.pageWrite p.1 p.2
  else if at_ ≤ 256 then s.pageWrite 15 (at_ - 1)
  else { s with nvm := s.nvm.wearPage (at_ - 257) (256 - s.nvm.gap.get (fun _ => 0) (at_ - 257) % 257) }

/-- The bank that a page stands in. -/
def State.placeBank (s : State) (p : Nat × Nat) : Nat :=
  let at_ := s.moved p
  if s.fencedSrc (srcBank p.1) then 15 else if at_ = 0 then p.1 else if at_ ≤ 256 then 15 else at_ - 257

/-- A buffered page may be written: its bank is not under copy, and 1 ms has passed since its last write (R431, R435). -/
def State.pageFree (s : State) (p : Nat × Nat) : Bool :=
  s.drn.writes.contains p && s.drn.copying != some p.1 &&
    decide (s.drn.pageAt.get (fun _ => 0) (p.1 * 256 + p.2) = 0 ∨ s.drn.pageAt.get (fun _ => 0) (p.1 * 256 + p.2) + 999999 ≤ s.now)

/-- A buffered page is written and verified (R431, R434 to R436), a reservation ahead of every other (R427). A page that does not verify
moves to the next page of the reserve, where it is written and verified in its turn (R434); with no page free there it is written again
in its place (DEDUCED, log 107). -/
def State.pageFlush (s : State) (p : Nat × Nat) (ok : Bool) : State :=
  if !s.pageFree p || (!(recPages 0).contains p && (recPages 0).any s.pageFree) then s
  else
    let k := p.1 * 256 + p.2
    let at_ := s.placeBank p
    let s : State := { s.placeWrite p with drn := { s.drn with pageAt := s.drn.pageAt.put (fun _ => 0) k (s.now + 1) } }
    if ok then s.pageDone p
    else
      let s : State := s.report (srcBank at_) 0x1C (p.2 * 512) 0 .transient
      let n : Nat := ((s.nvm.moved.map fun x => x.2).filter fun x => decide (x ≤ 256)).foldl max 0
      if s.rdN .NVM_RESERVE_USE = 255 ∧ s.drn.copying.isNone ∧ n < 256 ∧ ¬ s.fencedSrc (srcBank 15) then
        let s := s.inc .NVM_RELOCATED
        { s with nvm := { s.nvm with moved := s.nvm.moved.put (fun _ => 0) k (n + 1) }
                 drn := { s.drn with pageAt := s.drn.pageAt.put (fun _ => 0) k 0 } }
      else s

/-- A page that stood in the reserve leaves it for the gap page of another bank of its area (R435); where none is free it goes back to its
own bank (DESIGN CHOICE, log 107). -/
def State.leaveReserve (s : State) (k b : Nat) : State :=
  let free (x : Nat) : Bool := bankArea x == bankArea (k / 256) && x != k / 256 && x != b && !s.fencedSrc (srcBank x) && !s.nvm.gapUsed x
  let to_ := if k / 256 = b then none else (List.range 15).find? free
  let s := { s with nvm := { s.nvm with moved := s.nvm.moved.put (fun _ => 0) k (to_.elim 0 (257 + ·)) } }
  if k / 256 = b then s else s.placeWrite (k / 256, k % 256)

/-! ### Logs and telemetry (R437, R438) -/

/-- A margin in six bits, in units of 1/16 (Table "Telemetry frame"); of a group without a tick in the interval the greatest (DESIGN CHOICE,
log 114). -/
def pace6 : Option Nat → Nat
  | none => 63
  | some n => if 63 < n / 16 then 63 else n / 16

/-- Channels in a state. -/
def State.countOut (s : State) (o : OutState) : Nat := (s.chan.filter fun p => p.2.out == o).length

/-- The pace objects of the frame (R24, R38). A group without a tick in the interval keeps its value. -/
def State.paceFrame (s : State) : State :=
  let s := s.each allGroups fun s g => match (s.gr g).pace with | some n => s.wr .PACE_GROUP g 0 (satN 16 n) | none => s
  let l := allGroups.filterMap fun g => (s.gr g).pace
  match l with
  | [] => s
  | a :: l =>
    let m := satN 16 (l.foldl min a)
    let s := s.wr .PACE_MIN_FRAME 0 0 m
    if (m : Int) < s.rd .PACE_MIN_RESET then s.wr .PACE_MIN_RESET 0 0 m else s

/-- The group with the lowest margin; the lowest number where several share it. -/
def State.paceWorst (s : State) : Nat :=
  (allGroups.foldl (fun (m : Option (Nat × Nat)) g =>
    match (s.gr g).pace, m with
    | some n, some (k, _) => if n < k then some (n, g) else m
    | some n, none => some (n, g)
    | none, _ => m) none).elim 0 (·.2)

/-- The telemetry frame (Table "Telemetry frame"). -/
def State.frameBits (s : State) (pwr : Nat) : Nat :=
  let m := s.pwr.meas
  let wear := ((List.range 16).map fun b => s.wearMax b).foldl max 0
  let age := (s.tbp - nsOf (s.rdN .LEDGER_LAST)) / 1000000000
  let t := s.stampNow
  t * 2 ^ 432 + s.drn.frameNo % 2 ^ 32 * 2 ^ 400 + s.rdN .PACE_MIN_FRAME * 2 ^ 384 + m.vddc % 2 ^ 16 * 2 ^ 368
    + code 16 m.tempMax * 2 ^ 352 + code 16 m.tempMin * 2 ^ 336 + satN 16 m.powerMw * 2 ^ 320
    + satN 16 (ceilDiv s.charges 1000000) * 2 ^ 304 + s.paceWorst * 2 ^ 300 + pwr * 2 ^ 296 + satN 16 s.flt.interval * 2 ^ 280
    + (s.rdN .REC_LOST_TOTAL - s.drn.lostAt) % 2 ^ 32 * 2 ^ 248 + satN 16 (wear * 10000 / endurance) * 2 ^ 232
    + satN 16 s.drn.sramCe * 2 ^ 216 + satN 16 s.drn.nvmCe * 2 ^ 200 + satN 16 age * 2 ^ 184 + s.rdN .PTP_STATE * 2 ^ 180
    + b2n s.latch * 2 ^ 179 + b2n s.nvm.rtcValid * 2 ^ 178 + code 32 (s.rd .PTP_OFFSET) * 2 ^ 144
    + s.countOut .force % 1024 * 2 ^ 134 + s.countOut .compl % 1024 * 2 ^ 124 + s.countOut .mute % 1024 * 2 ^ 114
    + s.countOut .retired % 1024 * 2 ^ 104 + ((allGroups.map fun g => pace6 (s.gr g).pace * 2 ^ (8 + 6 * g)).sum)

/-- A telemetry frame is made (R438). -/
def State.telemetry (s : State) (pwr : Nat) : State :=
  let s := s.paceFrame
  let n := s.frameBits pwr
  let k := s.drn.frameNo % 3600
  let s := (s.wrV .TLM_LAST 0 0 (.bytes (beBytes 64 n))).wr .TLM_NEWEST 0 0 k
  let s := s.each allGroups fun s g => s.modGr g fun r => { r with pace := none, paceSaid := false }
  { s with drn := { s.drn with tlm := s.drn.tlm.put (fun _ => 0) k n, frameNo := (s.drn.frameNo + 1) % 2 ^ 32, sramCe := 0
                               nvmCe := 0, lostAt := s.rdN .REC_LOST_TOTAL }
           flt := { s.flt with interval := 0 }, pwr := { s.pwr with powerSaid := false } }

/-- Drone's schedules begin, at the end of the boot and at wake: each activity is due one interval later (R425; DESIGN CHOICE, log 108). -/
def State.droneFrom (s : State) : State :=
  { s with drn := { s.drn with dueSram := s.now + 1000000, dueNvm := s.now + 1000000000, dueLog := s.now + 500000000
                               dueLed := s.now + 60000000000, tlmSec := s.tbp / 1000000000
                               lineAt := s.now, reedAt := s.now } }

/-! ### Timebases (R20, R21) -/

/-- The response to the loss of a timebase (Table "Timebase loss"). -/
def State.tbLost (s : State) (t : Nat) : State :=
  if t < 16 then (s.calEnd t 8 .STATE_CONFLICT).each (chansOf t) fun s c => s.push t none (.mute c 7)
  else if t = tbM then s.each allGroups fun s g => s.monFreeze g
  else if t = 17 ∨ t = 18 then
    let n := srcNet (t - 17)
    if s.fencedSrc n then s else (s.setFence [n] (srcTb t) false).fenceNow n
  else if t = tbP then (if s.rd .PTP_STATE = 3 then s.servoTo 4 else s)
  else if t = 20 ∨ t = 21 then
    let n := srcSp (t - 20)
    if s.fencedSrc n then s else (s.setFence [n] (srcTb t) false).fenceNow n
  else if t = 22 then
    let s := if s.fencedSrc srcPair then s else s.setFence [srcPair] (srcTb t) false
    s.wr .PAIR_LANES 0 0 0
  else if t = tbC then { s with nvm := { s.nvm with rtcValid := false } }
  else s

/-- REFCLK is gone: every running timebase that derives from it is lost (R17; Table "Timebase loss"). -/
def State.refGone (s : State) : Bool :=
  (rangeFrom 16 7).all (fun t => s.tb t == 4) && allGroups.all fun g => s.tb g == 0 || s.tb g == 4

/-- The network ports go silent with REFCLK, in place of the fences that the loss of their timebases set (Table "Timebase loss";
DEDUCED, log 74). -/
def State.refLost (s : State) : State :=
  let own (p : Nat) (f : Nat × Bool) : Bool := f.1 == srcTb (17 + p) + 1
  let s := s.each [0, 1] fun s p =>
    let s := if own p (s.flt.fenced.get (fun _ => (0, false)) (srcNet p)) then
        { s with flt := { s.flt with fenced := s.flt.fenced.put (fun _ => (0, false)) (srcNet p) (0, false) } } else s
    if (s.port p).link then s.linkOff p else s
  { s with clk := { s.clk with refAt := some s.now, refSaid := false } }

/-- REFCLK is back, and the device reports the loss (Table "Timebase loss"). -/
def State.refBack (s : State) : State :=
  match s.clk.refAt with
  | some _ => { s with clk := { s.clk with refAt := none, refSaid := false } }.report (srcTb 0) 0x01 0 0 .severe
  | none => s

/-- A timebase comes back: a group's strobes resume at its next frame start (R96); monitors wait for their turn (R275). -/
def State.tbBack (s : State) (t : Nat) : State :=
  let s := if t < 23 then s.refBack else s
  if t < 16 then s.setTb t 1
  else
    let s := s.setTb t 2
    if t = 22 then s.lanesUp else if t = tbM then s.each allGroups fun s g => s.monThaw g else s

/-- The detail of a CLOCK report (Table "Fault kinds"). -/
def clkDetail : ClkState → Nat
  | .good => 0 | .stopped => 0 | .fast => 1 | .slow => 2

/-- A monitor window of a timebase ends (R20): a loss needs more than one window. -/
def State.clockWindow (s : State) (t : Nat) (f : ClkState) : State :=
  let warn := bit s.clk.tbWarn t
  let set (b : Bool) (s : State) : State := { s with clk := { s.clk with tbWarn := setBit s.clk.tbWarn t b } }
  if t = tbA then s
  else if f = .good then
    let s := set false s
    if s.tb t = 4 then s.tbBack t else s
  else if s.tb t ≠ 2 then s
  else if !warn then set true s
  else
    let s := (((set false s).setTb t 4).report (srcTb t) 0x01 0 (clkDetail f) .severe).tbLost t
    if s.refGone ∧ s.clk.refAt = none then s.refLost else s

/-! ### Commands -/

/-- CLOCK_MONITOR_WINDOW (R20). -/
def execClockMonitorWindow (tb : Fin 25) (found : ClkState) (s : State) : Host.Outcome State Fault Refusal :=
  .next (s.clockWindow tb found)

/-- TBA_STOP_DETECT (R21): the one-shot sets the latch without the collector's intake, and stores the cause beside it. -/
def execTbaStopDetect (s : State) : Host.Outcome State Fault Refusal :=
  .next (let r : Report := ⟨⟨srcTb tbA, 0x01, 0, 0, .grave⟩, .grave, s.stampNow⟩
    { (s.setTb tbA 4).safeTrip with stopCause := some (logElement r 0 1) })

/-- TBA_FREQ_CHECK (R21): over 32 TBC periods, ±10 % of 976.5625 edges; suspended while TBC is lost. -/
def execTbaFreqCheck (edges : Nat) (s : State) : Host.Outcome State Fault Refusal :=
  .next (if s.tb tbC = 4 then s
    else if 100000 * edges < 87890625 then s.report (srcTb tbA) 0x01 0 2 .grave
    else if 107421875 < 100000 * edges then s.report (srcTb tbA) 0x01 0 1 .grave
    else s)

/-- EVI_EDGE (R292, R418). -/
def execEviEdge (ball : Fin 16) (rising : Bool) (s : State) : Host.Outcome State Fault Refusal :=
  .next (let s := { s with rtr := { s.rtr with evi := setBit s.rtr.evi ball rising } }
    let s := if s.pairOn ∧ s.rdN .PAIR_WIT_EVI = ball.val then s.witnessEdge else s
    s.edge (selector 5 ball (b2n !rising)))

/-- EVO_PULSE_END (R295). -/
def execEvoPulseEnd (ball : Fin 16) (s : State) : Host.Outcome State Fault Refusal :=
  .next (if bit s.rtr.pulses ball ∧ s.rtr.evoEnd.get (fun _ => 0) ball ≤ s.now then
      { s with rtr := { s.rtr with pulses := setBit s.rtr.pulses ball false } }
    else s)

/-- SRAM_SCRUB_SLICE (R425, R428): 10,000 slices make a pass. -/
def execSramScrubSlice (found : List ScrubFind) (free : Bool) (s : State) : Host.Outcome State Fault Refusal :=
  .next (if !s.droneUp || !free || decide (s.now < s.drn.dueSram) then s
    else
      let s := (s.started .DRN_LATE_SRAM s.drn.dueSram 1000000).each found fun s f => s.sramFind f
      let from_ := if s.drn.sram = 0 then s.now else s.drn.sramFrom
      let s := { s with drn := { s.drn with sram := s.drn.sram + 1, sramFrom := from_, dueSram := s.drn.dueSram + 1000000 } }
      if s.drn.sram < 10000 then s
      else
        let s := { s with drn := { s.drn with sram := 0 } }
        (s.inc .SCRUB_SRAM_PASSES).wr .SCRUB_SRAM_LAST 0 0 (satN 32 ((s.now - from_) / 1000000)))

/-- NVM_SCRUB_SLICE (R425, R429): 2,592,000 slices make a pass. -/
def execNvmScrubSlice (found : List ScrubFind) (free : Bool) (s : State) : Host.Outcome State Fault Refusal :=
  .next (if !s.droneUp || !free || decide (s.now < s.drn.dueNvm) then s
    else
      let s := (s.started .DRN_LATE_NVM s.drn.dueNvm 1000000000).each found fun s f => s.nvmFind f
      let n := s.drn.nvm + 1
      let s := { s with drn := { s.drn with nvm := n % 2592000, dueNvm := s.drn.dueNvm + 1000000000 } }
      let s := if n < 2592000 then s
        else { s with nvm := { s.nvm with nvmPasses := satN 32 (s.nvm.nvmPasses + 1) } }.nvmPut (recPages 2)
      s.wr .SCRUB_NVM_POS 0 0 (s.drn.nvm * 2097152 / 2592000))

/-- LOG_COPY (R425, R437), every 500 ms. -/
def execLogCopy (free : Bool) (s : State) : Host.Outcome State Fault Refusal :=
  .next (if !s.droneUp || !free || decide (s.now < s.drn.dueLog) then s
    else
      let s := s.started .DRN_LATE_LOG s.drn.dueLog 500000000
      { s with drn := { s.drn with dueLog := s.drn.dueLog + 500000000 } }.copyLogs)

/-- TELEMETRY_FRAME (R425, R438), once in each TAI second: with the measured supply, temperatures and dissipation. -/
def execTelemetryFrame (m : Measured) (free : Bool) (s : State) : Host.Outcome State Fault Refusal :=
  .next (if !s.droneUp || !free || s.tbp / 1000000000 == s.drn.tlmSec then s
    else
      let s := if 500000000 < s.tbp % 1000000000 then s.inc .DRN_LATE_TLM else s
      { s with pwr := { s.pwr with meas := m }, drn := { s.drn with tlmSec := s.tbp / 1000000000 } }.telemetry (s.rdN .PWR_STATE))

/-- LINE_TEST (R332, R425, R439), every LINE_TEST_PERIOD: `wires` names the pairs on which the collector fails to observe a tested state, with the state
observed; a cluster that holds a real fault ends its test at once. -/
def execLineTest (wires : List (Nat × Nat)) (s : State) : Host.Outcome State Fault Refusal :=
  .next (let p := s.rdN .LINE_TEST_PERIOD * 1000000000
    if s.droneUp ∧ s.dueAgain s.drn.lineAt p then
      ({ s with drn := { s.drn with lineAt := s.lastDue s.drn.lineAt p } }.each wires fun s w => if w.1 < 26 ∧ s.flt.lines.get (fun _ => 1) w.1 = 1 then s.report (srcCluster w.1) 0x04 0 (w.2 % 4) else s).inc .LINE_TESTS
    else s)

/-- NVM_PAGE_FLUSH (R431). NVM has no power in deep sleep (R460). -/
def execNvmPageFlush (bank page : Nat) (verified : Bool) (s : State) : Host.Outcome State Fault Refusal :=
  .next (if s.pwr.asleep then s else s.pageFlush (bank % 16, page % 256) verified)

/-- BANK_COPY_DONE (R435): the pages that stood in the reserve leave it, and the reserve takes the bank's place; the writes that waited can be
made. -/
def execBankCopyDone (s : State) : Host.Outcome State Fault Refusal :=
  .next (match s.drn.copying with
    | some b =>
      if s.pwr.asleep then s else
      let s := s.each ((s.nvm.moved.filter fun x => x.2 ≤ 256 ∨ x.1 / 256 = b).map (·.1)) fun s k => s.leaveReserve k b
      let s := s.each (List.range 256) fun s l => s.pageWrite 15 l
      { s with drn := { s.drn with copying := none } }.wr .NVM_RESERVE_USE 0 0 b
    | none => s)

/-- RTC_REALIGN (R440, R441): while LOCKED, at each TAI second. Without TBC the calendar stands, and cannot be valid. -/
def execRtcRealign (s : State) : Host.Outcome State Fault Refusal :=
  .next (if s.rd .PTP_STATE = 3 ∧ s.droneUp ∧ s.tb tbC ≠ 4 then
      { s with clk := { s.clk with rtc := s.clk.tbp }, nvm := { s.nvm with rtcValid := true } }.wr .RTC_LAST_SYNC 0 0 s.stampNow
    else s)

/-- RTC_TRIM_STORE (R440): every 3,600 s while LOCKED. -/
def execRtcTrimStore (ppb : Int) (s : State) : Host.Outcome State Fault Refusal :=
  .next (if s.rd .PTP_STATE = 3 ∧ s.droneUp ∧ s.clk.trimAt + 3600000000000 ≤ s.now then
      { s with nvm := { s.nvm with rtcTrim := clampI (-500000) 500000 ppb }, clk := { s.clk with trimAt := s.now } }.nvmPut (recPages 3)
    else s)

/-- ANALOGUE_RAILS_INSIDE_9V (R447): every slice on its safe ramp applies the SAFE switch settings at once. -/
def execAnalogueRailsInside9V (s : State) : Host.Outcome State Fault Refusal :=
  .next (let l := (s.chan.filter fun p => p.2.out == .safe && p.2.transit).map (·.1)
    let s := s.each l fun s c => (s.modCh c fun h => { h with transit := false, rampEnd := none }).switches c
    s.safeIsolated)

end Sys2Proof.Machine
end

