-- ==== Sys2Proof/Machine/Image.lean ====
section
/-! DEFINITION. Configuration images (R66, R72 to R74, R220, R236): the checks of a staged image and what its commit brings. -/
namespace Sys2Proof.Machine
open Sys2Proof

/-! ### Bytes of the staged image (R62, R72) -/

/-- `n` bytes of a sparse map from position `p`; bytes never staged read 0 (DESIGN CHOICE, log 2). -/
def denseBytes : Nat → Nat → SMap Byte → List Byte
  | 0, _, _ => []
  | n + 1, p, [] => 0#8 :: denseBytes n (p + 1) []
  | n + 1, p, (k, b) :: m => if k = p then b :: denseBytes n (p + 1) m else 0#8 :: denseBytes n (p + 1) ((k, b) :: m)

/-- `len` bytes from byte `off`. -/
def cut (b : List Byte) (off len : Nat) : List Byte := (b.drop off).take len
/-- The number in `len` bytes from byte `off`. -/
def field (b : List Byte) (off len : Nat) : Nat := beNat (cut b off len)

/-- A section of an image: TYPE, NUMBER, bytes (Table "Section directory entry"). -/
structure Sect where
  type : Nat
  number : Nat
  body : List Byte
  deriving DecidableEq, Repr

/-! ### Triples (R66, R73) -/

/-- An index that an overlay may name (R66). -/
def tripleIndex (idx : Nat) : Bool :=
  (decide (0x1000 ≤ idx) && decide (idx ≤ 0x40FF)) || (decide (0x8000 ≤ idx) && decide (idx ≤ 0x81FF))
    || (decide (0xA000 ≤ idx) && decide (idx ≤ 0xA1FF))

/-- Wire length of the value of a triple: fixed by its type code, or given by its first bytes (R43). -/
def tripleLen (code : Nat) (b : List Byte) : Nat :=
  if code = 14 then 1 + beNat (b.take 1) else if code = 15 then 2 + beNat (b.take 2) else (typeInfo.getD code ("", 0)).2

/-- A triple against R66 and against the type and the limits of its object (step 6 of R72). -/
def tripleOf (idx sub code : Nat) (b : List Byte) : Option Triple :=
  if !tripleIndex idx then none
  else match findObj idx sub with
  | none => none
  | some (o, i, e) =>
    if o.desc.cls ≠ .RW ∧ o.desc.cls ≠ .RWS then none
    else match decodeVal o.desc.ty (.raw code b) with
    | none => none
    | some v =>
      if malformed o.desc.ty v || (v.int.toNat &&& reservedBits o) != 0 || !inLimits o i v || portBad o i v then none else some ⟨o, i, e, v⟩

/-- The triples of a section, at most `n` of them; none where one fails or the section ends within one. -/
def parseTriples : Nat → List Byte → Option (List Triple)
  | _, [] => some []
  | 0, _ :: _ => none
  | n + 1, b =>
    let code := field b 3 1
    let w := tripleLen code (b.drop 4)
    if w = 0 ∨ b.length < 4 + w then none
    else match tripleOf (field b 0 2) (field b 2 1) code (cut b 4 w), parseTriples n (b.drop (4 + w)) with
    | some t, some l => some (t :: l)
    | _, _ => none

/-- No address is named twice (R66). -/
def addressesOnce (ts : List Triple) : Bool := (ts.map fun t => objKey t.o t.i t.e).eraseDups.length == ts.length

/-- The triples of a base or overlay section (R66, R73). -/
def sectTriples (x : Sect) : Option (List Triple) :=
  match parseTriples (x.body.length + 1) x.body with
  | some ts => if addressesOnce ts && (x.type == 1 || decide (ts.length ≤ 8192)) then some ts else none
  | none => none

/-! ### Table sections (R73; the form of an element's offset DEDUCED, log 21) -/

/-- Elements of `w` bytes, each after its 32-bit offset. -/
def parseElements (w : Nat) : Nat → List Byte → Option (List (Nat × Nat))
  | _, [] => some []
  | 0, _ :: _ => none
  | n + 1, b =>
    if b.length < 4 + w then none
    else (parseElements w n (b.drop (4 + w))).map fun l => (field b 0 4, field b 4 w) :: l

/-- A map element in its own right (R234, R235). -/
def mapElOk (v : Nat) : Status :=
  if bits v 0 15 ≠ 0 then .RESERVED_NONZERO
  else if bit v 23 && bits v 24 20 == bits v 44 20 then .BAD_VALUE
  else .OK

/-- The map section (R236). -/
def sectMap (x : Sect) : Option (List (Nat × Nat)) :=
  match parseElements 8 (x.body.length + 1) x.body with
  | some l =>
    if decide (l.length ≤ 32768) && l.all fun p => decide (p.1 < 1048576) && mapElOk p.2 == .OK then some l else none
  | none => none

/-- The waveform library section: points by waveform, each waveform as long as its highest point needs (R220). -/
def sectWaves (x : Sect) : Option (List (Nat × List Int)) :=
  match parseElements 3 (x.body.length + 1) x.body with
  | some l =>
    if l.all fun p => decide (p.1 < 64 * 65536) then
      some (((l.map fun p => p.1 / 65536).eraseDups).map fun n =>
        let ps := (l.filter fun p => p.1 / 65536 = n).map fun p => (p.1 % 65536, sext 24 p.2)
        let len := (ps.map fun p => p.1 + 1).foldl max 0
        (n, ps.foldl (fun a p => a.set p.1 p.2) (List.replicate len 0)))
    else none
  | none => none

/-! ### The checks (R72) -/

/-- The directory's sections, with their bounds and CRC-32 (step 5). R72 names no check of reserved header bytes 32 to 63 or directory
FLAGS, of a section over the header or the directory, or of an unknown TYPE or NUMBER: such an image is IMAGE_INVALID here (DESIGN
CHOICE, log 85). -/
def sectionsOf (b : List Byte) : Option (List Sect) :=
  let n := field b 30 1
  let hl := 64 + 16 * n
  if n = 0 ∨ 18 < n ∨ b.length < hl ∨ field b 32 32 ≠ 0 then none
  else
    (List.range n).foldr (fun k r =>
      let d := cut b (64 + 16 * k) 16
      let off := field d 4 4
      let len := field d 8 4
      let body := cut b off len
      let ty := field d 0 1
      let num := field d 1 1
      let named := if ty = 2 then decide (1 ≤ num ∧ num ≤ 15) else num == 0
      if decide (1 ≤ ty ∧ ty ≤ 4) && named && field d 2 2 == 0 && decide (hl ≤ off ∧ off + len ≤ b.length) &&
          crc32 body == field d 12 4 then
        r.map fun l => ⟨ty, num, body⟩ :: l
      else none) (some [])

/-- Pages of the waveforms that a list names (R218). -/
def namedPages (ws : List (Nat × List Int)) : Nat := (ws.map fun w => wavePages w.2.length).sum

/-- The waveforms that a section names fit beside the others (R220). -/
def State.wavesFit (s : State) (ws : List (Nat × List Int)) : Bool :=
  let others := (List.range 64).filter fun n => !(ws.map (·.1)).contains n
  decide (((others.map fun n => wavePages (s.rdN .WAVE_LEN n)).sum) + namedPages ws ≤ 341)

/-- The half that the sections make (R73, R74). -/
def halfOf (id : Nat) (l : List Sect) : Option Half :=
  l.foldl (fun r x =>
    match r with
    | none => none
    | some h =>
      if x.type = 1 then (sectTriples x).map fun ts => { h with base := ts }
      else if x.type = 2 then (sectTriples x).map fun ts => { h with overlays := h.overlays.put (fun _ => []) x.number ts }
      else some h) (some { valid := true, id := id })

/-- The checks of R72 in order: the first failing status, or the half and the waveforms. Two sections of one TYPE and NUMBER are
IMAGE_INVALID, and BUILD_TIME is not checked, since R72 lists no check of it (DESIGN CHOICE, log 85). -/
def State.imageCheck (s : State) : Except Status (Half × List (Nat × List Int)) :=
  let all := denseBytes 524288 0 s.cfg.image
  let len := field all 8 4
  let b := all.take len
  if field all 0 4 ≠ 0x534B5A43 ∨ field all 6 2 ≠ 64 then .error .IMAGE_INVALID
  else if field all 4 2 ≠ 1 ∨ 0xB1 < field all 31 1 then .error .IMAGE_VERSION
  else if len < 64 ∨ 524288 < len then .error .IMAGE_INVALID
  else if crc32 (b.drop 16) ≠ field b 12 4 then .error .IMAGE_INVALID
  else match sectionsOf b with
  | none => .error .IMAGE_INVALID
  | some l =>
    let once := (l.map fun x => (x.type, x.number)).eraseDups.length == l.length
    let map := (l.find? fun x => x.type = 3).elim (some []) sectMap
    let waves := (l.find? fun x => x.type = 4).elim (some []) sectWaves
    match once, map, waves with
    | true, some m, some ws =>
      if !s.wavesFit ws then .error .IMAGE_INVALID
      else match halfOf (field b 16 4) l with
      | none => .error .IMAGE_INVALID
      | some h =>
        if ws.any fun w => s.rd .WAVE_PLAYERS w.1 != 0 then .error .STATE_CONFLICT
        else .ok ({ h with map := m.reverse }, ws)
    | _, _, _ => .error .IMAGE_INVALID

/-! ### The commit (R74) -/

/-- The idle half of the configuration area. -/
def State.setIdle (s : State) (h : Half) : State :=
  { s with nvm := if s.nvm.active = 0 then { s.nvm with half1 := h } else { s.nvm with half0 := h } }

/-- The pages of the idle half that the staged image takes (R74; places DESIGN CHOICE, log 107). -/
def State.imagePages (s : State) : List (Nat × Nat) :=
  let len := (rangeFrom 8 4).foldl (fun n k => 256 * n + (s.cfg.image.get (fun _ => 0#8) k).toNat) 0
  (rangeFrom (128 * (1 - s.nvm.active)) (ceilDiv len 4096)).map fun p => (12, p)

/-- IMAGE_COMMIT at its execution (R72, R74): refused, or the write of the idle half runs. A second commit waits for
nothing and conflicts (DEDUCED, log 21). -/
def State.commitImage (s : State) (a : Ans) : State × Option Status :=
  if s.cfg.commit.isSome then (s, some .STATE_CONFLICT)
  else match s.imageCheck with
  | .error st => (s, some st)
  | .ok (h, ws) =>
    let l := s.imagePages ++ (ws.flatMap fun w => s.wavePlaces w.1 0 w.2.length).eraseDups
    if l.any s.pageDead then (s, some .NVM_FAULT)
    else ({ (s.setIdle {}) with cfg := { s.cfg with commit := some (a, h, ws) } }.nvmPut l, none)

/-- The commit waits for pages of the image or of the waveform library: the new half becomes active only after every page that it depends
on has been written and verified (R431). -/
def State.imageWaits (s : State) : Bool := s.drn.writes.any fun p => decide (8 ≤ p.1 ∧ p.1 ≤ 12)

/-- The commit ends (R74): the new half becomes active by one update, or the old one stays. -/
def State.imageDone (s : State) (ok : Bool) : State :=
  match s.cfg.commit with
  | none => s
  | some (a, h, ws) =>
    let s := { s with cfg := { s.cfg with commit := none } }
    if !ok || s.bankDead 12 || (!ws.isEmpty && (rangeFrom 8 4).any s.bankDead) then s.answer a .NVM_FAULT
    else
      let s := s.setIdle h
      let n := if s.nvm.imageCommits < 4294967295 then s.nvm.imageCommits + 1 else s.nvm.imageCommits
      let s := { s with nvm := { s.nvm with active := 1 - s.nvm.active, imageCommits := n } }
      ((s.each ws fun s w => s.setWave w.1 w.2).nvmPut (recPages 2)).answer a .OK

end Sys2Proof.Machine
end

