-- ==== Sys2Proof/Machine/Modes.lean ====
section
/-! DEFINITION. Operating modes (R66 to R71, R132, R160): the set that a switch writes, its validation and application; the
base of an image (R73, R75, R76); and what follows a value of the configuration unit as it comes into force. -/
namespace Sys2Proof.Machine
open Sys2Proof

/-! ### Values of the configuration unit -/

/-- PAIR_EN = true at its execution (R403, R408): forming, with both transmit lanes up. -/
def State.pairStart (s : State) : State :=
  if s.rdT .PAIR_EN then s
  else
    let s := ((s.wr .PAIR_EN 0 0 1).wr .PAIR_STATE 0 0 1).wr .PAIR_LANES 0 0 12
    { s with pair := { lastCell := s.now, lastWitness := s.now } }

/-- PAIR_EN = false at its execution (R406). -/
def State.pairStop (s : State) : State :=
  if !s.rdT .PAIR_EN then s
  else (((s.wr .PAIR_EN 0 0 0).dissolve).wr .PAIR_STATE 0 0 0).wr .PAIR_LANES 0 0 0

/-- NET_MODE or NET_AN at its execution (R357): the link goes down and the port retrains, with no report. -/
def State.retrain (s : State) (p : Nat) : State :=
  let old := s.ptpPort
  (if (s.port p).link then s.linkOff p else s).ptpMoved old

/-- A value of an object outside every group comes into force, with what its chapter lets follow. -/
def State.putCfg (s : State) (o : Obj) (i e : Nat) (v : Val) : State :=
  let n := v.int
  match o with
  | .MODE => s
  | .TIME_SRC => s.setTimeSrc n
  | .PTP_PORT => (s.wr o i e n).ptpMoved s.ptpPort
  | .PPSOUT_OFFSET => s.setPpsOffset n
  | .PPSOUT_WIDTH => s.setPpsWidth n
  | .STREAM_EN => if n = 1 then s.streamStart i else s.streamStop i none
  | .NET_MODE | .NET_AN => (s.wr o i e n).retrain i
  | .NET_ADDR_MODE => (s.wr o i e n).addrMode i
  | .NET_IP_STATIC | .NET_MASK | .NET_GW => (s.wr o i e n).staticAddr i
  | .PAIR_EN => if n = 1 then s.pairStart else s.pairStop
  | .FLT_N | .FLT_W => (s.wr o i e n).zeroBuckets i
  | .VDDC_MODE => { s.wr o i e n with pwr := { s.pwr with vddcFell := false } }
  | .WAVE_LEN => s.waveResize i n.toNat
  | .SP_ROLE => s.spRole i n
  | _ => match v with
    | .num n => s.wr o i e n
    | .bytes b => s.wrV o i e (.bytes b)

/-- A value comes into force, in a group or outside. -/
def State.putObj (s : State) (t : Triple) : State :=
  if (groupOfObj t.o t.i).isSome then s.applyObj t.o t.i t.e t.v else s.putCfg t.o t.i t.e t.v

/-! ### The set of a switch (R67) -/

/-- Two triples name one address. -/
def Triple.same (a b : Triple) : Bool := objKey a.o a.i a.e == objKey b.o b.i b.e

/-- The base value of an object's element (R73): that of the base in force (R75), or the default. -/
def State.baseVal (s : State) (o : Obj) (i e : Nat) : Val :=
  ((s.cfg.base.find? fun t => objKey t.o t.i t.e = objKey o i e).map (·.v)).getD (objDefault o i e)

/-- The objects that a switch to mode b writes, with their values (R67), from the overlay in force to that of the active image (R75).
MODE itself is no part of a set. -/
def State.switchSet (s : State) (b : Nat) : List Triple :=
  let tb := if b = 0 then [] else s.overlay b
  let back := (s.cfg.overlay.filter fun t => !(tb.any t.same)).map fun t => { t with v := s.baseVal t.o t.i t.e }
  (tb ++ back).filter fun t => t.o ≠ .MODE

/-- The registers as a set leaves them, without what follows. -/
def State.withSet (s : State) (ts : List Triple) : State := s.each ts fun s t => s.wrV t.o t.i t.e t.v

/-! ### Validation (R68) -/

/-- The channels of which a set writes an object that `p` picks, ascending. -/
def setChans (ts : List Triple) (p : Obj → Bool) : List Nat :=
  allChans.filter fun c => ts.any fun t => p t.o && decide (t.i = c) && unitOf t.o t.i == .channel c

/-- The resulting CTL_RUN, FILT_RUN and GROUP_PWR of a group break R134, R194 or R458. -/
def State.runConflict (s final : State) (ts : List Triple) (g : Nat) : Bool :=
  let named := ts.any fun t => (t.o == .CTL_RUN || t.o == .FILT_RUN || t.o == .GROUP_PWR) && t.i == g
  let ctl := final.rdT .CTL_RUN g
  let filt := final.rdT .FILT_RUN g
  named && ((!ctl && ((chansOf g).any fun c => (s.ch c).out.charged)) || (ctl && !filt)
    || (!final.rdT .GROUP_PWR g && (ctl || filt)))

/-- R86 and R87 on one value: SENSE_SEL, BOOST_DECL, BOOST_RANGE and BOOST_GAIN in a state that does not take it. -/
def State.sliceConflict (s : State) (o : Obj) (c : Nat) (v : Int) : Bool :=
  let out := (s.ch c).out
  match o with
  | .SENSE_SEL => out != .off && out != .armed
  | .BOOST_DECL =>
    if v = s.rd o c then false
    else if v = 1 then out != .off
    else out != .off && !internalI (s.rdN .I_RANGE c)
  | .BOOST_RANGE | .BOOST_GAIN => out != .off
  | _ => false

/-- The first status of a list of choices, in order. -/
def firstOf (l : List (Bool × Status)) : Option Status := (l.find? (·.1)).map (·.2)

/-- The first failing range request of a switch (R160), with the values that the switch brings beside it in force: its status, its
channel and its reason. -/
def State.switchRanges (s : State) (ts : List Triple) : Option (Status × Option (Nat × Nat)) :=
  let mid := s.withSet (ts.filter fun t => t.o ≠ .V_RANGE ∧ t.o ≠ .I_RANGE)
  (setChans ts fun o => o == .V_RANGE || o == .I_RANGE).findSome? fun c =>
    match modeRange ts c with
    | none => none
    | some r =>
      let w := (ts.filter fun t => t.i = c ∧ unitOf t.o t.i = .channel c).map (·.o)
      ((mid.modCh c fun h => { h with written := w }).rangeCheck c r).map fun x => (x.1, some (c, x.2))

/-- The value of a channel's object once a switch has applied: the switch's own, or the latest (R27, R132). -/
def State.switchVal (s : State) (ts : List Triple) (c : Nat) (o : Obj) : Int :=
  ((ts.find? fun t => t.o = o ∧ t.i = c).map fun t => t.v.int).getD (s.latest o c)

/-- The checks of R68, R132 and R160 on the set of a switch, in the order in which the rules list them (DEDUCED, log 23): the status of
the first failure, with the channel and the reason of a range request. -/
def State.switchCheck (s : State) (w : Switch) (ts : List Triple) : Option (Status × Option (Nat × Nat)) :=
  let final := s.withSet ts
  let groups := tripleGroups ts
  let notch := setChans ts isBank
  match firstOf [
    (w.target ≠ 0 && (s.overlay w.target).isEmpty, .OVERLAY_EMPTY),
    (ts.any fun t => t.o.desc.cls == .RWS && !s.stopped t.o t.i, .RWS_RUNNING),
    (ts.any fun t => !s.ownerOk t.o t.i w.owner t.v.int, .NOT_OWNER),
    (!w.secure && ts.any fun t => t.o.desc.sec || isSecure t.o || s.secureUnit (unitOf t.o t.i), .SECURE_ONLY),
    (allGroups.any fun g => s.runConflict final ts g, .STATE_CONFLICT),
    (ts.any fun t => s.sliceConflict t.o t.i t.v.int, .STATE_CONFLICT),
    (!s.admits final, .OUTPUT_BUDGET),
    (s.latch, .SAFE_STATE),
    (groups.any fun g => s.standby g, .PAIR_STANDBY),
    (notch.any fun c => s.switchVal ts c .NOTCH_EN == 1 && !notchSetOk (s.switchVal ts c), .BAD_VALUE)] with
  | some st => some (st, none)
  | none => s.switchRanges ts

/-! ### Application (R69, R47) -/

/-- A group without load strobes takes its part of a switch at once (R47). -/
def State.modeAtOnce (s : State) (ts : List Triple) : State :=
  let s := s.modeValues ts
  s.each ((ts.map (·.i)).eraseDups) fun s c => match modeRange ts c with | some r => s.rangeDirect c r | none => s

/-- A validated switch applies (R69): outside the groups now, in each group at its strobe. A group that loses its strobes before then
takes its part at the first strobe after they return, and MODE_PENDING waits for it (DESIGN CHOICE, log 80). -/
def State.switchApply (s : State) (b : Nat) (ts : List Triple) : State :=
  let s := (s.wr .MODE 0 0 b).wr .MODE_PENDING 0 0 (0x80 + b)
  let s := { s with cfg := { s.cfg with overlay := if b = 0 then [] else s.overlay b } }
  let of (g : Nat) : List Triple := ts.filter fun t => groupOfObj t.o t.i == some g
  let gs := tripleGroups ts
  let s := s.each (ts.filter fun t => groupOfObj t.o t.i == none) fun s t => s.putCfg t.o t.i t.e t.v
  let s := s.each (gs.filter fun g => !s.strobes g) fun s g => s.modeAtOnce (of g)
  let left := gs.filter fun g => s.strobes g
  let s := s.each left fun s g => s.push g none (.modeApply b (of g))
  let s := { s with cfg := { s.cfg with groupsLeft := left } }
  if left.isEmpty then s.switchDone else s

/-- A switch is rejected whole (R68): the log's entry of a session's violation has OP 5. A range request that fails is a refusal of its
channel (R139, R160). -/
def State.switchReject (s : State) (w : Switch) (st : Status) (at_ : Option (Nat × Nat)) : State :=
  let s := s.inc .MODE_REJECTS
  let s := match at_ with | some (c, reason) => s.noteRefusal c reason | none => s
  let s := if st = .OUTPUT_BUDGET then s.refuseBudget else s
  let s := { s with cfg := { s.cfg with cur := s.cfg.waiting.head?, waiting := s.cfg.waiting.drop 1 } }
  match w.org with
  | .host (some (k, q)) =>
    let s := if st.violation ∧ (s.se (k % 16)).inc = k / 16 then s.violate (k % 16) 5 0x2300 1 st else s
    s.answerRaw (some (k, q)) st
  | o => s.reply o st

/-- The validation of the switch at the head ends (R68, R69). -/
def State.switchValidated (s : State) : State :=
  match s.cfg.cur with
  | none => s
  | some w =>
    if !s.cfg.groupsLeft.isEmpty then s
    else
      let ts := s.switchSet w.target
      match s.switchCheck w ts with
      | some (st, x) => s.switchReject w st x
      | none => s.switchApply w.target ts

/-! ### The base (R73, R75, R76, R236) -/

/-- The triples of the active half's base. -/
def State.baseTriples (s : State) : List Triple :=
  if s.cfg.loaded && s.half.valid then s.half.base.filter fun t => t.o ≠ .MODE else []

/-- The base in force becomes `base`, with no overlay over it: at boot and LOAD_BASE only (R75). -/
def State.takeBase (s : State) (base : List Triple) : State :=
  { s with cfg := { s.cfg with base := base, overlay := [] } }

/-- Objects that the conversion of others rests on come first (DEDUCED, log 24). -/
def baseFirst (o : Obj) : Bool := o == .V_RANGE || o == .I_RANGE || o == .FORCE_MODE

/-- Values of a base come into force: ranges first, then limits and levels as programmed on them, then the others; a value
that stands already has no effect. A notch set that fails the checks of R116 is not accepted for use: NOTCH_EN stays false (DESIGN
CHOICE, log 81). -/
def State.putBase (s : State) (ts : List Triple) : State :=
  let s := s.each (ts.filter fun t => baseFirst t.o) fun s t => s.wrV t.o t.i t.e t.v
  let s := s.each allChans fun s c => ((s.programLimit c).each tevObjs fun s o => s.programTev c o).modCh c fun h =>
    { h with bank := none, holdBit := false }
  let s := s.each (ts.filter fun t => !baseFirst t.o) fun s t => if s.rdV t.o t.i t.e = t.v then s else s.putObj t
  s.each allChans fun s c =>
    if s.rd .NOTCH_EN c = 1 ∧ ¬ notchSetOk (fun o => s.rd o c) then s.wr .NOTCH_EN c 0 0 else s

/-- The running map is that of the active image (R236). -/
def State.loadMap (s : State) : State :=
  let l := if s.cfg.loaded && s.half.valid then s.half.map else []
  { s with mtx := { s.mtx with map := l.foldr (fun (p : Nat × Nat) m => SMap.put mapDefault m p.1 p.2) [] } }.wr .MAP_DIRTY 0 0 0

/-- The objects that differ from their default and that LOAD_BASE sets to it (R75; log 18). -/
def State.toDefault (s : State) (base : List Triple) : List Triple :=
  (s.od.filterMap fun p =>
    match findObj (p.1 / 256) (p.1 % 256) with
    | some (o, i, e) =>
      if (o.desc.cls = .RW ∨ o.desc.cls = .RWS) ∧ o ≠ .MODE then some ⟨o, i, e, objDefault o i e⟩ else none
    | none => none).filter fun t => !base.any t.same

/-- Every group is stopped (R75). -/
def State.allStopped (s : State) : Bool :=
  allGroups.all fun g => !(s.gr g).ctl && (s.gr g).ctlStart.isNone && (s.gr g).filt == .stopped && (s.gr g).filtStart.isNone

/-- LOAD_BASE at its execution (R75). -/
def State.loadBase (s : State) : State × Option Status :=
  if s.latch then (s, some .SAFE_STATE)
  else if !s.allStopped then (s, some .RWS_RUNNING)
  else
    let s := { s with cfg := { s.cfg with loaded := true } }
    let base := s.baseTriples
    (((s.takeBase base).putBase (s.toDefault base ++ base)).loadMap.wr .MODE 0 0 0, some .OK)

/-! ### Commands -/

/-- MODE_VALIDATION_DONE (R68, R69). -/
def execModeValidationDone (s : State) : Host.Outcome State Fault Refusal := .next s.switchValidated

end Sys2Proof.Machine
end

