-- ==== Sys2Proof/Machine/Power.lean ====
section
/-! DEFINITION. Supplies, reset, boot, power states, deep sleep, adaptive VDDC and measured dissipation (R446 to R465), with
the commands of this family. -/
namespace Sys2Proof.Machine
open Sys2Proof

/-! ### Reset (R448 to R450) -/

/-- The reset of a source (Table "Reset sources", R450): NVM, the calendar and, but for a power-on reset, the safe latch with
its cause are kept; SRAM, object values and sessions are gone. The rails and balls are as they were. A power-on reset without a
good VBAK has stopped the calendar (R441, R446). -/
def State.restart (s : State) (src : Nat) : State :=
  let t : State :=
    { nvm := { s.nvm with rtcValid := s.nvm.rtcValid && !(src == 0 && bit s.pwr.lost 7), calCommits := satN 32 (s.nvm.calCommits + s.calOwed) }
      clk := { up := s.clk.up, rtc := s.clk.rtc, rtcPart := s.clk.rtcPart }
      cfg := { waves := s.cfg.waves }
      pwr := { lost := s.pwr.lost }
      rtr := { evi := s.rtr.evi }
      latch := s.latch && src != 0
      cause := if src = 0 then none else s.cause
      stopCause := if src = 0 then none else s.stopCause
      tx := s.tx
      fresh := s.fresh
      pending := s.pending }
  t.wr .RESET_CAUSE 0 0 src

/-! ### Supplies (R446 to R448) -/

/-- A rail is lost (Table "Supplies"). -/
def State.railLost (s : State) (i : Nat) : State :=
  if bit s.pwr.lost i then s
  else
    let s := { s with pwr := { s.pwr with lost := setBit s.pwr.lost i true } }
    if i = 6 then s.restart 0
    else if s.pwr.stage = 0 then s
    else if i < 5 then s.report srcSup 0x38 0 i .grave
    else if i = 7 then s.report srcSup 0x38 0 i
    else
      let s := s.report srcSup 0x38 0 i
      let old := s.ptpPort
      let s := s.each [0, 1] fun s p =>
        if (s.port p).link then (s.linkOff p).report (srcNet p) 0x30 0 0 else s
      (s.wr .PAIR_LANES 0 0 0).ptpMoved old

/-- Rails 0..5 are good again (R448): the boot restarts after a loss of rails 0..4 while running; the loss of VDDSD alone
only took the links down (DEDUCED, log 25). -/
def State.railsBack (s : State) : State :=
  let again := s.pwr.stage ≠ 0 ∧ bits s.pwr.lost 0 5 ≠ 0
  let s := { s with pwr := { s.pwr with lost := 0 } }
  if again then s.restart 3 else s.lanesUp

/-! ### Boot (R451 to R454) -/

/-- Stage 0 ends once rails 0..5 are good: BOOT[1:0] is sampled (R451). -/
def State.bootStage0 (s : State) (b : BootIn) : State :=
  if bits s.pwr.lost 0 7 ≠ 0 then s
  else
    let s := s.wr .BOOT_PINS 0 0 (b.bootPins % 4 : Nat)
    let s := s.each (List.range 25) fun s t => s.setTb t 1
    { s with pwr := { s.pwr with stage := 1, bootFrom := s.now } }

/-- Stage 1 ends: every PLL has locked; the groups' timebases wait for their first frame start (R18, R20). -/
def State.bootStage1 (s : State) : State :=
  let s := s.each (rangeFrom 16 9) fun s t => s.setTb t 2
  { s with pwr := { s.pwr with stage := 2 } }

/-- The channel that a slice reports in the self-test: its home channel; 0 for a spare, which carries none yet (R453; DEDUCED,
log 97). -/
def homeChan (n : Nat) : Nat := if n % 33 = 32 then 0 else 32 * (n / 33) + n % 33

/-- A slice that failed its self-test (R453): its channel takes the spare, or starts RETIRED. -/
def State.bootSlice (s : State) (n : Nat) : State :=
  let g := n / 33
  let p := n % 33
  let c := 32 * g + p
  if p = 32 then s
  else if (s.gr g).spare = 0 ∧ ¬ s.fencedSrc (srcSlice g 32) then
    (s.modGr g fun r => { r with spare := 1, spareFor := p }).modCh c fun h => { h with onSpare := true }
  else s.retire c

/-- A number placed in a rising list. -/
def insertNat (x : Nat) : List Nat → List Nat
  | [] => [x]
  | y :: l => if x ≤ y then x :: y :: l else y :: insertNat x l

/-- Stage 2 ends (R452, R453): failed slices are fenced and reported, lower positions take the spare first. A failure of the
SRAM test or of the collector sets the safe latch, and is reported as kind COLLECTOR (DESIGN CHOICE, log 114). -/
def State.bootStage2 (s : State) (b : BootIn) : State :=
  let s := s.each b.failedSlices fun s x => (s.setFence [x.1] x.1 false).report x.1 x.2.1 (homeChan x.1) x.2.2 .severe
  let s := s.each ((b.failedSlices.map (·.1)).foldr insertNat []) fun s n => s.bootSlice n
  let r : Report := ⟨⟨srcColl, 0x06, 0, 0, .grave⟩, .grave, s.stampNow⟩
  let s := if b.testOk then s
    else
      let s := s.report srcColl 0x06 0 0 .grave
      if s.latch then s else { s with latch := true, nSafe := true, cause := some (logElement r 0 1) }
  { s with pwr := { s.pwr with stage := 3 } }

/-- The calibration store is loaded (R312): the active half, else the other, else the factory copy; a load from anything but
the active half is reported with the copy, 0 and 1 the halves, 2 the factory copy (DEDUCED, log 25). -/
def State.loadCal (s : State) : State :=
  let a := s.nvm.calActive
  let half (h : Nat) : SMap (Option CalElem) := if h = 0 then s.nvm.cal0 else s.nvm.cal1
  if !bit s.nvm.calBad a then { s with cal := half a }.wr .CAL_HALF 0 0 a
  else if !bit s.nvm.calBad (1 - a) then
    ({ s with cal := half (1 - a), nvm := { s.nvm with calActive := 1 - a } }.wr .CAL_HALF 0 0 (1 - a : Nat)).report
      srcCal 0x27 0 (1 - a)
  else (({ s with cal := [] }).wr .CAL_HALF 0 0 2).report srcCal 0x27 0 2

/-- The configuration half is loaded (R76); a boot on defaults does not read the area (R451). -/
def State.loadHalf (s : State) : State :=
  if s.rd .BOOT_PINS = 1 then s
  else
    let s := { s with cfg := { s.cfg with loaded := true } }
    if s.half.valid then s
    else
      let t := { s with nvm := { s.nvm with active := 1 - s.nvm.active } }
      if t.half.valid then t.report srcCfg 0x25 0 0 else s.report srcCfg 0x25 0 1 .severe

/-- The sequence numbers resume at the stored reservations, and new ones are written and confirmed (R183). -/
def State.loadRsv (s : State) : State :=
  let s := s.each allChans fun s c => s.wr .REC_NEXT c 0 (s.reserved c)
  if (recPages 0).any s.pageDead then s
  else (s.each (recPages 0) fun s p => s.pageWrite p.1 p.2).each allChans fun s c =>
    { s with nvm := { s.nvm with rsv := s.nvm.rsv.put (fun _ => 0) c (s.reserved c + 2 ^ 32) } }

/-- The TBP counter starts from the calendar, or while that is not valid from the last TIME of the fault log (R364, R441). -/
def State.startTime (s : State) : State :=
  let last := s.nvm.flog.get (fun _ => 0) s.nvm.flogNewest
  let t : Nat := if s.nvm.rtcValid then s.rtc else nsOf (last / 2 ^ 96 * 2 ^ 32 + bits last 66 30)
  { s with clk := { s.clk with tbp := (t : Int) - s.clk.up } }

/-- The fault log is reloaded, and the BOOT element appended (R353). -/
def State.loadLog (s : State) : State :=
  let s := { s with flt := { s.flt with log := s.nvm.flog } }
  let s := (s.wr .FLT_LOG_NEWEST 0 0 s.nvm.flogNewest).wr .FLT_LOG_TOTAL 0 0 s.nvm.flogTotal
  let r : Report := ⟨⟨srcColl, 0x08, 0, s.rdN .RESET_CAUSE, .note⟩, .note, s.stampNow⟩
  s.faultLog (logElement r 0 1)

/-- Stage 3 ends: what NVM holds is loaded (Table "Boot stages"). -/
def State.bootStage3 (s : State) : State :=
  let s := s.startTime.loadCal.loadHalf.loadMap
  let s := { s with mtx := { s.mtx with ledger := s.nvm.ledger, dirty := [] } }
  let s := s.each s.cfg.waves fun s w => s.setWave w.1 w.2
  let s := s.loadLog.loadRsv
  { s with pwr := { s.pwr with stage := 4 } }

/-- Engines start by their run objects at the first frame starts (R76, R194, R452). -/
def State.startEngines (s : State) : State :=
  s.each allGroups fun s g =>
    if !(s.gr g).powered then s
    else s.modGr g fun r =>
      { r with filtStart := if s.rdT .FILT_RUN g then some [] else none
               ctlStart := if s.rdT .CTL_RUN g then some [] else none }

/-- The quiet boot's last settings (R451). -/
def State.quiet (s : State) : State :=
  let s := s.each allGroups fun s g => (s.wr .CTL_RUN g 0 0).wr .FILT_RUN g 0 0
  s.each (List.range 32) fun s k => if s.rdT .STREAM_EN k then s.streamStop k none else s

/-- Stage 4 ends (R451, R452, R454): the base applies, the engines start, and a set latch takes the device into the safe
state. -/
def State.bootStage4 (s : State) : State :=
  let s := ((s.takeBase s.baseTriples).putBase s.baseTriples).spPower true
  let s := if s.rd .BOOT_PINS = 2 then s.quiet else s
  let s := (s.startEngines.staticAddr 0).staticAddr 1
  let s := s.each allGroups fun s g => s.setTb g (b2n (s.gr g).powered)
  let n := if s.nvm.boots < 4294967295 then s.nvm.boots + 1 else s.nvm.boots
  let s := { s with clk := { s.clk with frames := 0 }, nvm := { s.nvm with boots := n }, nSafe := s.latch
                    pwr := { s.pwr with stage := 5 } }
  let s := (s.nvmPut (recPages 2)).droneFrom
  let s := (s.wr .PWR_STATE 0 0 1).runState.wr .BOOT_TIME 0 0 (satN 32 ((s.now - s.pwr.bootFrom) / 1000))
  let s := s.stopLogged
  if s.latch then ({ s with safeBreak := true }.each allChans fun s c => s.safeAtOnce c).safeIsolated else s

/-- An output ball (Table "Balls during start-up"). -/
inductive Ball where
  | fo (c : ChanNo) | sense (c : ChanNo) | bg (c : ChanNo) | guard (g : GroupNo) | refio (g : GroupNo)
  | nSafe | evo (b : Fin 16) | mtrgo | ppsout | sp (n : Fin 2) | pair | net (p : Fin 2)
  | netTxDis (p : Fin 2) | vadj
  deriving DecidableEq, Repr

/-- How the device holds a ball; `live` is as the objects, the mode or the role of its unit give. -/
inductive BallHold where
  | highZ | input | low | high | nearAvnn | disabled | training | live
  deriving DecidableEq, Repr

/-- Table "Balls during start-up" (R454), nSAFE (R481) and TX_DISABLE (R486). -/
def State.hold (s : State) : Ball → BallHold
  | .fo c => if s.pwr.stage = 5 ∧ (s.ch c).isoF then .live else .highZ
  | .sense _ => .input
  | .bg _ => if s.pwr.stage < 4 then .nearAvnn else .live
  | .guard _ => if s.pwr.stage < 4 then .highZ else .live
  | .refio _ => if s.pwr.stage < 2 then .highZ else .live
  | .nSafe => if s.nSafe then .low else .high
  | .evo _ => if s.pwr.stage < 5 then .low else .live
  | .mtrgo | .ppsout => if s.pwr.stage < 4 then .low else .live
  | .sp n => if (s.sp n).on then .live else .highZ
  | .pair => if s.rdT .PAIR_EN ∧ s.framesRun then .live else .disabled
  | .net _ => if s.pwr.stage < 4 ∨ s.pwr.asleep then .disabled else if s.pwr.stage = 4 then .training else .live
  | .netTxDis p => if s.rd .NET_MODE p = 0 ∨ s.fencedSrc (srcNet p) then .high else .low
  | .vadj => if s.rd .VDDC_MODE = 1 ∧ ¬ s.pwr.vddcFell ∧ s.framesRun then .live else .highZ

/-! ### Deep sleep (R459 to R463) -/

/-- PWR_CMD = 2 at its execution (R459): refused, or the entry begins. -/
def State.sleepReq (s : State) (a : Ans) : State × Option Status :=
  if s.latch then (s, some .SAFE_STATE)
  else if allGroups.any fun g => s.rd .PAIR_ROLE g != 0 then (s, some .STATE_CONFLICT)
  else if s.rd .PWR_STATE ≠ 1 ∧ s.rd .PWR_STATE ≠ 2 then (s, some .STATE_CONFLICT)
  else
    let s := { s.wr .PWR_STATE 0 0 3 with pwr := { s.pwr with entry := 1, ans := a, wake := none } }
    let s := s.each allGroups fun s g => s.calEnd g 9 .STATE_CONFLICT
    let s := s.each (s.chan.map (·.1)) fun s c =>
      let h := s.ch c
      if h.out.live && s.rdT .SLEEP_HOLD c then s.push (grpOf c) none (.mute c 1)
      else if h.out.charged then s.push (grpOf c) none (.out c 0 (.host none))
      else s
    (s, none)

/-- A channel has come to what the ramps phase ends in (Table "Deep sleep entry"). -/
def State.rampedDown (s : State) (c : Nat) : Bool :=
  let h := s.ch c
  !h.out.charged || (h.out == .mute && !h.transit && s.rdT .SLEEP_HOLD c)

/-- The last OFF ramp has ended: the filter engines stop at a strobe, monitors and ports quiesce. -/
def State.sleepRamped (s : State) : State :=
  if s.pwr.entry ≠ 1 ∨ ¬ s.chan.all (fun p => s.rampedDown p.1) then s
  else
    let s := { s with pwr := { s.pwr with entry := 2 } }
    s.each allGroups fun s g =>
      let r := s.gr g
      if r.filt = .stopped ∧ r.filtStart.isNone then s
      else if s.strobes g then s.push g none .filtStop
      else (s.modGr g fun r => { r with filtStart := none }).filtStopAt g none

/-- Monitors, serial ports, filter engines, commits and store writes have come to rest. -/
def State.quiesced (s : State) : Bool :=
  (allGroups.all fun g =>
    let r := s.gr g
    r.filt == .stopped && r.filtStart.isNone && r.mon.phase == .down && r.cal.phase != 2 && r.cal.phase != 3)
    && s.mtx.cur.isNone && s.mtx.waiting.isEmpty && s.mbox.list.isNone && s.mbox.goWait.isEmpty && s.cfg.commit.isNone
    && s.mtx.committing.isNone

/-- The quiesce phase ends (R459): open blocks close, streams that can send them do, and Drone commits the ledger cache and
the logs. -/
def State.sleepQuiet (s : State) : State :=
  if s.pwr.entry ≠ 2 ∨ ¬ s.quiesced then s
  else
    let s := s.each (s.chan.map (·.1)) fun s c => if (s.ch c).aper.block.isEmpty then s else s.closeBlock c
    let held := (List.range 32).filter fun k => s.streamHolds k
    if held.any fun k => (s.livePorts k).any fun p => (s.streamMac p k).isSome then s
    else
      let s := s.each held fun s k => s.loseBlocks k
      { s with pwr := { s.pwr with entry := 3 } }.commitStart []

/-- The commit phase ends once every page is written (R431, R459): the PWR_CMD response is the last datagram, and the sessions close. -/
def State.sleepCommitted (s : State) : State :=
  if s.pwr.entry ≠ 3 ∨ s.mtx.committing.isSome ∨ ¬ s.drn.writes.isEmpty then s
  else
    let a := s.pwr.ans
    let s := match a with
      | some (k, q) =>
        if (s.se (k % 16)).inc = k / 16 then
          s.modSe (k % 16) fun x => { x with outst := x.outst.filter fun p => p.1.seq = q ∧ p.2 = none }
        else s
      | none => s
    { (s.answerRaw a .OK).closeAll with pwr := { s.pwr with entry := 4, ans := none } }

/-- SLEEP_UNTIL is set and has come (R462). -/
def State.sleepOver (s : State) : Bool := s.rd .SLEEP_UNTIL != 0 && decide (nsOf (s.rdN .SLEEP_UNTIL) ≤ s.rtc)

/-- Everything but the parts of R460 powers down, once the transactions that the serial ports still run have ended (R401). The time servo
has no source from here on (R367; DEDUCED, log 44). -/
def State.sleepNow (s : State) : State :=
  if s.pwr.entry ≠ 4 ∨ ¬ s.orphans.isEmpty ∨ s.mtx.cur.isSome ∨ s.mbox.list.isSome then s
  else
    let s := s.each [0, 1] fun s p => if (s.port p).link then s.linkOff p else s
    let s := if s.rd .PTP_STATE = 2 ∨ s.rd .PTP_STATE = 3 then s.servoTo 4 else s
    let s := s.each allGroups fun s g => (s.monFence g).modGr g fun r => { r with ctl := false, ctlStart := none }
    let s := ((s.wr .PAIR_LANES 0 0 0).wr .PWR_STATE 0 0 4).spPower false
    let s := if s.pwr.wake.isNone && s.sleepOver then s.wakeBy 2 0 else s
    { s.inc .SLEEP_COUNT with
      clk := { s.clk with tb := s.clk.tb.filter fun p => p.1 = 23 ∨ p.1 = 24 }
      pwr := { s.pwr with entry := 0, asleep := true, sleepTicks := 0 } }

/-- The device has woken (R462): its counters restart, the frame for the sleep interval is made (R438), and the engines fill. -/
def State.woken (s : State) : State :=
  match s.pwr.asleep, s.pwr.wake with
  | true, some (k, n) =>
    let s := { s with pwr := { s.pwr with asleep := false, wake := none, vddcFell := false }
                      clk := { s.clk with frames := 0, tbp := (s.rtc : Int) - s.clk.up } }
    let s := s.wr .WAKE_CAUSE 0 0 k
    let s := if k = 1 then s.wr .WAKE_EV 0 0 n else s
    let s := (s.telemetry 4).droneFrom.spPower true
    let s := s.each (rangeFrom 16 7) fun s t => s.setTb t 2
    let s := s.each allGroups fun s g => s.setTb g (b2n (s.gr g).powered)
    let s := ((s.wr .VDDC_TARGET 0 0 800).wr .PWR_STATE 0 0 1).runState
    let s := s.each (s.chan.map (·.1)) fun s c => s.modAper c fun a => { a with gap := true }
    s.lanesUp.startEngines
  | _, _ => s

/-! ### Groups (R458) -/

/-- GROUP_PWR at its execution (R458). -/
def State.groupPwr (s : State) (g : Nat) (on : Bool) (a : Ans) : State × Option Status :=
  if on then (if (s.gr g).powered then (s, some .OK) else (s.groupOn g a, none))
  else if s.rdT .CTL_RUN g ∨ s.rdT .FILT_RUN g ∨ (s.gr g).ctl ∨ (s.gr g).filt ≠ .stopped then (s, some .STATE_CONFLICT)
  else (if (s.gr g).powered then s.groupOff g else s, some .OK)

/-- The PLL of a powered group locks onto the frame grid (R458): the write answers. -/
def State.pllLock (s : State) (g : Nat) : State :=
  let r := s.gr g
  if !r.powered || s.tb g != 0 || !s.framesRun then s
  else ((s.setTb g 1).modGr g fun r => { r with pwrAns := none }).answer r.pwrAns .OK

/-! ### Adaptive VDDC (R455, R456) -/

/-- The adaptive control acts. -/
def State.vddcOn (s : State) : Bool := s.rd .VDDC_MODE == 1 && !s.pwr.vddcFell && s.framesRun

/-- Every 1 ms: a margin below PACE_ALARM raises the target (R456). -/
def State.vddcUp (s : State) : State :=
  let low := allGroups.any fun g => match (s.gr g).pace1 with | some n => decide ((n : Int) < s.rd .PACE_ALARM) | none => false
  let t := s.rd .VDDC_TARGET
  let s := s.each allGroups fun s g => s.modGr g fun r => { r with pace1 := none }
  if s.vddcOn && low then s.wr .VDDC_TARGET 0 0 (if 900 < t + 10 then 900 else t + 10) else s

/-- Every 100 ms: an ample margin of every group lowers it (R456). -/
def State.vddcDown (s : State) : State :=
  let l := allGroups.filterMap fun g => (s.gr g).pace100
  let t := s.rd .VDDC_TARGET
  let ample := !l.isEmpty && l.all fun (n : Nat) => decide (s.rd .PACE_ALARM + 64 ≤ (n : Int))
  let s := s.each allGroups fun s g => s.modGr g fun r => { r with pace100 := none }
  if s.vddcOn && ample then s.wr .VDDC_TARGET 0 0 (if t - 5 < 650 then 650 else t - 5) else s

/-- VDDC_MEAS has lain more than 20 mV from the target for 10 ms (R455). -/
def State.vddcFall (s : State) (meas : Nat) : State :=
  let s := { s with pwr := { s.pwr with meas := { s.pwr.meas with vddc := meas } } }
  if s.vddcOn && decide (20 < ((meas : Int) - s.rd .VDDC_TARGET).natAbs) then
    { s with pwr := { s.pwr with vddcFell := true } }.report srcSup 0x38 0 3
  else s

/-! ### Measured dissipation (R464, R465) -/

/-- Units of a term of PWR_OUT: 1 µW is 2^74 × 10^15 of them. -/
def powerUnit : Int := 2 ^ 74 * 10 ^ 15

/-- The dissipation of a channel from its means in FRAC24 codes, with the analogue rails in µV (R464). -/
def State.powerTerm (s : State) (avpp avnn : Int) (x : Nat × Int × Int) : Int :=
  let c := x.1
  if !(s.ch c).out.charged then 0
  else if s.boosted c then 5000 * powerUnit
  else
    let ir := s.rdN .I_RANGE c
    let i := x.2.2 * fsI ir
    -- the driver's voltage in units of µV / (2^52 × 10^6)
    let w := x.2.1 * spanV (s.rdN .V_RANGE c) * 2 ^ 29 * 10 ^ 6 + i * s.shunt c ir
    let k : Int := 2 ^ 52 * 10 ^ 6
    if 0 ≤ i then (avpp * k - w) * i else (w - avnn * k) * (-i)

/-- PWR_OUT and what is compared with it (R464, R465). -/
def State.account (s : State) (avpp avnn : Int) (means : List (Nat × Int × Int)) (total : Nat) : State :=
  let sum := (means.map fun x => s.powerTerm avpp avnn x).foldl (· + ·) 0
  let p := clampI 0 4294967295 (roundEven sum powerUnit)
  let s := s.wr .PWR_OUT 0 0 p
  let hot := if 6000000 < p then s.pwr.hotN + 1 else 0
  let cool := if p < 5700000 then s.pwr.coolN + 1 else 0
  let over_ := if (ceilDiv s.charges 1000 + 300000 : Nat) < p then s.pwr.overN + 1 else 0
  let s := { s with pwr := { s.pwr with hotN := hot, coolN := cool, overN := over_
                                        meas := { s.pwr.meas with powerMw := total } } }
  let s := if 100 ≤ hot then s.wr .BUDGET_HOT 0 0 1 else if 100 ≤ cool then s.wr .BUDGET_HOT 0 0 0 else s
  if 100 ≤ over_ ∧ ¬ s.pwr.powerSaid then
    { s with pwr := { s.pwr with powerSaid := true } }.report srcSup 0x3A 0 0
  else s

/-! ### Commands -/

/-- SUPPLY_LOSS (R446). -/
def execSupplyLoss (i : Fin 8) (s : State) : Host.Outcome State Fault Refusal := .next (s.railLost i)

/-- SUPPLY_RETURN (R448). -/
def execSupplyReturn (s : State) : Host.Outcome State Fault Refusal := .next s.railsBack

/-- POWER_ON_RESET (R449). -/
def execPowerOnReset (s : State) : Host.Outcome State Fault Refusal := .next (s.restart 0)

/-- NRST (R449). -/
def execNrst (s : State) : Host.Outcome State Fault Refusal := .next (s.restart 1)

/-- HOST_RESET_DELAY_EXPIRY (R449). -/
def execHostResetDelayExpiry (s : State) : Host.Outcome State Fault Refusal :=
  .next (match s.pwr.resetAt with
    | some t => if t ≤ s.now then s.restart 2 else s
    | none => s)

/-- BOOT_STAGE_COMPLETE (R452). -/
def execBootStageComplete (b : BootIn) (s : State) : Host.Outcome State Fault Refusal :=
  .next (match s.pwr.stage with
    | 0 => s.bootStage0 b
    | 1 => s.bootStage1
    | 2 => s.bootStage2 b
    | 3 => s.bootStage3
    | 4 => s.bootStage4
    | _ => s)

/-- BOOT_REFCLK_TIMEOUT (R452): the report names TBG0 (DEDUCED, log 25). -/
def execBootRefclkTimeout (s : State) : Host.Outcome State Fault Refusal :=
  .next (if s.pwr.stage = 1 ∧ s.pwr.bootFrom + 100000000 ≤ s.now then s.report (srcTb 0) 0x01 0 0 .severe else s)

/-- GROUP_PLL_LOCK (R458). -/
def execGroupPllLock (g : GroupNo) (s : State) : Host.Outcome State Fault Refusal := .next (s.pllLock g)

/-- SLEEP_RAMPS_DONE (R459). -/
def execSleepRampsDone (s : State) : Host.Outcome State Fault Refusal := .next s.sleepRamped

/-- SLEEP_QUIESCE_DONE (R459). -/
def execSleepQuiesceDone (s : State) : Host.Outcome State Fault Refusal := .next s.sleepQuiet

/-- SLEEP_COMMIT_DONE (R459). -/
def execSleepCommitDone (s : State) : Host.Outcome State Fault Refusal := .next s.sleepCommitted

/-- SLEEP_POWER_DOWN (R460). -/
def execSleepPowerDown (s : State) : Host.Outcome State Fault Refusal := .next s.sleepNow

/-- SLEEP_UNTIL_REACHED (R462, R463). -/
def execSleepUntilReached (s : State) : Host.Outcome State Fault Refusal :=
  .next (if (s.pwr.asleep ∨ s.pwr.entry ≠ 0) ∧ s.sleepOver then s.wakeBy 2 0 else s)

/-- WAKE_COMPLETE (R462). -/
def execWakeComplete (s : State) : Host.Outcome State Fault Refusal := .next s.woken

/-- VDDC_STEP_UP (R456). -/
def execVddcStepUp (s : State) : Host.Outcome State Fault Refusal := .next s.vddcUp

/-- VDDC_STEP_DOWN (R456). -/
def execVddcStepDown (s : State) : Host.Outcome State Fault Refusal := .next s.vddcDown

/-- VDDC_FALLBACK (R455). -/
def execVddcFallback (meas : Nat) (s : State) : Host.Outcome State Fault Refusal := .next (s.vddcFall meas)

/-- POWER_ACCOUNTING (R464, R465). -/
def execPowerAccounting (avpp avnn : Int) (means : List (Nat × Int × Int)) (totalMw : Nat) (s : State) :
    Host.Outcome State Fault Refusal :=
  .next (if s.framesRun then s.account avpp avnn means totalMw else s)

end Sys2Proof.Machine
end

