-- ==== Sys2Proof/Machine/Host.lean ====
section
/-! DEFINITION. What a host write does once its access checks have passed (step 10 of R45, R46, R47, R55, R338), and what a
host read returns (R42). -/
namespace Sys2Proof.Machine
open Sys2Proof

/-- What a write answers: at once with a status, or later. -/
abbrev Eff := State × Option Status

/-! ### Conditions shared by several objects (R55, R405, R459) -/

/-- A write that starts an engine, drives an output or switches the mode (R55, R459): SAFE_STATE in the safe state, and
STATE_CONFLICT during deep sleep entry. MODE and the range requests meet their own checks later. -/
def startsWork (o : Obj) (v : Int) : Bool :=
  match o with
  | .OUT_CMD => v == 1 || v == 2 || v == 4
  | .CHT_CMD => v == 1
  | .CTL_RUN | .FILT_RUN => v == 1
  | .CAL_CMD => v == 1
  | .EP_CONNECT | .LOAD_BASE | .MODE | .V_RANGE | .I_RANGE | .RANGE_SET | .PWR_CMD => true
  | _ => false

/-- Objects whose refusals in the safe state and on standby their own chapters order (R68, R139, R318). -/
def ownSafe : Obj → Bool
  | .MODE | .V_RANGE | .I_RANGE | .RANGE_SET | .CAL_CMD => true
  | _ => false

/-- The conditions of the device on a write: safe state, deep sleep entry, pair standby. -/
def State.deviceCheck (s : State) (o : Obj) (i : Nat) (v : Int) : Option Status :=
  if startsWork o v && !ownSafe o && s.latch then some .SAFE_STATE
  else if startsWork o v && s.pwr.entry != 0 then some .STATE_CONFLICT
  else match groupOfObj o i with
  | some g => if s.standby g && !(ownSafe o && startsWork o v) then some .PAIR_STANDBY else none
  | none => none

/-! ### Channel objects -/

/-- Objects of a channel or group that come into force at a strobe (R27, R46). -/
def tickBound : Obj → Bool
  | .DECL_I | .SENSE_SEL | .GUARD_SRC | .FORCE_MODE | .SETPOINT | .COMPL_LIM | .COMPL_ENTER | .COMPL_EXIT | .APERTURE_N
  | .TEV_V_CTRL | .TEV_V_LEVEL | .TEV_V_HYST | .TEV_I_CTRL | .TEV_I_LEVEL | .TEV_I_HYST | .REED_V_CTRL | .REED_V_HI
  | .REED_V_LO | .REED_I_CTRL | .REED_I_HI | .REED_I_LO => true
  | o => isBank o

/-- OUT_CMD (R95 to R103): steps 1 to 6 of R97 as the write executes, the rest at its strobe. A group without strobes takes
OFF and MUTE at a TBA tick, and no other command (R47, R96). -/
def State.outCmd (s : State) (c k : Nat) (a : Ans) : Eff :=
  let g := grpOf c
  if k = 1 ∨ k = 2 ∨ k = 4 then
    match s.outPre c with
    | some st => (s, some st)
    | none =>
      let (s, adm) := if k = 1 then s.armReview c else (s, none)
      (s.push g none (.out c k (.host a)) adm, none)
  else if s.strobes g then (s.push g none (.out c k (.host a)), none)
  else if (s.gr g).powered ∧ (s.ch c).out ≠ .off then (s.push g none (.out c k (.host a)), none)
  else (s.outAt c k (.host a), none)

/-- DECL_I (R35, R37, R38): the governor reviews the write as it executes; one that it refuses changes nothing. -/
def State.declWrite (s : State) (c n : Nat) (a : Ans) : Eff :=
  match s.declReview c n with
  | (s, some false) => (s.refuseBudget, some .OUTPUT_BUDGET)
  | (s, adm) => (s.pushHost (grpOf c) a (.set .DECL_I c 0 n) adm, none)

/-- A range request of a host (R137): it meets its checks at its strobe; a group without strobes refuses it (R47). -/
def State.rangeReq (s : State) (c : Nat) (vr ir : Option Nat) (a : Ans) : Eff :=
  let r : RangeReq := { vr := vr, ir := ir, src := .host a }
  let g := grpOf c
  if s.strobes g then (s.push g none (.range c r), none)
  else (s.rangeHeld c r, none)

/-- An object of R130 (R130, R131): to the staging bank while one is open. -/
def State.bankWrite (s : State) (o : Obj) (c : Nat) (v : Int) (a : Ans) : Eff :=
  match (s.ch c).bank with
  | some l => (s.modCh c fun h => { h with bank := some ((o, v) :: l.filter fun p => p.1 ≠ o) }, some .OK)
  | none =>
    if isNotch o && o != .NOTCH_EN && s.latest .NOTCH_EN c == 1 then (s, some .STATE_CONFLICT)
    else (s.pushHost (grpOf c) a (.set o c 0 v), none)

/-- LAW_HOLD (R131): the bank opens or closes as the write executes; its values come into force at one strobe. True with the bank open
keeps what is staged, and false without a bank has nothing to commit (DESIGN CHOICE, log 86): both answer after their strobe, as every
write of the object does (R46). -/
def State.lawHold (s : State) (c : Nat) (on : Bool) (a : Ans) : Eff :=
  let g := grpOf c
  if on then
    let s := (s.modCh c fun h => { h with bank := some (h.bank.getD []) }).wr .LAW_HOLD c 0 1
    (s.pushHost g a (.hold c), none)
  else match (s.ch c).bank with
  | none => (s.pushHost g a (.commitHold c), none)
  | some l =>
    let s := (s.modCh c fun h => { h with bank := none }).wr .LAW_HOLD c 0 0
    let s := s.each l fun s p => s.push g none (.set p.1 c 0 p.2)
    (s.pushHost g a (.commitHold c), none)

/-- BOOST_DECL (R35, R86). -/
def State.boostWrite (s : State) (c : Nat) (v : Int) : Eff :=
  let s' := s.wr .BOOST_DECL c 0 v
  if !s.admits s' then (s.refuseBudget, some .OUTPUT_BUDGET)
  else (s.boostPut c v, some .OK)

/-- CHT_CMD (R225, R226): at its strobe; in a group without strobes it is stored, and START is refused (R47). -/
def State.chtWrite (s : State) (c k : Nat) (a : Ans) : Eff :=
  if s.strobes (grpOf c) then (s.push (grpOf c) none (.cht c k (.host a)), none)
  else if k = 1 then (s, some (s.startHeld c))
  else (s.push (grpOf c) none (.cht c k (.host none)), some .OK)

/-- EP_CONNECT (R240): 0xFFFF releases. -/
def State.epWrite (s : State) (c v : Nat) (a : Ans) : Eff :=
  (s.pushHost (grpOf c) a (.endpoint c (if v = 0xFFFF then none else some v)), none)

/-! ### Group objects -/

/-- CTL_RUN = true (R134, R338). While the engine runs it does nothing, a stop that waits for its strobe included. A filter engine whose
stop waits for its strobe counts as STOPPED here (R194; DESIGN CHOICE, log 110). -/
def State.ctlStartReq (s : State) (g : Nat) (a : Ans) : Eff :=
  let r := s.gr g
  match s.fenceStatus (srcCtl g) with
  | some st => (s, some st)
  | none =>
    if r.ctl then (s, some .OK)
    else match r.ctlStart with
    | some l => ((s.wr .CTL_RUN g 0 1).modGr g fun r => { r with ctlStart := some (l ++ [a]) }, none)
    | none =>
      if r.filt = .stopped ∨ ¬ s.rdT .FILT_RUN g then (s, some .STATE_CONFLICT)
      else ((s.wr .CTL_RUN g 0 1).modGr g fun r => { r with ctlStart := some [a] }, none)

/-- CTL_RUN = false (R134). -/
def State.ctlStopReq (s : State) (g : Nat) (a : Ans) : Eff :=
  let r := s.gr g
  if (chansOf g).any fun c => (s.ch c).out.charged then (s, some .STATE_CONFLICT)
  else
    let s := s.wr .CTL_RUN g 0 0
    if !r.ctl && r.ctlStart.isNone then (s, some .OK) else (s.pushHost g a .ctlStop, none)

/-- The status of a request whose effect needs a fenced filter engine (R338). -/
def State.filtFence (s : State) (g : Nat) : Option Status := firstStatus [s.fenceStatus (srcLoop g), s.fenceStatus (srcRec g)]

/-- FILT_RUN = true (R194, R338, R458). -/
def State.filtStartReq (s : State) (g : Nat) (a : Ans) : Eff :=
  let r := s.gr g
  let on := s.rdT .FILT_RUN g
  match s.filtFence g with
  | some st => (s, some st)
  | none =>
    if !r.powered then (s, some .STATE_CONFLICT)
    else if r.filt ≠ .stopped ∧ on ∧ r.filtStart.isNone then (s, some .OK)
    else ((s.wr .FILT_RUN g 0 1).modGr g fun r => { r with filtStart := some (r.filtStart.getD [] ++ [a]) }, none)

/-- FILT_RUN = false (R194). -/
def State.filtStopReq (s : State) (g : Nat) (a : Ans) : Eff :=
  let r := s.gr g
  if s.rdT .CTL_RUN g || r.ctlStart.isSome then (s, some .STATE_CONFLICT)
  else
    let s := s.wr .FILT_RUN g 0 0
    if r.filt = .stopped ∧ r.filtStart.isNone then (s, some .OK) else (s.pushHost g a .filtStop, none)

/-- CAL_CMD (R318, R327): start, or an abort that answers OK also when no command runs. A start whose check still runs is
answered STATE_CONFLICT by the abort (DEDUCED, log 26). -/
def State.calWrite (s : State) (g k n : Nat) (secure : Bool) (a : Ans) : Eff :=
  if k = 1 then s.calStartReq g n secure a
  else match s.fenceStatus srcCal with
  | some st => (s, some st)
  | none => (s.calEnd g 4 .STATE_CONFLICT, some .OK)

/-- A calibration command runs in the group or is about to (R317). -/
def State.calRuns (s : State) (g : Nat) : Bool := (s.gr g).cal.phase != 0 || (s.gr g).cal.starting.isSome

/-! ### Device objects -/

/-- The release of a unit's fence that its own object asks for (R341); without a fence there is nothing to test. -/
def State.releaseReq (s : State) (src : Nat) (a : Ans) : Eff :=
  if s.fencedSrc src then (s.askRelease (s.fencedWith src) a, none) else (s, some .OK)

/-- MON_RESTART (R272, R341): the recalibration starts, and with it the release of a fence. -/
def State.monRestartReq (s : State) (g : Nat) (a : Ans) : Eff :=
  (s.askRelease (if s.fencedSrc (srcMon g) then s.fencedWith (srcMon g) else []) a (some g), none)

/-- MTX_RESTART (R244): BREAK_ALL on the line, ahead of everything that waits; it needs SP0 and the matrix controller. -/
def State.mtxRestartReq (s : State) (l : Nat) (a : Ans) : Eff :=
  match firstStatus [s.fenceStatus srcMtx, s.fenceStatus (srcSp 0)] with
  | some st => (s, some st)
  | none => (s.addTxn { newTxn none l s.now [(0, opBreakAll, 0), (0, opNop, 0)] with restart := true, ans := a }, none)

/-- LEDGER_COMMIT (R254, R437): a commit starts, or waits until 1 s after the start of the one before. -/
def State.commitReq (s : State) (a : Ans) : Eff :=
  if s.mtx.committing.isNone ∧ (s.mtx.commitAt = 0 ∨ s.mtx.commitAt + 1000000000 ≤ s.now) then (s.commitStart [a], none)
  else ({ s with mtx := { s.mtx with commitNext := s.mtx.commitNext ++ [a] } }, none)

/-- EV_FIRE (R291, R296): the cause is 0xF000 + session. -/
def State.fire (s : State) (k n : Nat) : Eff :=
  if s.evEnabled k then (s.assertEv k (0xF000 + n), some .OK) else (s, some .STATE_CONFLICT)

/-- VIOL_CLEAR (R61): the ring is emptied. -/
def State.violClear (s : State) : State :=
  (s.each (List.range 64) fun s k => s.wrV .VIOL_ENTRY 0 k (.bytes [])).wr .VIOL_NEWEST 0 0 0

/-- RTC_SET (R368, R442). -/
def State.rtcWrite (s : State) (t : Nat) : Eff :=
  if s.rd .PTP_STATE = 3 then (s, some .STATE_CONFLICT)
  else
    let ns := nsOf t
    let s := { s with clk := { s.clk with rtc := (ns : Int) - s.clk.up }, nvm := { s.nvm with rtcValid := true } }
    (s.stepTime ((s.clk.up : Int) + s.clk.tbp - ns), some .OK)

/-- MODE (R68, R70): the switch reaches the configuration engine. -/
def State.modeReq (s : State) (m n : Nat) (secure : Bool) (a : Ans) : Eff :=
  (s.startSwitch ⟨m, .host a, n, secure⟩, none)

/-- IMAGE_COMMIT (R74): the session's later requests wait behind it. -/
def State.commitWrite (s : State) (n : Nat) (a : Ans) : Eff :=
  let (s, r) := s.commitImage a
  (if r.isNone then s.modSe n fun x => { x with gated := true } else s, r)

/-- SESSION_KEY (R77): erased by an empty value. -/
def State.keyWrite (s : State) (k : Nat) (b : List Byte) : Eff :=
  if (recPages 1).any s.pageDead then (s, some .NVM_FAULT)
  else ({ s with nvm := { s.nvm with keys := s.nvm.keys.put (fun _ => []) k b } }.nvmPut (recPages 1), some .OK)

/-- SP1_GO (R399, R401). -/
def State.goWrite (s : State) (sel : Nat) (a : Ans) : Eff := (s.sp1Go sel a, none)

/-! ### The effect of a write -/

/-- The effect of a write of session n that has passed steps 1 to 9, by its object. -/
def State.effectOf (s : State) (o : Obj) (i e n : Nat) (secure : Bool) (v : Val) (a : Ans) : Eff :=
  let x := v.int
  let m := x.toNat
  let g := i
  let stored : Eff := (s.putCfg o i e v, some .OK)
  match o with
  -- channels
  | .OUT_CMD => s.outCmd i m a
  | .DECL_I => s.declWrite i m a
  | .V_RANGE => s.rangeReq i (some m) none a
  | .I_RANGE => s.rangeReq i none (some m) a
  | .RANGE_SET => s.rangeReq i (some (bits m 4 4)) (some (bits m 0 4)) a
  | .LAW_HOLD => s.lawHold i (x == 1) a
  | .BOOST_DECL => if s.sliceConflict o i x then (s, some .STATE_CONFLICT) else s.boostWrite i x
  | .BOOST_RANGE | .BOOST_GAIN => if s.sliceConflict o i x then (s, some .STATE_CONFLICT) else stored
  | .SENSE_SEL =>
    if s.sliceConflict o i x then (s, some .STATE_CONFLICT) else (s.pushHost (grpOf i) a (.set o i e x), none)
  | .APERTURE_REBASE => match s.filtFence (grpOf i) with | some st => (s, some st) | none => (s.pushHost (grpOf i) a (.rebase i), none)
  | .APERTURE_N =>
    match s.filtFence (grpOf i) with | some st => (s, some st) | none => (s.pushHost (grpOf i) a (.set o i e x), none)
  | .CHT_CMD => s.chtWrite i m a
  | .EP_CONNECT => s.epWrite i m a
  | .REED_CLEAR => (s.modCh i fun h => { h with seen := 0 }, some .OK)
  -- groups
  | .CTL_RUN => if x = 1 then s.ctlStartReq g a else s.ctlStopReq g a
  | .FILT_RUN => if x = 1 then s.filtStartReq g a else s.filtStopReq g a
  | .GROUP_PWR => s.groupPwr g (x == 1) a
  | .CAL_CMD => s.calWrite g m n secure a
  | .CAL_CHANNELS | .CAL_SPARE | .CAL_RANGES | .CAL_KIND | .CAL_STD =>
    if s.calRuns g then (s, some .CAL_BUSY) else stored
  | .PAIR_HANDOVER => s.handoverReq g a
  -- monitors, Reeds, router, matrices
  | .MON_URGENT => s.monUrgentReq i m a
  | .MON_RESTART => s.monRestartReq i a
  | .MTRGO_PULSE => (s.mtrgoRise, some .OK)
  | .REED_TEST => (s.testStart i, some .OK)
  | .EV_FIRE => s.fire i n
  | .EV_LOG_CLEAR => ({ s with rtr := { s.rtr with log := [], lastLog := [] } }, some .OK)
  | .MTX_RESTART => s.mtxRestartReq i a
  | .LEDGER_CMD =>
    let (s, st) := s.ledgerCmd (bits m 28 4) (bits m 0 20)
    (s, some st)
  | .LEDGER_COMMIT => s.commitReq a
  -- faults
  | .FLT_UNFENCE => (s.askRelease (s.fencedWith m) a, none)
  | .FLT_SAFE => ((if s.latch then s else s.safeReq srcOd 0 n), some .OK)
  | .FLT_LOG_CLEAR => (s.faultLogClear, some .OK)
  -- network and time
  | .STREAM_EN => if x = 1 then (s.streamStart i, some .OK) else (s.streamStop i a, none)
  | .PPS_SECONDS => ({ s with clk := { s.clk with ppsNext := some m } }, some .OK)
  | .RTC_SET => s.rtcWrite m
  -- serial ports
  | .SP_CLEAR => (s.modSp i fun p => { p with mmFault := false, strobeErr := false }, some .OK)
  | .SP_RESTART => s.releaseReq (srcSp i) a
  | .SP1_GO => s.goWrite m a
  | .SP1_MB_TX => let (s, st) := s.mailboxPut (blobWords v.blob); (s, some st)
  -- pair
  | .PAIR_ID | .PAIR_WIT_EVO | .PAIR_WIT_EVI => if s.rdT .PAIR_EN then (s, some .STATE_CONFLICT) else stored
  -- configuration, power
  | .MODE => s.modeReq m n secure a
  | .IMAGE_COMMIT => s.commitWrite n a
  | .LOAD_BASE => s.loadBase
  | .VIOL_CLEAR => (s.violClear, some .OK)
  | .SESSION_KEY => s.keyWrite i v.blob
  | .SYS_RESET => ({ s with pwr := { s.pwr with resetAt := some (s.now + 1000000) } }, some .OK)
  | .PWR_CMD => s.sleepReq a
  | .WAVE_LEN => if (s.wavePlaces i 0 m).any s.pageDead then (s, some .NVM_FAULT) else stored
  | _ => if isBank o then s.bankWrite o i x a
    else if tickBound o then (s.pushHost ((groupOfObj o i).getD 0) a (.set o i e x), none)
    else stored

/-- A write that has passed steps 1 to 9: the device's conditions, then the effect (step 10). -/
def State.writeEffect (s : State) (o : Obj) (i e n : Nat) (secure : Bool) (v : Val) (a : Ans) : Eff :=
  match s.deviceCheck o i v.int with
  | some st => (s, some st)
  | none =>
    let (s, r) := s.effectOf o i e n secure v a
    let kept := (o.desc.cls == .RW || o.desc.cls == .RWS) && !tickBound o && (r.isNone || r == some .OK)
    (if kept then s.configOut o i e v.int else s, r)

/-! ### Reads (R42) -/

/-- The request that asked for an effect is of the session with mark k. -/
def Origin.ofSession (k : Nat) : Origin → Bool
  | .host (some (j, _)) => j == k
  | .host none => true
  | _ => false

/-- A change on its way was written by the session with mark k, or stored for a group without strobes. -/
def Change.ofSession (k : Nat) (x : Change) : Bool :=
  match x.what with
  | .set .. => (match x.ans with | some (j, _) => j == k | none => true)
  | .range _ r => r.src.ofSession k
  | _ => false

/-- The range that a session has asked of a Slide and that is not in force yet (R42). -/
def State.slidePend (s : State) (k : Nat) (o : Obj) (c : Nat) : Option Int :=
  let l := (s.ch c).slide
  let f (r : RangeReq) : Option Nat :=
    if r.src.ofSession k then (match o with | .V_RANGE => r.vr | .I_RANGE => r.ir | _ => none) else none
  match l.pend.bind f, l.req.bind f with
  | some x, _ => some x
  | none, some x => if l.phase != .idle then some x else none
  | none, none => none

/-- The mode that a session has asked for and that is not in force yet (R42, R68). -/
def State.modePend (s : State) (k : Nat) : Option Nat :=
  ((s.cfg.cur.toList ++ s.cfg.waiting).reverse.find? fun w => w.org.ofSession k).map (·.target)

/-- The value that a read of the session with mark k returns: its own latest write, else what the object shows (R42, R131). -/
def State.readVal (s : State) (k : Nat) (o : Obj) (i e : Nat) : Val :=
  let staged : Option Int := if isBank o then (s.ch i).bank.bind fun l => (l.find? fun p => p.1 = o).map (·.2) else none
  match staged, s.pendBy (Change.ofSession k) o i e with
  | some v, _ => .num v
  | none, some v => .num v
  | none, none =>
    match (if o = .V_RANGE ∨ o = .I_RANGE then s.slidePend k o i else if o = .MODE then (s.modePend k).map Int.ofNat else none) with
    | some v => .num v
    | none => s.view o i e

/-- What a read itself changes: accumulators (R270), the mailbox (R398), the loss bit of a timebase (Table TB_STATUS), a free
value taken. -/
def State.afterRead (s : State) (n : Nat) (o : Obj) (i e : Nat) : State :=
  let s := if readsFree o then s.draw.2 else s
  match o with
  | .MON_ACC_A => if s.clears n then s.accClear i e else s
  | .MON_ACC_B => if s.clears n then s.accClear i (16 + e) else s
  | .MON_SNAP => if s.clears n then s.each (List.range 32) fun s k => s.accClear i k else s
  | .SP1_MB_RX => { s with mbox := { s.mbox with rxq := [] } }
  | .TB_STATUS => { s with clk := { s.clk with tbSeen := setBit s.clk.tbSeen e false } }
  | _ => s

end Sys2Proof.Machine
end

