-- ==== Sys2Proof/Machine/Block.lean ====
section
/-! DEFINITION. The large tables and block transfer (R62 to R65, R373): the checks of an open, the elements that segments
move, and the close. -/
namespace Sys2Proof.Machine
open Sys2Proof

/-- What a request answers at once: status and body; none where it answers later. -/
abbrev Now := State × Option (Status × Val)

/-- An answer without a body. -/
def State.say (s : State) (st : Status) : Now := (s, some (st, .num 0))

/-! ### Elements (R62, R198, R218, R234, R249, R304, R311, R352, R438) -/

/-- The bytes of element k of a table (Table "Large tables"). -/
def State.elemBytes (s : State) (idx sub k : Nat) : List Byte :=
  if idx = 0xC000 then beBytes 16 (s.sweepEl k).toNat
  else if idx = 0xC100 then beBytes 8 (s.mapEl k)
  else if idx = 0xC200 then beBytes 8 (s.ledgerEl k)
  else if idx = 0xC300 then beBytes 3 (code 24 (s.wavePoint (sub - 1) k))
  else if idx = 0xC400 then beBytes 16 (s.flt.log.get (fun _ => 0) k)
  else if idx = 0xC410 then beBytes 16 (s.rtr.log.get (fun _ => 0) k)
  else if idx = 0xC500 then calBytes (calOf s.cal k)
  else if idx = 0xC600 then beBytes 64 (s.drn.tlm.get (fun _ => 0) k)
  else []

/-- Elements of a table (R62, R219). -/
def State.tableLen (s : State) (idx sub : Nat) : Nat :=
  if idx = 0xC300 then s.rdN .WAVE_LEN (sub - 1) else ((largeTable idx).map fun t => t.2.2).getD 0

/-- The tables that the host writes (Table "Large tables"). -/
def tableWritable (idx : Nat) : Bool := idx == 0xC000 || idx == 0xC100 || idx == 0xC300 || idx == 0xC700

/-! ### Units of elements (R56, R199, R236) -/

/-- The unit of a table's element. -/
def State.elemUnit (s : State) (idx k : Nat) : OwnUnit :=
  if idx = 0xC000 then ((allChans.find? fun c => s.inRegion c k).map OwnUnit.channel).getD .config
  else if idx = 0xC100 then .channel (k / 2048)
  else .config

/-- Steps 2, 4 and 10 of R45 for a write of session n to elements of a unit (R56, R58, R405). -/
def State.unitRights (s : State) (n : Nat) (secure : Bool) (u : OwnUnit) : Option Status :=
  if s.secureUnit u && !secure then some .SECURE_ONLY
  else if !(s.owner u == 0 || s.owner u == n) then some .NOT_OWNER
  else match u with
  | .channel c => if s.standby (grpOf c) then some .PAIR_STANDBY else none
  | _ => none

/-! ### Open (R63, R219) -/

/-- The elements of a table belong each to a unit of its own (R199, R236). -/
def perElement (idx : Nat) : Bool := idx == 0xC000 || idx == 0xC100

/-- The units that an access to a table's elements concerns: the configuration unit, or that of each element (R56, R199, R236). -/
def State.openUnits (s : State) (idx sub off cnt : Nat) : List OwnUnit :=
  if perElement idx then (rangeFrom off (min cnt (s.tableLen idx sub - off))).map (s.elemUnit idx) else [.config]

/-- The checks of R45 that apply to an open (step 1 of R63), in their order: the first failure. A segment checks the rights over an
element again as it writes it (R64; DEDUCED, log 28); `res` tells of a non-zero reserved field (R7). -/
def State.openRights (s : State) (n : Nat) (secure : Bool) (idx sub : Nat) (w : Bool) (off cnt : Nat) (res : Bool := false) :
    Option Status :=
  let us := if w then s.openUnits idx sub off cnt else []
  if !secure && (idx == 0xC700 || us.any s.secureUnit) then some .SECURE_ONLY
  else if w && !tableWritable idx then some .READ_ONLY
  else if !w && idx == 0xC700 then some .WRITE_ONLY
  else if us.any fun u => !(s.owner u == 0 || s.owner u == n) then some .NOT_OWNER
  else if w && res then some .RESERVED_NONZERO
  else match us.findSome? (s.unitRights n secure) with
  | some st => some st
  | none =>
    if w && idx == 0xC300 && s.rd .WAVE_PLAYERS (sub - 1) != 0 then some .STATE_CONFLICT
    else if w && idx == 0xC300 && (s.wavePlaces (sub - 1) off cnt).any s.pageDead then some .NVM_FAULT
    else none

/-- The checks of an open in their order (R63, R219): the first failure. -/
def State.openCheck (s : State) (n : Nat) (secure : Bool) (idx sub : Nat) (w : Bool) (off cnt : Nat) (res : Bool := false) :
    Option Status :=
  match largeTable idx with
  | none => some .NO_OBJECT
  | some (top, _, _) =>
    if sub = 0 ∨ top < sub then some .NO_SUBINDEX
    else match s.openRights n secure idx sub w off cnt res with
    | some st => some st
    | none =>
      if (s.se n).block.isSome then some .BLOCK_BUSY
      else if s.tableLen idx sub < off + cnt then some .BLOCK_OFFSET
      else none

/-- BLOCK_OPEN (R63, R373): ELEM_SIZE and SEG_MAX. -/
def State.blockOpen (s : State) (n : Nat) (secure : Bool) (idx sub : Nat) (w : Bool) (off cnt : Nat) (res : Bool := false) : Now :=
  match s.openCheck n secure idx sub w off cnt res with
  | some st => s.say st
  | none =>
    (s.modSe n fun x => { x with block := some ⟨idx, sub, w, off, cnt, crcInit⟩ },
     some (.OK, .bytes (beBytes 2 (elemSize idx) ++ beBytes 2 (s.segMax idx))))

/-! ### Segments (R64, R65) -/

/-- A block write of element k of the endpoint map (R234, R235). -/
def State.mapWrite (s : State) (k v : Nat) : State × Status :=
  let old := s.mapEl k
  let phys (x : Nat) : Nat := bits x 15 8
  let full := decide (v ≠ mapDefault k) && old == mapDefault k && decide (32768 ≤ s.mapUsed)
  if mapElOk v ≠ .OK then (s, mapElOk v)
  else if full || ((s.resvBy k).isSome && phys v != phys old) then (s, .BAD_VALUE)
  else (({ s with mtx := { s.mtx with map := s.mtx.map.put mapDefault k v } }).wr .MAP_DIRTY 0 0 1, .OK)

/-- A written element of a channel's table is mirrored (R411). -/
def State.elemOut (s : State) (u : OwnUnit) (m : MirrorConfig) : State :=
  match u with
  | .channel c => s.tellConfig (grpOf c) m
  | _ => s

/-- One element is written as one update (R64): its unit's rights, the checks of its chapter, and the update. -/
def State.elemWrite (s : State) (n : Nat) (secure : Bool) (idx sub k : Nat) (b : List Byte) : State × Status :=
  match s.unitRights n secure (s.elemUnit idx k) with
  | some st => (s, st)
  | none =>
    let v := beNat b
    if idx = 0xC000 then
      if sweepCheck v = .OK then
        ({ s with sweep := s.sweep.put sweepReset k (BitVec.ofNat 128 v) }.elemOut (s.elemUnit idx k) (.sweep k v), .OK)
      else (s, sweepCheck v)
    else if idx = 0xC100 then
      let (s, st) := s.mapWrite k v
      (if st = .OK then s.elemOut (s.elemUnit idx k) (.map k v) else s, st)
    else if idx = 0xC300 then
      let at_ := s.wavePlaces (sub - 1) k 1
      if at_.any s.pageDead then (s, .NVM_FAULT) else
      let l := setAt 0 (wavePoints s (sub - 1)) k (sext 24 v)
      ({ s with cfg := { s.cfg with waves := s.cfg.waves.put (fun _ => []) (sub - 1) l } }.nvmPut at_, .OK)
    else ({ s with cfg := { s.cfg with image := s.cfg.image.put (fun _ => 0#8) k (b.headD 0#8) } }, .OK)

/-- Elements of a write segment in increasing offset order: the state, the first element not written, and the status of the
one that failed (R64). -/
def segWrite (n : Nat) (secure : Bool) (idx sub : Nat) : Nat → Nat → List Byte → State → State × Nat × Status
  | 0, k, _, s => (s, k, .OK)
  | m + 1, k, b, s =>
    match s.elemWrite n secure idx sub k (b.take (elemSize idx)) with
    | (s, .OK) => segWrite n secure idx sub m (k + 1) (b.drop (elemSize idx)) s
    | (s, st) => (s, k, st)

/-- A transfer ends; a waveform's CRC follows a write (R219). -/
def State.blockEnd (s : State) (n : Nat) : State :=
  (s.modSe n fun x => { x with block := none }).transferEnd (s.se n).block

/-- BLOCK_SEG (R63 to R65, R373). One of a write whose reserved fields are not 0 (`res`) moves no element, and the transfer stays
open (R7; DEDUCED, log 29). -/
def State.blockSeg (s : State) (n : Nat) (secure : Bool) (off cnt : Nat) (data : List Byte) (res : Bool := false) : Now :=
  match (s.se n).block with
  | none => s.say .BLOCK_SEGMENT
  | some b =>
    let want := if b.dirWrite then cnt * elemSize b.idx else 0
    if off ≠ b.next ∨ b.left < cnt ∨ s.segMax b.idx < cnt ∨ data.length ≠ want then
      (s, some (.BLOCK_SEGMENT, .bytes (beBytes 4 b.next)))
    else if b.dirWrite ∧ res then (s.violate n 4 b.idx b.sub .RESERVED_NONZERO, some (.RESERVED_NONZERO, .bytes (beBytes 4 b.next)))
    else if b.dirWrite then
      match segWrite n secure b.idx b.sub cnt off data s with
      | (s, k, .OK) =>
        (s.modSe n fun x => { x with block := some { b with next := k, left := b.left - cnt, crc := crcUpd b.crc data } },
         some (.OK, .bytes (beBytes 4 k)))
      | (s, k, st) =>
        let s := if st.violation then s.violate n 4 b.idx b.sub st else s
        (s.blockEnd n, some (st, .bytes (beBytes 4 k)))
    else
      let bytes := (rangeFrom off cnt).flatMap fun k => s.elemBytes b.idx b.sub k
      (s.modSe n fun x =>
        { x with block := some { b with next := off + cnt, left := b.left - cnt, crc := crcUpd b.crc bytes } },
       some (.OK, .bytes (beBytes 4 (off + cnt) ++ bytes)))

/-- BLOCK_CLOSE (R63, R64): the CRC-32 of all bytes moved. -/
def State.blockClose (s : State) (n crc : Nat) : Now :=
  match (s.se n).block with
  | none => s.say .BLOCK_SEGMENT
  | some b => (s.blockEnd n).say (if crcFin b.crc = crc then .OK else .BLOCK_CHECK)

/-- A BLOCK_CLOSE whose reserved bytes are not 0 (R7): of a write it is rejected, and the transfer stays open (DEDUCED, log 29); of
anything else it is `plain`. -/
def State.closeMarked (s : State) (n : Nat) (plain : Now) : Now :=
  match (s.se n).block with
  | some b => if b.dirWrite then (s.violate n 4 b.idx b.sub .RESERVED_NONZERO).say .RESERVED_NONZERO else plain
  | none => plain

/-- BLOCK_CLOSE with ABORT (R373). -/
def State.blockAbort (s : State) (n : Nat) : Now :=
  match (s.se n).block with
  | none => s.say .BLOCK_SEGMENT
  | some _ => (s.blockEnd n).say .BLOCK_ABORTED

end Sys2Proof.Machine
end

