-- ==== Sys2Proof/Machine/Requests.lean ====
section
/-! DEFINITION. Requests over KOP (R48 to R55, R60, R370 to R375): the session's order, the execution of one request, opening
and closing sessions; received frames (R360, R363); and the commands that name no object. -/
namespace Sys2Proof.Machine
open Sys2Proof

/-! ### Reads and writes (R42, R45) -/

/-- A read of session n (R45: steps 1 to 3). -/
def State.doRead (s : State) (n : Nat) (secure : Bool) (t : Target) : Now :=
  match placeOf t with
  | .bad st => s.say st
  | .top k => (s, some (.OK, .num k))
  | .obj o i e =>
    match readCheck o secure with
    | some st => s.say st
    | none => (s.afterRead n o i e, some (.OK, s.readVal (n + 16 * (s.se n).inc) o i e))

/-- A write of subindex 0, which is CONST: steps 2 and 3 of R45. -/
def State.topWrite (s : State) (secure : Bool) (t : Target) : Status :=
  match objsAt t.addr.1 with
  | o :: _ => if s.secureUnit (unitOf o ((t.addr.1 - o.desc.base) / max o.desc.stride 1)) && !secure then .SECURE_ONLY else .READ_ONLY
  | [] => .READ_ONLY

/-- A write of session n to an object's element (R45). -/
def State.writeObj (s : State) (n : Nat) (secure : Bool) (o : Obj) (i e : Nat) (w : WireVal) (a : Ans) : Eff :=
  match s.writeCheck o i n secure (decodeVal o.desc.ty w), decodeVal o.desc.ty w with
  | some st, _ => (s, some st)
  | none, none => (s, some .TYPE_MISMATCH)
  | none, some v => s.writeEffect o i e n secure v a

/-- A write of session n (R45). -/
def State.doWrite (s : State) (n : Nat) (secure : Bool) (t : Target) (w : WireVal) (a : Ans) : Eff :=
  match placeOf t with
  | .bad st => (s, some st)
  | .top _ => (s, some (s.topWrite secure t))
  | .obj o i e => s.writeObj n secure o i e w a

/-- A write with a non-zero reserved field: the first of steps 1 to 5 of R45 that fails, else RESERVED_NONZERO (R7). -/
def State.reservedWrite (s : State) (n : Nat) (secure : Bool) (t : Target) (w : WireVal) : Status :=
  match placeOf t with
  | .bad st => st
  | .top _ => s.topWrite secure t
  | .obj o i _ =>
    let v := decodeVal o.desc.ty w
    match s.rightsCheck o i n secure v with
    | some st => st
    | none => if v.isNone then .TYPE_MISMATCH else .RESERVED_NONZERO

/-- CLOSE executes: every request issued after it is discarded (R54). -/
def State.closeReq (s : State) (n : Nat) (a : Ans) : Now :=
  (s.modSe n fun x => { x with closing := a.map (·.2), waiting := [] }).say .OK

/-- The execution of one request (Table "KOP messages", R373). -/
def State.runOp (s : State) (n : Nat) (secure : Bool) (op : ReqOp) (a : Ans) : Now :=
  match op with
  | .read t => s.doRead n secure t
  | .write t v =>
    let (s, r) := s.doWrite n secure t v a
    (s, r.map fun st => (st, .num 0))
  | .nop => s.say .OK
  | .close => s.closeReq n a
  | .blockOpen idx sub w off cnt => s.blockOpen n secure idx sub w off cnt
  | .blockSeg off cnt data => s.blockSeg n secure off cnt data false
  | .blockClose crc => s.blockClose n crc
  | .blockAbort => s.blockAbort n
  | .reserved (.write t v) => s.say (s.reservedWrite n secure t v)
  | .reserved (.blockOpen idx sub w off cnt) => s.blockOpen n secure idx sub w off cnt true
  | .reserved (.blockSeg off cnt data) => s.blockSeg n secure off cnt data true
  | .reserved (.blockClose crc) => s.closeMarked n (s.blockClose n crc)
  | .reserved .blockAbort => s.closeMarked n (s.blockAbort n)
  | .reserved _ => s.say .RESERVED_NONZERO

/-! ### The session's order (R50 to R54) -/

/-- Distance of REQ_SEQ values modulo 2^32 (R50). -/
def seqDist (a b : Nat) : Nat := (b + 4294967296 - a % 4294967296) % 4294967296

/-- A request takes its place in the session's order (R50): it is the oldest that has not executed. -/
def State.enter (s : State) (n : Nat) (q : Req) : State :=
  (s.modSe n fun x => { x with next := some ((q.seq + 1) % 4294967296), outst := x.outst ++ [(q, none)] }).inc .SESSION_REQUESTS n

/-- A request executes in issue order (R50), and answers at once or later (R46). -/
def State.runReq (s : State) (n : Nat) (q : Req) : State :=
  let s := s.enter n q
  let a := s.ansOf n q.seq
  match s.runOp n ((s.se n).kind == 2) q.op a with
  | (s, some (st, v)) => s.answer a st v
  | (s, none) => s

/-- The request of a session that executes next, where it has arrived and may execute (R50, R74). -/
def Session.ready (x : Session) : Option Req :=
  if x.gated then none else x.next.bind fun m => x.waiting.find? fun q => q.seq = m

/-- The oldest REQ_SEQ not yet answered (R51): that of the oldest request still unanswered, else the one that is missing. -/
def Session.oldest (x : Session) (m : Nat) : Nat := ((x.outst.head?).map fun p => p.1.seq).getD m

/-- A request's place in its session (R50, R51, R53, R54), in the issue order modulo 2^32 of R443. -/
inductive Slot where
  | again (r : Resp)
  | twice
  | afterClose
  | old
  | busy
  | run
  | wait
  deriving DecidableEq, Repr

/-- The place of a request that has passed the checks of R372. -/
def Session.slot (x : Session) (q : Req) : Slot :=
  match x.kept.find? fun r => r.req.seq = q.seq with
  | some r => .again r
  | none =>
    if (x.waiting.any fun w => w.seq == q.seq) || (x.outst.any fun w => w.1.seq == q.seq) then .twice
    else match x.next with
    | none => .run
    | some m =>
      if 2147483648 ≤ seqDist m q.seq then .old
      else if x.closing.isSome then .afterClose
      else if 256 ≤ seqDist (x.oldest m) q.seq then .busy
      else if q.seq = m ∧ ¬ x.gated then .run
      else .wait

/-- A request of an open session's peer (R50 to R54). -/
def State.kopTake (s : State) (n : Nat) (q : Req) : State :=
  let s := s.modSe n fun x => { x with lastRx := s.now }
  match (s.se n).slot q with
  | .again r => s.emit n { r with req := { r.req with port := q.port, eth := q.eth } }
  | .twice => s.inc .KOP_DROPS
  | .afterClose => s
  | .old => s.emit n (s.whole n ⟨q, .SEQ_OLD, .num 0⟩)
  | .busy => s.emit n (s.whole n ⟨q, .BUSY, .num 0⟩)
  | .run => s.runReq n q
  | .wait => s.modSe n fun x => { x with waiting := x.waiting ++ [q] }

/-- A KOP request of an open session arrives at a port that carries KOP (R371, R372, R375). -/
def State.kopIn (s : State) (h : Hdr) (op : ReqOp) : State :=
  let x := s.se h.sess
  if !s.portUp h.port then s
  else if x.kind = 0 then s.inc .KOP_DROPS
  else if x.ip ≠ h.ip ∨ x.udp ≠ h.udp then (s.inc .KOP_PEER_REJECTS).inc .KOP_DROPS
  else if x.kind = 2 then (if h.mac = some true then s.kopTake h.sess ⟨h.seq, h.port, op, h.eth⟩ else s.inc .KOP_MAC_FAILS)
  else if h.mac.isSome then s
  else s.kopTake h.sess ⟨h.seq, h.port, op, h.eth⟩

/-- A waiting request executes once the gap is filled (R50). -/
def State.runQueued (s : State) (n : Nat) : State :=
  match (s.se n).ready with
  | none => s
  | some q => (s.modSe n fun x => { x with waiting := x.waiting.filter fun w => w.seq ≠ q.seq }).runReq n q

/-- Up to k waiting requests execute. -/
def State.runAll (s : State) (n : Nat) : Nat → State
  | 0 => s
  | k + 1 => ((s.runQueued n).runAll n k)

/-- The closed session that may go on: the oldest of the number, behind no image commit (R54, R74). -/
def State.orphanOf (s : State) (n : Nat) : Option Orphan :=
  (s.orphans.find? fun x => x.sess = n).filter fun x => !x.gated || s.cfg.commit.isNone

/-- An operation of a closed session executes with that session's transfer in place of the present one's, is counted, and its
violation is logged (R54, R61); its response is discarded. What it leaves: the state, the transfer, whether it has to wait behind an
image commit. -/
def State.orphanOp (s : State) (n : Nat) (secure : Bool) (op : ReqOp) (b : Option Block) : State × Option Block × Bool :=
  let x := s.se n
  let s := (s.modSe n fun x => { x with block := b, gated := false }).inc .SESSION_REQUESTS n
  let (s, r) := s.runOp n secure op none
  let s := match r, op.viol with
    | some (st, _), some (k, idx, sub) => if st.violation then s.violate n k idx sub st else s
    | _, _ => s
  (s.modSe n fun y => { y with block := x.block, gated := x.gated }, (s.se n).block, (s.se n).gated)

/-- The oldest request of a closed session executes (R54). With the last one the session's transfer has ended (R64). -/
def State.runOrphan (s : State) (x : Orphan) : State :=
  let i := s.orphans.idxOf x
  match x.ops with
  | [] => { s with orphans := s.orphans.erase x }
  | op :: l =>
    let (s, b, w) := s.orphanOp x.sess x.secure op x.block
    if l.isEmpty then { s with orphans := s.orphans.eraseIdx i }.transferEnd b
    else { s with orphans := s.orphans.set i { x with ops := l, block := b, gated := w } }

/-- A waiting request executes: one of a closed session first, whose response is discarded (R54). -/
def State.runWaiting (s : State) (n : Nat) : State :=
  match s.orphanOf n with
  | some x => s.runOrphan x
  | none => s.runQueued n

/-- A session closes by another rule than CLOSE (R54): what stands in issue order without a gap completes, and no response
leaves. -/
def State.closeSession (s : State) (n : Nat) : State :=
  if (s.se n).ready.isSome then
    let k := (s.se n).waiting.length
    ((s.modSe n fun x => { x with outst := (⟨4294967296, 0, .nop, 0⟩, none) :: x.outst }).runAll n k).dropSession n
  else s.dropSession n

/-! ### Opening (R48, R49, R374, R375) -/

/-- A response to OPEN or PROOF leaves (R374: REQ_SEQ is echoed). -/
def State.shake (s : State) (h : Hdr) (type : Nat) (st : Status) (body : List Byte) : State :=
  match s.respPort h.port with
  | some p =>
    (s.send (.handshake p h.sess st (s.kopFrame p h.eth h.ip h.udp (datagram {} h.sess type h.seq st body)))).inc .NET_TX_FRAMES p
  | none => s

/-- The number is open for another peer. -/
def Session.foreign (x : Session) (h : Hdr) : Bool := x.kind != 0 && (x.ip != h.ip || x.udp != h.udp)

/-- An opening that fails authentication (R48, R49, R374). -/
def State.authFail (s : State) (h : Hdr) (type : Nat) (body : List Byte) : State :=
  (s.violate h.sess 6 (0x1010 + h.sess) 0 .AUTH_FAIL).shake h type .AUTH_FAIL body

/-- A session opens for a peer (R48, R371). -/
def State.sessionStart (s : State) (h : Hdr) (kind : Nat) (ks : List Byte) : State :=
  let s := if (s.se h.sess).kind = 0 then s else s.closeSession h.sess
  let s := s.modSe h.sess fun x =>
    { kind := kind, ip := h.ip, udp := h.udp, lastRx := s.now, ks := ks, inc := x.inc + 1 }
  ({ s with pend := s.pend.put (fun _ => none) h.sess none }).inc .KOP_OPENS

/-- Sixteen bytes of the random source (R375; log 5). -/
def State.nonce (s : State) : List Byte × State :=
  ((rangeFrom s.fresh 16).map Config.randomByte, { s with fresh := s.fresh + 16 })

/-- OPEN (R374): the checks in their order, and the opening or the challenge. The ninth session cannot occur: a number that is
not open leaves at most seven others. -/
def State.openIn (s : State) (h : Hdr) (secure : Bool) (cnonce : List Byte) : State :=
  let x := s.se h.sess
  let none16 := if secure then List.replicate 16 0#8 else []
  if !s.portUp h.port then s
  else if h.mac.isSome then s
  else if h.sess = 0 ∨ 8 < h.sess then s.inc .KOP_DROPS
  else if x.foreign h then s.shake h 1 .SESSION_FULL none16
  else if !secure && s.rdT .SESSION_SECURE_ONLY h.sess then s.authFail h 1 none16
  else if secure && (s.nvm.keys.get (fun _ => []) h.sess).isEmpty then s.authFail h 1 none16
  else if secure then
    let (sn, s) := s.nonce
    let s := { s with pend := s.pend.put (fun _ => none) h.sess (some ⟨h.ip, h.udp, cnonce, sn, s.now⟩) }
    s.shake h 1 .OK sn
  else (s.sessionStart h 1 []).shake h 1 .OK []

/-- The three keyed digests of R375, by their labels. -/
def digest (label : String) (key : List Byte) (n : Nat) (p : Pend) : List Byte :=
  hmac key (ascii label ++ beBytes 1 n ++ p.cnonce ++ p.snonce)

/-- A PROOF that answers no pending number of its sender: discarded where the session is not open or belongs to another peer, and
AUTH_FAIL to the session's own peer, since no case of R372 discards it (R375; DEDUCED, log 47). -/
def State.proofOther (s : State) (h : Hdr) : State :=
  let x := s.se h.sess
  if x.kind = 0 then s.inc .KOP_DROPS
  else if x.foreign h then (s.inc .KOP_PEER_REJECTS).inc .KOP_DROPS
  else s.authFail h 2 (List.replicate 32 0#8)

/-- PROOF (R372, R375). -/
def State.proofIn (s : State) (h : Hdr) (hproof : List Byte) : State :=
  if !s.portUp h.port then s
  else if h.mac.isSome then s
  else match s.pend.get (fun _ => none) h.sess with
  | none => s.proofOther h
  | some p =>
    if p.ip ≠ h.ip ∨ p.udp ≠ h.udp then s.proofOther h
    else
      let key := s.nvm.keys.get (fun _ => []) h.sess
      let s := { s with pend := s.pend.put (fun _ => none) h.sess none }
      if p.since + 1000000000 ≤ s.now then s.proofOther h
      else if hproof = digest "KOP-H" key h.sess p then
        (s.sessionStart h 2 (digest "KOP-S" key h.sess p)).shake h 2 .OK (digest "KOP-D" key h.sess p)
      else s.authFail h 2 (List.replicate 32 0#8)

/-- A pending number is released 1 s after its OPEN (R375). -/
def State.pendExpire (s : State) (n : Nat) : State :=
  match s.pend.get (fun _ => none) n with
  | some p => if p.since + 1000000000 ≤ s.now then { s with pend := s.pend.put (fun _ => none) n none } else s
  | none => s

/-- A session closes after SESSION_TIMEOUT without a request (R54). Where an image commit gates it, its requests wait as orphans
(DEDUCED, log 27). -/
def State.timeoutSession (s : State) (n : Nat) : State :=
  let x := s.se n
  if x.kind ≠ 0 ∧ x.lastRx + s.rdN .SESSION_TIMEOUT * 1000000 ≤ s.now then s.closeSession n else s

/-- The image commit ends, and the session's later requests may execute (R74). -/
def State.commitEnd (s : State) (ok : Bool) : State :=
  if s.imageWaits then s else
  match s.cfg.commit with
  | some (some (k, _), _, _) => (s.modSe (k % 16) fun x => { x with gated := false }).imageDone ok
  | _ => s.imageDone ok

/-! ### A datagram's bytes (R370, R372, R373) -/

/-- The operation of a request by its TYPE and body; none where the body has another length than its TYPE gives
(DEDUCED, log 29). -/
def opOf (type : Nat) (b : List Byte) : Option ReqOp :=
  let n := b.length
  if type = 0x03 ∧ n = 0 then some .close
  else if type = 0x04 ∧ n = 0 then some .nop
  else if type = 0x10 ∧ n = 4 then some (.read (.raw (field b 0 2) (field b 2 1)))
  else if type = 0x11 ∧ 4 ≤ n then some (.write (.raw (field b 0 2) (field b 2 1)) (.raw (field b 3 1) (b.drop 4)))
  else if type = 0x20 ∧ n = 12 then
    some (.blockOpen (field b 0 2) (field b 2 1) (field b 3 1 != 0) (field b 4 4) (field b 8 4))
  else if type = 0x21 ∧ 8 ≤ n then
    let op : ReqOp := .blockSeg (field b 0 4) (field b 4 2) (b.drop 8)
    some (if field b 6 2 = 0 then op else op.marked)
  else if type = 0x22 ∧ n = 8 then
    let op : ReqOp := if field b 4 1 = 0 then .blockClose (field b 0 4) else .blockAbort
    some (if field b 5 3 = 0 then op else op.marked)
  else none

/-- A UDP datagram to port 47120 (R370, R372, R375). -/
def State.datagramIn (s : State) (p ip udp eth : Nat) (b : List Byte) : State :=
  let type := field b 3 1
  let n := field b 4 1
  let flags := field b 5 1
  let len := field b 6 2
  let mac := bit flags 6
  let body := (b.drop 16).take len
  if b.length < 16 ∨ field b 0 2 ≠ 0x4B50 ∨ field b 2 1 ≠ 1 ∨ b.length ≠ 16 + len + 32 * b2n mac ∨ bit flags 7 then s.inc .KOP_DROPS
  else
    let ok := decide (b.drop (16 + len) = hmac (s.se n).ks (b.take (16 + len)))
    let h : Hdr := ⟨n, field b 8 4, ip, udp, p, if mac then some ok else none, eth⟩
    if type = 1 then (if len = 20 then s.openIn h (field body 0 1 != 0) (body.drop 4) else s.inc .KOP_DROPS)
    else if type = 2 then (if len = 32 then s.proofIn h body else s.inc .KOP_DROPS)
    else match opOf type body with
    | some op => s.kopIn h (if flags % 64 = 0 then op else op.marked)
    | none => s.inc .KOP_DROPS

/-! ### Received frames (R359, R360, R363) -/

/-- The PTP group MAC addresses (Table "PTP options"). -/
def ptpMacs : List Nat := [0x01005E000181, 0x01005E00006B, 0x011B19000000, 0x0180C200000E]
/-- The PTP groups over UDP (Table "PTP options"). -/
def ptpGroups : List Nat := [0xE0000181, 0xE000006B]

/-- The largest frame that a port accepts (R359). -/
def State.frameMax (s : State) (f : Frame) : Nat := (if s.rdT .NET_JUMBO f.port then 9018 else 1518) + 4 * b2n f.vid.isSome

/-- The VLAN tag is accepted (R359). -/
def State.vlanOk (s : State) (f : Frame) : Bool :=
  let v := s.rdN .NET_VLAN f.port
  if v = 0 then f.vid.isNone || f.vid == some 0 else f.vid == some v

/-- A received IPv4 packet (R363). PTP and DHCP messages come by their own commands. -/
def State.ipIn (s : State) (p : Nat) (version : Nat) (sumOk fragment udpSumOk : Bool) (src dst srcMac : Nat)
    (body : List Byte) (proto sport dport : Nat) : State :=
  let drop := s.inc .NET_DROPS p
  let own := s.rdN .NET_IP p
  let mine := own != 0 && dst == own
  let dhcp := proto == 17 && dport == 68 && (mine || dst == 0xFFFFFFFF)
  let ptp := proto == 17 && (dport == 319 || dport == 320) && s.rd .PTP_TRANSPORT == 0 && own != 0 && (mine || ptpGroups.contains dst)
  if version ≠ 4 ∨ ¬ sumOk ∨ fragment ∨ (proto = 17 ∧ ¬ udpSumOk) then drop
  else if dhcp || ptp then s
  else if !mine then drop
  else if proto = 1 ∧ body.headD 0#8 = 8#8 then s.icmpTake p src srcMac (body.drop 4)
  else if proto = 17 ∧ dport = 47120 then s.datagramIn p src sport srcMac body
  else drop

/-- A received frame, by the first row of Table "Frame reception" that matches it (R360). -/
def State.frameIn (s : State) (f : Frame) : State :=
  let p := f.port
  if !s.portUsable p ∨ s.pwr.asleep then s
  else if !f.crcOk ∨ s.frameMax f < f.length then s.inc .NET_RX_ERRORS p
  else if f.macControl ∨ !s.vlanOk f then s.inc .NET_DROPS p
  else if f.dstMac ≠ (Config.netMac p).toNat ∧ f.dstMac ≠ macAll ∧ ¬ ptpMacs.contains f.dstMac then s.inc .NET_DROPS p
  else
    let took := s.inc .NET_RX_FRAMES p
    match f.payload with
    | .arpRequest sip smac tip => took.arpTake p sip smac tip
    | .arpReply sip smac => (took.arpLearn p sip smac).each (List.range 32) fun s k => s.streamTry k
    | .ptpL2 _ => if s.rd .PTP_TRANSPORT = 1 ∧ s.ptpPort = p then took else s.inc .NET_DROPS p
    | .ip v sumOk frag udpOk src dst smac body proto sport dport =>
      took.ipIn p v sumOk frag udpOk src dst smac body proto sport dport
    | .other _ => s.inc .NET_DROPS p

/-! ### Commands -/

/-- OPEN (R374). -/
def execOpenSession (h : Hdr) (secure : Bool) (cnonce : List Byte) (s : State) : Host.Outcome State Fault Refusal :=
  .next (s.openIn h secure cnonce)

/-- PROOF (R375). -/
def execProof (h : Hdr) (hproof : List Byte) (s : State) : Host.Outcome State Fault Refusal := .next (s.proofIn h hproof)

/-- SECURE_PENDING_EXPIRY (R375). -/
def execSecurePendingExpiry (n : Nat) (s : State) : Host.Outcome State Fault Refusal := .next (s.pendExpire n)

/-- CLOSE (R54). -/
def execClose (h : Hdr) (s : State) : Host.Outcome State Fault Refusal := .next (s.kopIn h .close)

/-- NOP (R373). -/
def execNop (h : Hdr) (s : State) : Host.Outcome State Fault Refusal := .next (s.kopIn h .nop)

/-- READ (R45). -/
def execRead (h : Hdr) (idx sub : Nat) (s : State) : Host.Outcome State Fault Refusal := .next (s.kopIn h (.read (.raw idx sub)))

/-- WRITE (R45). -/
def execWrite (h : Hdr) (idx sub : Nat) (v : WireVal) (s : State) : Host.Outcome State Fault Refusal :=
  .next (s.kopIn h (.write (.raw idx sub) v))

/-- QUEUED_REQUEST_EXECUTE (R50). -/
def execQueuedRequestExecute (n : Nat) (s : State) : Host.Outcome State Fault Refusal := .next (s.runWaiting n)

/-- SESSION_TIMEOUT (R54). -/
def execSessionTimeout (n : Nat) (s : State) : Host.Outcome State Fault Refusal := .next (s.timeoutSession n)

/-- BLOCK_OPEN (R63). -/
def execBlockOpen (h : Hdr) (idx sub : Nat) (dirWrite : Bool) (offset count : Nat) (s : State) :
    Host.Outcome State Fault Refusal :=
  .next (s.kopIn h (.blockOpen idx sub dirWrite offset count))

/-- BLOCK_SEG (R64). -/
def execBlockSeg (h : Hdr) (offset count : Nat) (data : List Byte) (s : State) : Host.Outcome State Fault Refusal :=
  .next (s.kopIn h (.blockSeg offset count data))

/-- BLOCK_CLOSE (R64). -/
def execBlockClose (h : Hdr) (crc : Nat) (s : State) : Host.Outcome State Fault Refusal := .next (s.kopIn h (.blockClose crc))

/-- BLOCK_ABORT (R373). -/
def execBlockAbort (h : Hdr) (s : State) : Host.Outcome State Fault Refusal := .next (s.kopIn h .blockAbort)

/-- IMAGE_COMMIT_DONE (R74). -/
def execImageCommitDone (verified : Bool) (s : State) : Host.Outcome State Fault Refusal := .next (s.commitEnd verified)

/-- FRAME_RECEIVE (R360). -/
def execFrameReceive (f : Frame) (s : State) : Host.Outcome State Fault Refusal := .next (s.frameIn f)

end Sys2Proof.Machine
end

