-- ==== Sys2Proof/Machine/Rows.lean ====
section
/-! DEFINITION. The commands that are KOP requests for one object: each is a READ or a WRITE of that object in its session's
order (R45, R50). -/
namespace Sys2Proof.Machine
open Sys2Proof

/-- A value of LEDGER_CMD (Table "LEDGER_CMD"): operation 1 retire, 2 restore, 3 clear BIAS, and the physical endpoint. -/
def ledgerWord (op : Nat) (ep : Nat) : Int := (op * 2 ^ 28 + ep : Nat)

/-- A blob of mailbox words (R398, R399). -/
def mailboxBytes (words : List Nat) : List Byte := beBytes 2 (4 * words.length) ++ words.flatMap (beBytes 4)

/-- DECL_I (R35). -/
def execDeclI (h : Hdr) (c : ChanNo) (v : Int) (s : State) : Host.Outcome State Fault Refusal :=
  .next (s.kopIn h (.write (.obj .DECL_I c 0) (.num v)))

/-- MODE (R68). -/
def execMode (h : Hdr) (m : Int) (s : State) : Host.Outcome State Fault Refusal :=
  .next (s.kopIn h (.write (.obj .MODE 0 0) (.num m)))

/-- IMAGE_COMMIT (R74). -/
def execImageCommit (h : Hdr) (s : State) : Host.Outcome State Fault Refusal :=
  .next (s.kopIn h (.write (.obj .IMAGE_COMMIT 0 0) (.num 1)))

/-- LOAD_BASE (R75). -/
def execLoadBase (h : Hdr) (s : State) : Host.Outcome State Fault Refusal :=
  .next (s.kopIn h (.write (.obj .LOAD_BASE 0 0) (.num 1)))

/-- VIOL_CLEAR (R61). -/
def execViolClear (h : Hdr) (s : State) : Host.Outcome State Fault Refusal :=
  .next (s.kopIn h (.write (.obj .VIOL_CLEAR 0 0) (.num 1)))

/-- ARM (R99). -/
def execArm (h : Hdr) (c : ChanNo) (s : State) : Host.Outcome State Fault Refusal :=
  .next (s.kopIn h (.write (.obj .OUT_CMD c 0) (.num 1)))

/-- ENABLE (R100). -/
def execEnable (h : Hdr) (c : ChanNo) (s : State) : Host.Outcome State Fault Refusal :=
  .next (s.kopIn h (.write (.obj .OUT_CMD c 0) (.num 2)))

/-- OUT_OFF (R103). -/
def execOutOff (h : Hdr) (c : ChanNo) (s : State) : Host.Outcome State Fault Refusal :=
  .next (s.kopIn h (.write (.obj .OUT_CMD c 0) (.num 0)))

/-- OUT_MUTE (R95). -/
def execOutMute (h : Hdr) (c : ChanNo) (s : State) : Host.Outcome State Fault Refusal :=
  .next (s.kopIn h (.write (.obj .OUT_CMD c 0) (.num 3)))

/-- OUT_RESUME (R102). -/
def execOutResume (h : Hdr) (c : ChanNo) (s : State) : Host.Outcome State Fault Refusal :=
  .next (s.kopIn h (.write (.obj .OUT_CMD c 0) (.num 4)))

/-- BOOST_DECL (R86). -/
def execBoostDecl (h : Hdr) (c : ChanNo) (v : Int) (s : State) : Host.Outcome State Fault Refusal :=
  .next (s.kopIn h (.write (.obj .BOOST_DECL c 0) (.num v)))

/-- FORCE_MODE (R126). -/
def execForceMode (h : Hdr) (c : ChanNo) (v : Int) (s : State) : Host.Outcome State Fault Refusal :=
  .next (s.kopIn h (.write (.obj .FORCE_MODE c 0) (.num v)))

/-- NOTCH_EN (R130). -/
def execNotchEn (h : Hdr) (c : ChanNo) (v : Int) (s : State) : Host.Outcome State Fault Refusal :=
  .next (s.kopIn h (.write (.obj .NOTCH_EN c 0) (.num v)))

/-- LAW_HOLD_SET (R131). -/
def execLawHoldSet (h : Hdr) (c : ChanNo) (s : State) : Host.Outcome State Fault Refusal :=
  .next (s.kopIn h (.write (.obj .LAW_HOLD c 0) (.num 1)))

/-- LAW_HOLD_COMMIT (R131). -/
def execLawHoldCommit (h : Hdr) (c : ChanNo) (s : State) : Host.Outcome State Fault Refusal :=
  .next (s.kopIn h (.write (.obj .LAW_HOLD c 0) (.num 0)))

/-- CTL_RUN_START (R134). -/
def execCtlRunStart (h : Hdr) (g : GroupNo) (s : State) : Host.Outcome State Fault Refusal :=
  .next (s.kopIn h (.write (.obj .CTL_RUN g 0) (.num 1)))

/-- CTL_RUN_STOP (R134). -/
def execCtlRunStop (h : Hdr) (g : GroupNo) (s : State) : Host.Outcome State Fault Refusal :=
  .next (s.kopIn h (.write (.obj .CTL_RUN g 0) (.num 0)))

/-- V_RANGE (R138). -/
def execVRange (h : Hdr) (c : ChanNo) (v : Int) (s : State) : Host.Outcome State Fault Refusal :=
  .next (s.kopIn h (.write (.obj .V_RANGE c 0) (.num v)))

/-- I_RANGE (R138). -/
def execIRange (h : Hdr) (c : ChanNo) (v : Int) (s : State) : Host.Outcome State Fault Refusal :=
  .next (s.kopIn h (.write (.obj .I_RANGE c 0) (.num v)))

/-- RANGE_SET (R138). -/
def execRangeSet (h : Hdr) (c : ChanNo) (v : Int) (s : State) : Host.Outcome State Fault Refusal :=
  .next (s.kopIn h (.write (.obj .RANGE_SET c 0) (.num v)))

/-- APERTURE_N (R172). -/
def execApertureN (h : Hdr) (c : ChanNo) (v : Int) (s : State) : Host.Outcome State Fault Refusal :=
  .next (s.kopIn h (.write (.obj .APERTURE_N c 0) (.num v)))

/-- APERTURE_REBASE (R172). -/
def execApertureRebase (h : Hdr) (c : ChanNo) (s : State) : Host.Outcome State Fault Refusal :=
  .next (s.kopIn h (.write (.obj .APERTURE_REBASE c 0) (.num 1)))

/-- FILT_RUN_START (R194). -/
def execFiltRunStart (h : Hdr) (g : GroupNo) (s : State) : Host.Outcome State Fault Refusal :=
  .next (s.kopIn h (.write (.obj .FILT_RUN g 0) (.num 1)))

/-- FILT_RUN_STOP (R194). -/
def execFiltRunStop (h : Hdr) (g : GroupNo) (s : State) : Host.Outcome State Fault Refusal :=
  .next (s.kopIn h (.write (.obj .FILT_RUN g 0) (.num 0)))

/-- CHT_STOP (R225). -/
def execChtStop (h : Hdr) (c : ChanNo) (s : State) : Host.Outcome State Fault Refusal :=
  .next (s.kopIn h (.write (.obj .CHT_CMD c 0) (.num 0)))

/-- CHT_START (R226). -/
def execChtStart (h : Hdr) (c : ChanNo) (s : State) : Host.Outcome State Fault Refusal :=
  .next (s.kopIn h (.write (.obj .CHT_CMD c 0) (.num 1)))

/-- CHT_PAUSE (R225). -/
def execChtPause (h : Hdr) (c : ChanNo) (s : State) : Host.Outcome State Fault Refusal :=
  .next (s.kopIn h (.write (.obj .CHT_CMD c 0) (.num 2)))

/-- CHT_RESUME (R225). -/
def execChtResume (h : Hdr) (c : ChanNo) (s : State) : Host.Outcome State Fault Refusal :=
  .next (s.kopIn h (.write (.obj .CHT_CMD c 0) (.num 3)))

/-- CHT_ADVANCE (R225). -/
def execChtAdvance (h : Hdr) (c : ChanNo) (s : State) : Host.Outcome State Fault Refusal :=
  .next (s.kopIn h (.write (.obj .CHT_CMD c 0) (.num 4)))

/-- WAVE_LEN (R218). -/
def execWaveLen (h : Hdr) (n : Fin 64) (v : Int) (s : State) : Host.Outcome State Fault Refusal :=
  .next (s.kopIn h (.write (.obj .WAVE_LEN n 0) (.num v)))

/-- EP_CONNECT (R240). -/
def execEpConnect (h : Hdr) (c : ChanNo) (v : Int) (s : State) : Host.Outcome State Fault Refusal :=
  .next (s.kopIn h (.write (.obj .EP_CONNECT c 0) (.num v)))

/-- EP_RELEASE (R240). -/
def execEpRelease (h : Hdr) (c : ChanNo) (s : State) : Host.Outcome State Fault Refusal :=
  .next (s.kopIn h (.write (.obj .EP_CONNECT c 0) (.num 0xFFFF)))

/-- MTX_RESTART (R244). -/
def execMtxRestart (h : Hdr) (line : Fin 8) (s : State) : Host.Outcome State Fault Refusal :=
  .next (s.kopIn h (.write (.obj .MTX_RESTART line 0) (.num 1)))

/-- LEDGER_RETIRE (R253). -/
def execLedgerRetire (h : Hdr) (ep : Fin 1048576) (s : State) : Host.Outcome State Fault Refusal :=
  .next (s.kopIn h (.write (.obj .LEDGER_CMD 0 0) (.num (ledgerWord 1 ep))))

/-- LEDGER_RESTORE (R253). -/
def execLedgerRestore (h : Hdr) (ep : Fin 1048576) (s : State) : Host.Outcome State Fault Refusal :=
  .next (s.kopIn h (.write (.obj .LEDGER_CMD 0 0) (.num (ledgerWord 2 ep))))

/-- LEDGER_CLEAR_BIAS (R253). -/
def execLedgerClearBias (h : Hdr) (ep : Fin 1048576) (s : State) : Host.Outcome State Fault Refusal :=
  .next (s.kopIn h (.write (.obj .LEDGER_CMD 0 0) (.num (ledgerWord 3 ep))))

/-- LEDGER_COMMIT (R254). -/
def execLedgerCommit (h : Hdr) (s : State) : Host.Outcome State Fault Refusal :=
  .next (s.kopIn h (.write (.obj .LEDGER_COMMIT 0 0) (.num 1)))

/-- MON_URGENT (R268). -/
def execMonUrgent (h : Hdr) (g : GroupNo) (e : Int) (s : State) : Host.Outcome State Fault Refusal :=
  .next (s.kopIn h (.write (.obj .MON_URGENT g 0) (.num e)))

/-- MON_ENTRY (R263). -/
def execMonEntry (h : Hdr) (g : GroupNo) (e : Fin 16) (v : Int) (s : State) : Host.Outcome State Fault Refusal :=
  .next (s.kopIn h (.write (.obj .MON_ENTRY g e) (.num v)))

/-- MON_ACC_A (R270). -/
def execMonAccA (h : Hdr) (g : GroupNo) (e : Fin 16) (s : State) : Host.Outcome State Fault Refusal :=
  .next (s.kopIn h (.read (.obj .MON_ACC_A g e)))

/-- MON_ACC_B (R270). -/
def execMonAccB (h : Hdr) (g : GroupNo) (e : Fin 16) (s : State) : Host.Outcome State Fault Refusal :=
  .next (s.kopIn h (.read (.obj .MON_ACC_B g e)))

/-- MON_SNAP (R270). -/
def execMonSnap (h : Hdr) (g : GroupNo) (s : State) : Host.Outcome State Fault Refusal :=
  .next (s.kopIn h (.read (.obj .MON_SNAP g 0)))

/-- MON_RESTART (R272). -/
def execMonRestart (h : Hdr) (g : GroupNo) (s : State) : Host.Outcome State Fault Refusal :=
  .next (s.kopIn h (.write (.obj .MON_RESTART g 0) (.num 1)))

/-- MTRGO_PULSE (R267). -/
def execMtrgoPulse (h : Hdr) (s : State) : Host.Outcome State Fault Refusal :=
  .next (s.kopIn h (.write (.obj .MTRGO_PULSE 0 0) (.num 1)))

/-- REED_CLEAR (R288). -/
def execReedClear (h : Hdr) (c : ChanNo) (s : State) : Host.Outcome State Fault Refusal :=
  .next (s.kopIn h (.write (.obj .REED_CLEAR c 0) (.num 1)))

/-- REED_TEST (R286). -/
def execReedTest (h : Hdr) (g : GroupNo) (s : State) : Host.Outcome State Fault Refusal :=
  .next (s.kopIn h (.write (.obj .REED_TEST g 0) (.num 1)))

/-- EV_FIRE (R296). -/
def execEvFire (h : Hdr) (n : Fin 256) (s : State) : Host.Outcome State Fault Refusal :=
  .next (s.kopIn h (.write (.obj .EV_FIRE n 0) (.num 1)))

/-- EV_LOG_CLEAR (R305). -/
def execEvLogClear (h : Hdr) (s : State) : Host.Outcome State Fault Refusal :=
  .next (s.kopIn h (.write (.obj .EV_LOG_CLEAR 0 0) (.num 1)))

/-- CAL_START (R318). -/
def execCalStart (h : Hdr) (g : GroupNo) (s : State) : Host.Outcome State Fault Refusal :=
  .next (s.kopIn h (.write (.obj .CAL_CMD g 0) (.num 1)))

/-- CAL_ABORT (R327). -/
def execCalAbort (h : Hdr) (g : GroupNo) (s : State) : Host.Outcome State Fault Refusal :=
  .next (s.kopIn h (.write (.obj .CAL_CMD g 0) (.num 2)))

/-- FLT_UNFENCE (R341). -/
def execFltUnfence (h : Hdr) (src : Int) (s : State) : Host.Outcome State Fault Refusal :=
  .next (s.kopIn h (.write (.obj .FLT_UNFENCE 0 0) (.num src)))

/-- FLT_SAFE (R347). -/
def execFltSafe (h : Hdr) (s : State) : Host.Outcome State Fault Refusal :=
  .next (s.kopIn h (.write (.obj .FLT_SAFE 0 0) (.num 1)))

/-- FLT_LOG_CLEAR (R353). -/
def execFltLogClear (h : Hdr) (s : State) : Host.Outcome State Fault Refusal :=
  .next (s.kopIn h (.write (.obj .FLT_LOG_CLEAR 0 0) (.num 1)))

/-- FLT_N (R335). -/
def execFltN (h : Hdr) (t : Fin 23) (v : Int) (s : State) : Host.Outcome State Fault Refusal :=
  .next (s.kopIn h (.write (.obj .FLT_N t 0) (.num v)))

/-- FLT_W (R335). -/
def execFltW (h : Hdr) (t : Fin 23) (v : Int) (s : State) : Host.Outcome State Fault Refusal :=
  .next (s.kopIn h (.write (.obj .FLT_W t 0) (.num v)))

/-- NET_MODE (R357). -/
def execNetMode (h : Hdr) (n : Fin 2) (v : Int) (s : State) : Host.Outcome State Fault Refusal :=
  .next (s.kopIn h (.write (.obj .NET_MODE n 0) (.num v)))

/-- NET_AN (R357). -/
def execNetAn (h : Hdr) (n : Fin 2) (v : Int) (s : State) : Host.Outcome State Fault Refusal :=
  .next (s.kopIn h (.write (.obj .NET_AN n 0) (.num v)))

/-- TIME_SRC (R367). -/
def execTimeSrc (h : Hdr) (v : Int) (s : State) : Host.Outcome State Fault Refusal :=
  .next (s.kopIn h (.write (.obj .TIME_SRC 0 0) (.num v)))

/-- STREAM_ENABLE (R380). -/
def execStreamEnable (h : Hdr) (st : Fin 32) (s : State) : Host.Outcome State Fault Refusal :=
  .next (s.kopIn h (.write (.obj .STREAM_EN st 0) (.num 1)))

/-- STREAM_DISABLE (R380). -/
def execStreamDisable (h : Hdr) (st : Fin 32) (s : State) : Host.Outcome State Fault Refusal :=
  .next (s.kopIn h (.write (.obj .STREAM_EN st 0) (.num 0)))

/-- SP1_GO (R399). -/
def execSp1Go (h : Hdr) (sel : Int) (s : State) : Host.Outcome State Fault Refusal :=
  .next (s.kopIn h (.write (.obj .SP1_GO 0 0) (.num sel)))

/-- SP1_MB_TX (R398). -/
def execSp1MbTx (h : Hdr) (words : List Nat) (s : State) : Host.Outcome State Fault Refusal :=
  .next (s.kopIn h (.write (.obj .SP1_MB_TX 0 0) (.raw 15 (mailboxBytes words))))

/-- SP1_MB_RX (R398). -/
def execSp1MbRx (h : Hdr) (s : State) : Host.Outcome State Fault Refusal := .next (s.kopIn h (.read (.obj .SP1_MB_RX 0 0)))

/-- SP_RESTART (R401). -/
def execSpRestart (h : Hdr) (n : Fin 2) (s : State) : Host.Outcome State Fault Refusal :=
  .next (s.kopIn h (.write (.obj .SP_RESTART n 0) (.num 1)))

/-- SP_CLEAR (R402). -/
def execSpClear (h : Hdr) (n : Fin 2) (s : State) : Host.Outcome State Fault Refusal :=
  .next (s.kopIn h (.write (.obj .SP_CLEAR n 0) (.num 1)))

/-- PAIR_ENABLE (R403). -/
def execPairEnable (h : Hdr) (s : State) : Host.Outcome State Fault Refusal :=
  .next (s.kopIn h (.write (.obj .PAIR_EN 0 0) (.num 1)))

/-- PAIR_DISSOLVE (R406). -/
def execPairDissolve (h : Hdr) (s : State) : Host.Outcome State Fault Refusal :=
  .next (s.kopIn h (.write (.obj .PAIR_EN 0 0) (.num 0)))

/-- PAIR_HANDOVER (R417). -/
def execPairHandover (h : Hdr) (g : GroupNo) (s : State) : Host.Outcome State Fault Refusal :=
  .next (s.kopIn h (.write (.obj .PAIR_HANDOVER g 0) (.num 1)))

/-- RTC_SET (R442). -/
def execRtcSet (h : Hdr) (t : Int) (s : State) : Host.Outcome State Fault Refusal :=
  .next (s.kopIn h (.write (.obj .RTC_SET 0 0) (.num t)))

/-- SYS_RESET (R449). -/
def execSysReset (h : Hdr) (s : State) : Host.Outcome State Fault Refusal :=
  .next (s.kopIn h (.write (.obj .SYS_RESET 0 0) (.num 1)))

/-- GROUP_POWER_DOWN (R458). -/
def execGroupPowerDown (h : Hdr) (g : GroupNo) (s : State) : Host.Outcome State Fault Refusal :=
  .next (s.kopIn h (.write (.obj .GROUP_PWR g 0) (.num 0)))

/-- GROUP_POWER_UP (R458). -/
def execGroupPowerUp (h : Hdr) (g : GroupNo) (s : State) : Host.Outcome State Fault Refusal :=
  .next (s.kopIn h (.write (.obj .GROUP_PWR g 0) (.num 1)))

/-- PWR_CMD (R459). -/
def execPwrCmd (h : Hdr) (s : State) : Host.Outcome State Fault Refusal :=
  .next (s.kopIn h (.write (.obj .PWR_CMD 0 0) (.num 2)))

end Sys2Proof.Machine
end

