-- ==== Sys2Proof/Machine/Dispatch.lean ====
section
/-! DEFINITION. The meaning of every command: one arm per row of the table, each one call. -/
namespace Sys2Proof.Machine
open Sys2Proof

/-- The effect of a command on everything but the queue. -/
def exec (i : Instr) (s : State) : Host.Outcome State Fault Refusal :=
  match i with
  | .frameStart => Sys2Proof.Machine.execFrameStart s
  | .groupTick g slots pace recordMiss => Sys2Proof.Machine.execGroupTick g slots pace recordMiss s
  | .stagingClose g missed => Sys2Proof.Machine.execStagingClose g missed s
  | .loadStrobe g => Sys2Proof.Machine.execLoadStrobe g s
  | .clockMonitorWindow tb found => Sys2Proof.Machine.execClockMonitorWindow tb found s
  | .tbaStopDetect => Sys2Proof.Machine.execTbaStopDetect s
  | .tbaFreqCheck edges => Sys2Proof.Machine.execTbaFreqCheck edges s
  | .tbaTick reeds => Sys2Proof.Machine.execTbaTick reeds s
  | .declI h c v => Sys2Proof.Machine.execDeclI h c v s
  | .openSession h secure cnonce => Sys2Proof.Machine.execOpenSession h secure cnonce s
  | .proof h hproof => Sys2Proof.Machine.execProof h hproof s
  | .securePendingExpiry n => Sys2Proof.Machine.execSecurePendingExpiry n s
  | .close h => Sys2Proof.Machine.execClose h s
  | .nop h => Sys2Proof.Machine.execNop h s
  | .read h idx sub => Sys2Proof.Machine.execRead h idx sub s
  | .write h idx sub v => Sys2Proof.Machine.execWrite h idx sub v s
  | .queuedRequestExecute n => Sys2Proof.Machine.execQueuedRequestExecute n s
  | .sessionTimeout n => Sys2Proof.Machine.execSessionTimeout n s
  | .blockOpen h idx sub dirWrite offset count => Sys2Proof.Machine.execBlockOpen h idx sub dirWrite offset count s
  | .blockSeg h offset count data => Sys2Proof.Machine.execBlockSeg h offset count data s
  | .blockClose h crc => Sys2Proof.Machine.execBlockClose h crc s
  | .blockAbort h => Sys2Proof.Machine.execBlockAbort h s
  | .mode h m => Sys2Proof.Machine.execMode h m s
  | .modeValidationDone => Sys2Proof.Machine.execModeValidationDone s
  | .imageCommit h => Sys2Proof.Machine.execImageCommit h s
  | .imageCommitDone verified => Sys2Proof.Machine.execImageCommitDone verified s
  | .loadBase h => Sys2Proof.Machine.execLoadBase h s
  | .violClear h => Sys2Proof.Machine.execViolClear h s
  | .arm h c => Sys2Proof.Machine.execArm h c s
  | .enable h c => Sys2Proof.Machine.execEnable h c s
  | .outOff h c => Sys2Proof.Machine.execOutOff h c s
  | .outMute h c => Sys2Proof.Machine.execOutMute h c s
  | .outResume h c => Sys2Proof.Machine.execOutResume h c s
  | .armTransitEnd c => Sys2Proof.Machine.execArmTransitEnd c s
  | .offRampEnd c => Sys2Proof.Machine.execOffRampEnd c s
  | .safeRampEnd c => Sys2Proof.Machine.execSafeRampEnd c s
  | .boostDecl h c v => Sys2Proof.Machine.execBoostDecl h c v s
  | .forceMode h c v => Sys2Proof.Machine.execForceMode h c v s
  | .notchEn h c v => Sys2Proof.Machine.execNotchEn h c v s
  | .lawHoldSet h c => Sys2Proof.Machine.execLawHoldSet h c s
  | .lawHoldCommit h c => Sys2Proof.Machine.execLawHoldCommit h c s
  | .ctlRunStart h g => Sys2Proof.Machine.execCtlRunStart h g s
  | .ctlRunStop h g => Sys2Proof.Machine.execCtlRunStop h g s
  | .vRange h c v => Sys2Proof.Machine.execVRange h c v s
  | .iRange h c v => Sys2Proof.Machine.execIRange h c v s
  | .rangeSet h c v => Sys2Proof.Machine.execRangeSet h c v s
  | .slidePrepEnd c => Sys2Proof.Machine.execSlidePrepEnd c s
  | .slideComplete c => Sys2Proof.Machine.execSlideComplete c s
  | .autoRangeStep c => Sys2Proof.Machine.execAutoRangeStep c s
  | .modulatorOverload g slot current what => Sys2Proof.Machine.execModulatorOverload g slot current what s
  | .apertureClose c => Sys2Proof.Machine.execApertureClose c s
  | .apertureN h c v => Sys2Proof.Machine.execApertureN h c v s
  | .apertureRebase h c => Sys2Proof.Machine.execApertureRebase h c s
  | .aggWindowClose g => Sys2Proof.Machine.execAggWindowClose g s
  | .recFlushExpiry c => Sys2Proof.Machine.execRecFlushExpiry c s
  | .filtRunStart h g => Sys2Proof.Machine.execFiltRunStart h g s
  | .filtRunStop h g => Sys2Proof.Machine.execFiltRunStop h g s
  | .filtFillDone g => Sys2Proof.Machine.execFiltFillDone g s
  | .reservationWrite c => Sys2Proof.Machine.execReservationWrite c s
  | .reservationConfirm c => Sys2Proof.Machine.execReservationConfirm c s
  | .chtStop h c => Sys2Proof.Machine.execChtStop h c s
  | .chtStart h c => Sys2Proof.Machine.execChtStart h c s
  | .chtPause h c => Sys2Proof.Machine.execChtPause h c s
  | .chtResume h c => Sys2Proof.Machine.execChtResume h c s
  | .chtAdvance h c => Sys2Proof.Machine.execChtAdvance h c s
  | .unitBegin c sramBad => Sys2Proof.Machine.execUnitBegin c sramBad s
  | .unitApply x => Sys2Proof.Machine.execUnitApply x s
  | .unitSettle c => Sys2Proof.Machine.execUnitSettle c s
  | .unitEnd c => Sys2Proof.Machine.execUnitEnd c s
  | .wavePoint c ue => Sys2Proof.Machine.execWavePoint c ue s
  | .waveLen h n v => Sys2Proof.Machine.execWaveLen h n v s
  | .claimAnswer c => Sys2Proof.Machine.execClaimAnswer c s
  | .epConnect h c v => Sys2Proof.Machine.execEpConnect h c v s
  | .epRelease h c => Sys2Proof.Machine.execEpRelease h c s
  | .matrixGrant => Sys2Proof.Machine.execMatrixGrant s
  | .matrixWordEcho echo strobe => Sys2Proof.Machine.execMatrixWordEcho echo strobe s
  | .breakSettled c => Sys2Proof.Machine.execBreakSettled c s
  | .connectionSettled c => Sys2Proof.Machine.execConnectionSettled c s
  | .mtxRestart h line => Sys2Proof.Machine.execMtxRestart h line s
  | .ledgerRetire h ep => Sys2Proof.Machine.execLedgerRetire h ep s
  | .ledgerRestore h ep => Sys2Proof.Machine.execLedgerRestore h ep s
  | .ledgerClearBias h ep => Sys2Proof.Machine.execLedgerClearBias h ep s
  | .ledgerCommit h => Sys2Proof.Machine.execLedgerCommit h s
  | .ledgerCommitPeriodic => Sys2Proof.Machine.execLedgerCommitPeriodic s
  | .ledgerCommitDone => Sys2Proof.Machine.execLedgerCommitDone s
  | .mtrgEdge ball rising => Sys2Proof.Machine.execMtrgEdge ball rising s
  | .monStartupEnd g => Sys2Proof.Machine.execMonStartupEnd g s
  | .monSlotEnd g => Sys2Proof.Machine.execMonSlotEnd g s
  | .monDecisionDone g a b => Sys2Proof.Machine.execMonDecisionDone g a b s
  | .monUrgent h g e => Sys2Proof.Machine.execMonUrgent h g e s
  | .monEntry h g e v => Sys2Proof.Machine.execMonEntry h g e v s
  | .monAccA h g e => Sys2Proof.Machine.execMonAccA h g e s
  | .monAccB h g e => Sys2Proof.Machine.execMonAccB h g e s
  | .monSnap h g => Sys2Proof.Machine.execMonSnap h g s
  | .monRestart h g => Sys2Proof.Machine.execMonRestart h g s
  | .monSpareSwap g convB offset gainPpm => Sys2Proof.Machine.execMonSpareSwap g convB offset gainPpm s
  | .mtrgoPulse h => Sys2Proof.Machine.execMtrgoPulse h s
  | .mtrgoPeriodic m => Sys2Proof.Machine.execMtrgoPeriodic m s
  | .mtrgoPulseEnd => Sys2Proof.Machine.execMtrgoPulseEnd s
  | .reedSample g reeds => Sys2Proof.Machine.execReedSample g reeds s
  | .reedClear h c => Sys2Proof.Machine.execReedClear h c s
  | .reedTest h g => Sys2Proof.Machine.execReedTest h g s
  | .reedTestPeriodic => Sys2Proof.Machine.execReedTestPeriodic s
  | .reedTestTick g tv ti => Sys2Proof.Machine.execReedTestTick g tv ti s
  | .eviEdge ball rising => Sys2Proof.Machine.execEviEdge ball rising s
  | .evFire h n => Sys2Proof.Machine.execEvFire h n s
  | .evoPulseEnd ball => Sys2Proof.Machine.execEvoPulseEnd ball s
  | .evLogClear h => Sys2Proof.Machine.execEvLogClear h s
  | .calStart h g => Sys2Proof.Machine.execCalStart h g s
  | .calAbort h g => Sys2Proof.Machine.execCalAbort h g s
  | .calExtCheck g means => Sys2Proof.Machine.execCalExtCheck g means s
  | .calPointDone g x => Sys2Proof.Machine.execCalPointDone g x s
  | .calNvmWriteDone g verified => Sys2Proof.Machine.execCalNvmWriteDone g verified s
  | .sliceTempRead temps => Sys2Proof.Machine.execSliceTempRead temps s
  | .calThermalUpdate => Sys2Proof.Machine.execCalThermalUpdate s
  | .faultReport m => Sys2Proof.Machine.execFaultReport m s
  | .fenceArrival => Sys2Proof.Machine.execFenceArrival s
  | .takeoverBlankEnd c => Sys2Proof.Machine.execTakeoverBlankEnd c s
  | .faultLogDrain => Sys2Proof.Machine.execFaultLogDrain s
  | .collectorVote disagree => Sys2Proof.Machine.execCollectorVote disagree s
  | .errorLineChange k pair lasting => Sys2Proof.Machine.execErrorLineChange k pair lasting s
  | .fltUnfence h src => Sys2Proof.Machine.execFltUnfence h src s
  | .unfenceSelftestDone found => Sys2Proof.Machine.execUnfenceSelftestDone found s
  | .fltSafe h => Sys2Proof.Machine.execFltSafe h s
  | .fltLogClear h => Sys2Proof.Machine.execFltLogClear h s
  | .fltN h t v => Sys2Proof.Machine.execFltN h t v s
  | .fltW h t v => Sys2Proof.Machine.execFltW h t v s
  | .frameReceive f => Sys2Proof.Machine.execFrameReceive f s
  | .netMode h n v => Sys2Proof.Machine.execNetMode h n v s
  | .netAn h n v => Sys2Proof.Machine.execNetAn h n v s
  | .linkUp n => Sys2Proof.Machine.execLinkUp n s
  | .linkDown n errorsOnly => Sys2Proof.Machine.execLinkDown n errorsOnly s
  | .streamPortReturn st => Sys2Proof.Machine.execStreamPortReturn st s
  | .dhcpMessage n m => Sys2Proof.Machine.execDhcpMessage n m s
  | .dhcpDiscoverRetry n => Sys2Proof.Machine.execDhcpDiscoverRetry n s
  | .dhcpRenew n => Sys2Proof.Machine.execDhcpRenew n s
  | .dhcpRebind n => Sys2Proof.Machine.execDhcpRebind n s
  | .dhcpLeaseExpiry n => Sys2Proof.Machine.execDhcpLeaseExpiry n s
  | .arpRequest n senderIp senderMac targetIp => Sys2Proof.Machine.execArpRequest n senderIp senderMac targetIp s
  | .arpCacheExpiry n ip => Sys2Proof.Machine.execArpCacheExpiry n ip s
  | .arpRetry n ip => Sys2Proof.Machine.execArpRetry n ip s
  | .icmpEcho n srcIp srcMac data => Sys2Proof.Machine.execIcmpEcho n srcIp srcMac data s
  | .ptpMessage n m => Sys2Proof.Machine.execPtpMessage n m s
  | .ptpDelayReqSend => Sys2Proof.Machine.execPtpDelayReqSend s
  | .ptpTimeout => Sys2Proof.Machine.execPtpTimeout s
  | .timeSrc h v => Sys2Proof.Machine.execTimeSrc h v s
  | .ppsinEdge => Sys2Proof.Machine.execPpsinEdge s
  | .ppsoutPulse => Sys2Proof.Machine.execPpsoutPulse s
  | .streamEnable h st => Sys2Proof.Machine.execStreamEnable h st s
  | .streamArpResolved st n mac => Sys2Proof.Machine.execStreamArpResolved st n mac s
  | .streamDisable h st => Sys2Proof.Machine.execStreamDisable h st s
  | .streamPacketSend n readUe => Sys2Proof.Machine.execStreamPacketSend n readUe s
  | .spBusIdle n => Sys2Proof.Machine.execSpBusIdle n s
  | .spCollision n line replies => Sys2Proof.Machine.execSpCollision n line replies s
  | .slaveSelectAssert => Sys2Proof.Machine.execSlaveSelectAssert s
  | .slaveWordComplete w => Sys2Proof.Machine.execSlaveWordComplete w s
  | .slavePartial => Sys2Proof.Machine.execSlavePartial s
  | .sp1Go h sel => Sys2Proof.Machine.execSp1Go h sel s
  | .sp1Poll m => Sys2Proof.Machine.execSp1Poll m s
  | .sp1ListEnd replies strobeErr => Sys2Proof.Machine.execSp1ListEnd replies strobeErr s
  | .sp1MbTx h words => Sys2Proof.Machine.execSp1MbTx h words s
  | .sp1MbRx h => Sys2Proof.Machine.execSp1MbRx h s
  | .spRestart h n => Sys2Proof.Machine.execSpRestart h n s
  | .spClear h n => Sys2Proof.Machine.execSpClear h n s
  | .pairEnable h => Sys2Proof.Machine.execPairEnable h s
  | .pairForm p => Sys2Proof.Machine.execPairForm p s
  | .pairDissolve h => Sys2Proof.Machine.execPairDissolve h s
  | .heartbeat b => Sys2Proof.Machine.execHeartbeat b s
  | .stateCell lane items => Sys2Proof.Machine.execStateCell lane items s
  | .configCell lane items => Sys2Proof.Machine.execConfigCell lane items s
  | .failCell lane => Sys2Proof.Machine.execFailCell lane s
  | .groupFailCell lane g => Sys2Proof.Machine.execGroupFailCell lane g s
  | .handoverCell lane g left => Sys2Proof.Machine.execHandoverCell lane g left s
  | .ackCell lane g => Sys2Proof.Machine.execAckCell lane g s
  | .pairHandover h g => Sys2Proof.Machine.execPairHandover h g s
  | .handoverAckTimeout g => Sys2Proof.Machine.execHandoverAckTimeout g s
  | .laneDown lane => Sys2Proof.Machine.execLaneDown lane s
  | .heartbeatLoss => Sys2Proof.Machine.execHeartbeatLoss s
  | .witnessSilent => Sys2Proof.Machine.execWitnessSilent s
  | .witnessToggle m => Sys2Proof.Machine.execWitnessToggle m s
  | .sramScrubSlice found late => Sys2Proof.Machine.execSramScrubSlice found late s
  | .nvmScrubSlice found late => Sys2Proof.Machine.execNvmScrubSlice found late s
  | .logCopy late => Sys2Proof.Machine.execLogCopy late s
  | .telemetryFrame m late => Sys2Proof.Machine.execTelemetryFrame m late s
  | .lineTest wires => Sys2Proof.Machine.execLineTest wires s
  | .nvmPageFlush bank page verified => Sys2Proof.Machine.execNvmPageFlush bank page verified s
  | .bankCopyDone => Sys2Proof.Machine.execBankCopyDone s
  | .rtcRealign => Sys2Proof.Machine.execRtcRealign s
  | .rtcTrimStore ppb => Sys2Proof.Machine.execRtcTrimStore ppb s
  | .rtcSet h t => Sys2Proof.Machine.execRtcSet h t s
  | .supplyLoss rail => Sys2Proof.Machine.execSupplyLoss rail s
  | .supplyReturn => Sys2Proof.Machine.execSupplyReturn s
  | .powerOnReset => Sys2Proof.Machine.execPowerOnReset s
  | .nrst => Sys2Proof.Machine.execNrst s
  | .sysReset h => Sys2Proof.Machine.execSysReset h s
  | .bootStageComplete b => Sys2Proof.Machine.execBootStageComplete b s
  | .bootRefclkTimeout => Sys2Proof.Machine.execBootRefclkTimeout s
  | .groupPowerDown h g => Sys2Proof.Machine.execGroupPowerDown h g s
  | .groupPowerUp h g => Sys2Proof.Machine.execGroupPowerUp h g s
  | .pwrCmd h => Sys2Proof.Machine.execPwrCmd h s
  | .sleepRampsDone => Sys2Proof.Machine.execSleepRampsDone s
  | .sleepQuiesceDone => Sys2Proof.Machine.execSleepQuiesceDone s
  | .sleepCommitDone => Sys2Proof.Machine.execSleepCommitDone s
  | .sleepPowerDown => Sys2Proof.Machine.execSleepPowerDown s
  | .sleepUntilReached => Sys2Proof.Machine.execSleepUntilReached s
  | .wakeComplete => Sys2Proof.Machine.execWakeComplete s
  | .vddcStepUp => Sys2Proof.Machine.execVddcStepUp s
  | .vddcStepDown => Sys2Proof.Machine.execVddcStepDown s
  | .vddcFallback meas => Sys2Proof.Machine.execVddcFallback meas s
  | .powerAccounting avpp avnn means totalMw => Sys2Proof.Machine.execPowerAccounting avpp avnn means totalMw s
  | .ppsoutPulseEnd => Sys2Proof.Machine.execPpsoutPulseEnd s
  | .hostResetDelayExpiry => Sys2Proof.Machine.execHostResetDelayExpiry s
  | .groupPllLock g => Sys2Proof.Machine.execGroupPllLock g s
  | .lineErrWindowExpiry k => Sys2Proof.Machine.execLineErrWindowExpiry k s
  | .pairCellDiscard lane => Sys2Proof.Machine.execPairCellDiscard lane s
  | .analogueRailsInside9V => Sys2Proof.Machine.execAnalogueRailsInside9V s

end Sys2Proof.Machine
end

