-- ==== Sys2Proof/Machine/Idle.lean ====
section
/-! DEFINITION. What an empty queue does: one cycle of the 125 MHz network clock passes (log 1). -/
namespace Sys2Proof.Machine
open Sys2Proof

/-- The calendar over 8 ns: it holds its value while TBC (timebase 23) is lost (Table "Timebase loss"), and it applies RTC_TRIM
while PTP_STATE is not LOCKED (R440). -/
def State.rtcRun (s : State) : Clock :=
  if s.tb 23 = 4 then { s.clk with rtc := s.clk.rtc - 8 }
  else if s.rd .PTP_STATE = 3 then s.clk
  else
    let p := s.clk.rtcPart + 8 * s.nvm.rtcTrim
    { s.clk with rtc := s.clk.rtc + p / 1000000000, rtcPart := p % 1000000000 }

/-- Time advances by 8 ns, the TBP counter at its trimmed rate (R364, R367), Drone drains the event log intake (R304), and every 256 ns the
pair lanes begin a cell (R408; DESIGN CHOICE, log 1). -/
def State.idle (s : State) : State :=
  let p := s.clk.part + 8 * s.clk.rate
  let s : State := { s with clk := { s.rtcRun with up := s.clk.up + 8, tbp := s.clk.tbp + p / 1000000000, part := p % 1000000000 }
                            drn := { s.drn with intake := 0 } }
  if s.clk.up % 256 = 0 then s.pairSlot else s

end Sys2Proof.Machine
end

