-- ==== Sys2Proof/Machine/Package.lean ====
section
/-! DEFINITION. The balls of the FB3600 package: which ball stands at which position (R489 to R495). The map is fixed and no
command reads it; State holds the levels of the balls that have one. -/

namespace Sys2Proof.Machine

/-- The balls of a channel and of a group (R490). -/
inductive ChanBall where
  | SH
  | FO
  | IH
  | IL
  | BG
  deriving DecidableEq, Repr

inductive GroupBall where
  | SL
  | GRD
  | REFIO
  deriving DecidableEq, Repr

/-- Supplies and grounds (R493 to R495). -/
inductive Rail where
  | AGND
  | VSS
  | VDDC
  | AVPP
  | AVNN
  | AVDD
  | VDDSD
  | VDDIO
  | VAON
  | VBAK
  deriving DecidableEq, Repr

/-- The digital signals (Table "Digital ball order"). Signals that carry a number have it as their argument; a differential pair tells
its P leg with true. -/
inductive Signal where
  | EVI (n : Nat)
  | EVO (n : Nat)
  | MTRG (n : Nat)
  | MTRGO
  | PPSIN
  | PPSOUT
  | nRST
  | nSAFE
  | BOOT (n : Nat)
  | VADJ
  | XTAL_I
  | XTAL_O
  | REFCLK (p : Bool)
  | SCK (port : Nat)
  | SDO (port : Nat)
  | SDI (port : Nat)
  | RSTB (port : Nat)
  | CS (port n : Nat)
  | PL_TX (lane : Nat) (p : Bool)
  | PL_RX (lane : Nat) (p : Bool)
  | NET_TX (port : Nat) (p : Bool)
  | NET_RX (port : Nat) (p : Bool)
  | TXDIS (port : Nat)
  | MODABS (port : Nat)
  | RXLOS (port : Nat)
  | TXFAULT (port : Nat)
  deriving DecidableEq, Repr

inductive PackageBall where
  | chan (c : Nat) (b : ChanBall)
  | group (g : Nat) (b : GroupBall)
  | rail (r : Rail)
  | signal (x : Signal)
  deriving DecidableEq, Repr

/-- The channel column at depth 1..5 of its tier (Table "Tier ball order"). -/
def chanColumn : Nat → ChanBall
  | 1 => .SH
  | 2 => .FO
  | 3 => .IH
  | 4 => .IL
  | _ => .BG

/-- The group column at depth 1..5 of tier 2 (Table "Tier ball order"). -/
def groupColumn (g : Nat) : Nat → PackageBall
  | 1 => .group g .SL
  | 2 => .group g .GRD
  | 4 => .group g .REFIO
  | _ => .rail .AGND

/-- The ball at `u` = 1..11 and `d` = 1..15 of a group's block (R492). -/
def blockBall (g u d : Nat) : PackageBall :=
  let t := (d - 1) / 5
  if t = 2 ∧ u = 11 then groupColumn g ((d - 1) % 5 + 1)
  else .chan (32 * g + 11 * t + (u - 1)) (chanColumn ((d - 1) % 5 + 1))

/-- Row and column of (u, d) in the block of a group (Table "Group block placement"). -/
def blockPos (g u d : Nat) : Nat × Nat :=
  let x := 11 * (g % 4) + u
  match g / 4 with
  | 0 => (d, x)
  | 1 => (x, 61 - d)
  | 2 => (61 - d, 61 - x)
  | _ => (61 - x, d)

/-- The ball at place `x` = 1..45 along a side and depth `d` (R491). -/
def sideBall (side x d : Nat) : PackageBall :=
  if x = 45 then .rail .AGND else blockBall (4 * side + (x - 1) / 11) ((x - 1) % 11 + 1) d

/-- Table "Digital ball order", a row of it. -/
def serialSignals (p : Nat) : List Signal :=
  [.SCK p, .SDO p, .SDI p, .RSTB p] ++ (List.range 8).map fun n => .CS p n

def netSignals (p : Nat) : List Signal := [.NET_TX p true, .NET_TX p false, .NET_RX p true, .NET_RX p false]

def digitalRow : Nat → List Signal
  | 16 => (List.range 16).map (fun n => .EVI n) ++ (List.range 8).map (fun n => .EVO n)
  | 17 => (List.range 8).map (fun n => .EVO (8 + n)) ++ (List.range 4).map (fun n => .MTRG n) ++
      [.MTRGO, .PPSIN, .PPSOUT, .nRST, .nSAFE, .BOOT 0, .BOOT 1, .VADJ, .XTAL_I, .XTAL_O, .REFCLK true, .REFCLK false]
  | 18 => serialSignals 0 ++ serialSignals 1
  | 19 => [.PL_TX 0 true, .PL_TX 0 false, .PL_TX 1 true, .PL_TX 1 false, .PL_RX 0 true, .PL_RX 0 false, .PL_RX 1 true,
      .PL_RX 1 false] ++ netSignals 0 ++ netSignals 1 ++
      [.TXDIS 0, .MODABS 0, .RXLOS 0, .TXFAULT 0, .TXDIS 1, .MODABS 1, .RXLOS 1, .TXFAULT 1]
  | _ => []

/-- The digital supplies in reading order (R493). -/
def digitalSupply (n : Nat) : Rail := if n < 12 then .VDDSD else if n < 20 then .VDDIO else if n < 23 then .VAON else .VBAK

/-- Pair `q` of the analogue ring (R494). -/
def ringRail (q : Nat) : Rail :=
  if q % 2 = 0 then .AGND
  else match (q - 1) / 2 % 3 with
    | 0 => .AVPP
    | 1 => .AVNN
    | _ => .AVDD

/-- The centre (Table "Centre regions"). -/
def centreBall (r c : Nat) : Option PackageBall :=
  if r < 20 then
    if c < 40 then ((digitalRow r)[c - 16]?).map .signal else some (.rail (digitalSupply (6 * (r - 16) + (c - 40))))
  else if c < 18 then some (.rail (ringRail (r - 20)))
  else if 43 < c then some (.rail (ringRail (52 + (45 - r))))
  else if 43 < r then some (.rail (ringRail (26 + (c - 18))))
  else some (.rail (if (r + c) % 2 = 0 then .VDDC else .VSS))

/-- The ball at row `r` and column `c`, each 1..60 (R489, R491, R493). -/
def ballAt (r c : Nat) : Option PackageBall :=
  if r = 0 ∨ c = 0 ∨ 60 < r ∨ 60 < c then none
  else if r < 16 ∧ c < 46 then some (sideBall 0 c r)
  else if r < 46 ∧ 45 < c then some (sideBall 1 r (61 - c))
  else if 45 < r ∧ 15 < c then some (sideBall 2 (61 - c) (61 - r))
  else if c < 16 then some (sideBall 3 (61 - r) c)
  else centreBall r c

/-! ### Names (R489, R490) -/

/-- `n` in `k` decimal digits. -/
def digits : Nat → Nat → List Char
  | 0, _ => []
  | k + 1, n => digits k (n / 10) ++ [Char.ofNat (48 + n % 10)]

/-- A number below 100 without a leading zero. -/
def groupDigits (n : Nat) : List Char := digits (if n < 10 then 1 else 2) n

/-- A position: row/column, two digits each (R489). -/
def posName (r c : Nat) : List Char := digits 2 r ++ ['/'] ++ digits 2 c

def ChanBall.name : ChanBall → List Char
  | .SH => ['S', 'H']
  | .FO => ['F', 'O']
  | .IH => ['I', 'H']
  | .IL => ['I', 'L']
  | .BG => ['B', 'G']

def GroupBall.name : GroupBall → List Char
  | .SL => ['S', 'L']
  | .GRD => ['G', 'R', 'D']
  | .REFIO => ['R', 'E', 'F', 'I', 'O']

/-- The name of a channel's or a group's ball (R490). -/
def PackageBall.name : PackageBall → Option (List Char)
  | .chan c b => some (['C', 'H'] ++ digits 3 c ++ ['_'] ++ b.name)
  | .group g b => some (['G'] ++ groupDigits g ++ ['_'] ++ b.name)
  | .rail _ | .signal _ => none

end Sys2Proof.Machine
end

