-- ==== Sys2Proof/WellFormed.lean ====
section
/-! DEFINITION. Which commands are well formed: every operand within the width that the spec gives it. -/
namespace Sys2Proof

/-- `n` fits `w` bits. -/
def fits (w n : Nat) : Bool := decide (n < 2 ^ w)
/-- `x` fits `w` bits of two's complement. -/
def fitsI (w : Nat) (x : Int) : Bool := decide (-(2 ^ w : Int) ≤ 2 * x ∧ 2 * x < (2 ^ w : Int))

/-- The header's fields fit the KOP header and the ports are NET0 and NET1 (R370, R371). -/
def Hdr.wf (h : Hdr) : Bool := fits 8 h.sess && fits 32 h.seq && fits 32 h.ip && fits 16 h.udp && fits 1 h.port && fits 48 h.eth

/-- The value fits a write (R43). -/
def WireVal.wf : WireVal → Bool
  | .raw code bytes => fits 8 code && decide (bytes.length ≤ 1026)
  | .num n => fitsI 81 n

/-- A slot is one of the 33 of a group, and its samples are codes of a 7-level quantiser (R12, R162). -/
def SlotIn.wf (x : SlotIn) : Bool := decide (x.slot < 33) && (x.v ++ x.i).all fun q => decide (-3 ≤ q ∧ q ≤ 3)

/-- A Reed input belongs to a channel. -/
def ReedIn.wf (x : ReedIn) : Bool := decide (x.ch < 512)

/-- A message fits the coded form (Table "Fault message", R330). -/
def FaultMsg.wf (m : FaultMsg) : Bool := fits 12 m.source && fits 8 m.kind && fits 24 m.address && fits 8 m.detail

/-- The payload's fields fit (R360). -/
def Payload.wf : Payload → Bool
  | .arpRequest sip mac tip => fits 32 sip && fits 48 mac && fits 32 tip
  | .arpReply sip mac => fits 32 sip && fits 48 mac
  | .ptpL2 msg => fits 4 msg
  | .ip v _ _ _ si di sm body proto sp dp =>
    fits 4 v && fits 32 si && fits 32 di && fits 48 sm && decide (body.length ≤ 9000) && fits 8 proto && fits 16 sp && fits 16 dp
  | .other e => fits 16 e

/-- The frame's fields fit (R360). -/
def Frame.wf (f : Frame) : Bool :=
  fits 1 f.port && fits 16 f.length && f.vid.all (fits 12) && fits 48 f.dstMac && f.payload.wf

/-- Addresses and times of a DHCP message fit (R361). -/
def DhcpMsg.wf : DhcpMsg → Bool
  | .offer ip server => fits 32 ip && fits 32 server
  | .ack ip mask router lease t1 t2 =>
    fits 32 ip && fits 32 mask && fits 32 router && fits 32 lease && t1.all (fits 32) && t2.all (fits 32)
  | .nak => true

/-- A DHCP message with its identifier and address fits (R361). -/
def DhcpIn.wf (m : DhcpIn) : Bool := fits 32 m.xid && fits 48 m.mac && m.msg.wf

/-- The fields of an Announce fit (R365). -/
def PtpClock.wf (x : PtpClock) : Bool :=
  fits 8 x.prio1 && fits 8 x.cls && fits 8 x.accuracy && fits 16 x.variance && fits 8 x.prio2 && fits 64 x.identity && fits 16 x.steps

/-- The fields of a PTP message fit (R365). -/
def PtpMsg.wf : PtpMsg → Bool
  | .announce x utc => x.wf && fitsI 16 utc
  | .sync id seq _ t c | .followUp id seq t c => fits 64 id && fits 16 seq && fits 80 t && fitsI 64 c
  | .delayResp id seq _ t c log => fits 64 id && fits 16 seq && fits 80 t && fitsI 64 c && fitsI 8 log
  | .pdelayResp seq _ _ t c | .pdelayRespFollowUp seq _ t c => fits 16 seq && fits 80 t && fitsI 64 c
  | .pdelayReq id n seq c => fits 64 id && fits 16 n && fits 16 seq && fitsI 64 c

/-- A mirror item of STATE fits (R411). -/
def MirrorState.wf : MirrorState → Bool
  | .output _ st cause => decide (st % 128 < 7) && fits 8 st && decide (cause < 12)
  | .param _ fm sp lim lr vr ir =>
    fits 1 fm && fitsI 24 sp && fitsI 18 lim && decide (lr < 9) && decide (vr < 3) && decide (ir < 9)
  | .chanter _ st pos unit cur => fits 6 st && decide (st / 16 % 2 = 0) && fits 17 pos && fits 16 unit && fits 17 cur.1 && fits 16 cur.2
  | .reserve _ ep | .release _ ep => fits 20 ep
  | .confirmedMake _ ep => fits 20 ep
  | .grid _ n base => decide (1 ≤ n ∧ n ≤ 1000000) && fits 64 base
  | .slide _ step status => decide (step < 4) && fits 8 status
  | .next _ no => fits 64 no
  | .synced _ _ => true

/-- A mirror item of CONFIG fits (R411). -/
def MirrorConfig.wf : MirrorConfig → Bool
  | .object idx sub _ => fits 16 idx && fits 8 sub
  | .sweep el v => fits 17 el && fits 128 v
  | .map el v => fits 20 el && fits 64 v
  | .bias ep => fits 20 ep
  | .restart _ => true

/-- A command is well formed. -/
def Instr.wf : Instr → Bool
  | .frameStart | .tbaStopDetect | .mtrgoPulseEnd | .reedTestPeriodic | .fenceArrival | .faultLogDrain | .ptpDelayReqSend
  | .ptpTimeout | .ppsinEdge | .ppsoutPulse | .ppsoutPulseEnd | .matrixGrant | .ledgerCommitPeriodic | .ledgerCommitDone
  | .modeValidationDone | .calThermalUpdate | .slaveSelectAssert | .slavePartial | .heartbeatLoss | .witnessSilent
  | .bankCopyDone | .rtcRealign | .supplyReturn | .powerOnReset | .nrst | .bootRefclkTimeout | .sleepRampsDone
  | .sleepQuiesceDone | .sleepCommitDone | .sleepPowerDown | .sleepUntilReached | .wakeComplete | .vddcStepUp
  | .vddcStepDown | .hostResetDelayExpiry | .analogueRailsInside9V => true
  | .groupTick _ slots pace _ => slots.all SlotIn.wf && fits 16 pace
  | .stagingClose _ missed => missed.all fun p => decide (p < 33)
  | .loadStrobe _ | .monStartupEnd _ | .monSlotEnd _ | .aggWindowClose _ | .filtFillDone _ | .handoverAckTimeout _
  | .groupPllLock _ => true
  | .clockMonitorWindow _ _ => true
  | .tbaFreqCheck edges => fits 32 edges
  | .tbaTick reeds | .reedSample _ reeds => reeds.all ReedIn.wf
  | .declI h _ v | .boostDecl h _ v | .forceMode h _ v | .notchEn h _ v | .vRange h _ v | .iRange h _ v | .rangeSet h _ v
  | .apertureN h _ v | .epConnect h _ v => h.wf && fitsI 81 v
  | .waveLen h _ v => h.wf && fitsI 81 v
  | .monEntry h _ _ v => h.wf && fitsI 81 v
  | .monUrgent h _ e => h.wf && fitsI 81 e
  | .fltN h _ v | .fltW h _ v => h.wf && fitsI 81 v
  | .netMode h _ v | .netAn h _ v => h.wf && fitsI 81 v
  | .timeSrc h v | .fltUnfence h v | .sp1Go h v | .rtcSet h v | .mode h v => h.wf && fitsI 81 v
  | .openSession h _ cnonce => h.wf && decide (cnonce.length = 16 ∨ cnonce = [])
  | .proof h p => h.wf && decide (p.length = 32)
  | .securePendingExpiry n | .queuedRequestExecute n | .sessionTimeout n => decide (1 ≤ n ∧ n ≤ 8)
  | .close h | .nop h | .blockAbort h | .imageCommit h | .loadBase h | .violClear h | .ledgerCommit h | .mtrgoPulse h
  | .evLogClear h | .fltSafe h | .fltLogClear h | .sp1MbRx h | .pairEnable h | .pairDissolve h | .sysReset h
  | .pwrCmd h => h.wf
  | .read h idx sub => h.wf && fits 16 idx && fits 8 sub
  | .write h idx sub v => h.wf && fits 16 idx && fits 8 sub && v.wf
  | .blockOpen h idx sub _ off n => h.wf && fits 16 idx && fits 8 sub && fits 32 off && fits 32 n
  | .blockSeg h off n data => h.wf && fits 32 off && fits 32 n && decide (data.length ≤ 8192)
  | .blockClose h crc => h.wf && fits 32 crc
  | .imageCommitDone _ | .unfenceSelftestDone _ => true
  | .arm h _ | .enable h _ | .outOff h _ | .outMute h _ | .outResume h _ | .lawHoldSet h _ | .lawHoldCommit h _
  | .apertureRebase h _ | .chtStop h _ | .chtStart h _ | .chtPause h _ | .chtResume h _ | .chtAdvance h _ | .epRelease h _
  | .reedClear h _ => h.wf
  | .armTransitEnd _ | .offRampEnd _ | .safeRampEnd _ | .slidePrepEnd _ | .slideComplete _ | .autoRangeStep _
  | .apertureClose _ | .recFlushExpiry _ | .reservationWrite _ | .reservationConfirm _ | .unitBegin _ _ | .unitApply _
  | .unitSettle _ | .unitEnd _ | .wavePoint _ _ | .claimAnswer _ | .breakSettled _ | .connectionSettled _
  | .takeoverBlankEnd _ => true
  | .ctlRunStart h _ | .ctlRunStop h _ | .filtRunStart h _ | .filtRunStop h _ | .monSnap h _ | .monRestart h _ | .reedTest h _
  | .calStart h _ | .calAbort h _ | .pairHandover h _ | .groupPowerDown h _ | .groupPowerUp h _ => h.wf
  | .monAccA h _ _ | .monAccB h _ _ => h.wf
  | .modulatorOverload _ slot _ _ => decide (slot < 33)
  | .matrixWordEcho _ _ => true
  | .mtxRestart h _ => h.wf
  | .ledgerRetire h _ | .ledgerRestore h _ | .ledgerClearBias h _ => h.wf
  | .mtrgEdge _ _ => true
  | .monDecisionDone _ a b => fitsI 17 a && fitsI 17 b
  | .monSpareSwap _ _ off ppm => fitsI 32 off && fitsI 32 ppm
  | .mtrgoPeriodic m | .sp1Poll m | .witnessToggle m => fits 80 m
  | .reedTestTick _ _ _ => true
  | .eviEdge _ _ | .evoPulseEnd _ => true
  | .evFire h _ => h.wf
  | .calExtCheck _ means => means.all fun x => decide (x.1 < 33)
  | .calPointDone _ x => fitsI 64 x
  | .calNvmWriteDone _ _ => true
  | .sliceTempRead temps => temps.all fun x => decide (x.1 < 528) && fitsI 16 x.2
  | .faultReport m => m.all FaultMsg.wf
  | .collectorVote d => d.all fun n => decide (n < 4)
  | .errorLineChange _ _ _ | .lineErrWindowExpiry _ => true
  | .frameReceive f => f.wf
  | .linkUp _ | .linkDown _ _ | .streamPortReturn _ | .dhcpDiscoverRetry _ | .dhcpRenew _ | .dhcpRebind _
  | .dhcpLeaseExpiry _ => true
  | .dhcpMessage _ m => m.wf
  | .arpRequest _ sip smac tip => fits 32 sip && fits 48 smac && fits 32 tip
  | .arpCacheExpiry _ ip | .arpRetry _ ip => fits 32 ip
  | .icmpEcho _ ip mac data => fits 32 ip && fits 48 mac && decide (data.length ≤ 9000)
  | .ptpMessage _ m => fits 4 m.version && fits 8 m.domain && m.msg.wf
  | .streamEnable h _ | .streamDisable h _ => h.wf
  | .streamArpResolved _ _ mac => fits 48 mac
  | .streamPacketSend _ _ => true
  | .spBusIdle _ => true
  | .spCollision _ _ replies => replies.all (fits 32)
  | .slaveWordComplete w => fits 32 w
  | .sp1ListEnd replies _ => replies.all (fits 32)
  | .sp1MbTx h words => h.wf && words.all (fits 32)
  | .spRestart h _ | .spClear h _ => h.wf
  | .pairForm p => fits 8 p.silicon && fits 1 p.id && decide (p.homes.length = 16) && decide (p.waveCrcs.length = 64) && decide (p.allOff.length = 16)
  | .heartbeat b => fits 1 b.lane && decide (b.roles.length = 16) && fits 2 b.hears
  | .stateCell lane items => fits 1 lane && items.all fun x => fits 16 x.1 && x.2.wf
  | .configCell lane items => fits 1 lane && items.all MirrorConfig.wf
  | .failCell lane | .groupFailCell lane _ | .handoverCell lane _ _ | .ackCell lane _ => fits 1 lane
  | .laneDown _ | .pairCellDiscard _ => true
  | .sramScrubSlice _ _ | .nvmScrubSlice _ _ | .logCopy _ => true
  | .telemetryFrame m _ => fits 16 m.vddc && fitsI 16 m.tempMax && fitsI 16 m.tempMin && fits 32 m.powerMw
  | .lineTest wires => wires.all fun x => decide (x.1 < 26 ∧ x.2 < 4)
  | .nvmPageFlush bank page _ => decide (bank < 16) && decide (page < 256)
  | .rtcTrimStore ppb => decide (-500000 ≤ ppb ∧ ppb ≤ 500000)
  | .supplyLoss _ => true
  | .bootStageComplete b => b.failedSlices.all (fun x => decide (x.1 < 528)) && fits 2 b.bootPins
  | .vddcFallback m => fits 16 m
  | .powerAccounting _ _ means _ => means.all fun x => decide (x.1 < 512)

end Sys2Proof
end

