-- ==== Sys2Proof/Safety.lean ====
section
/-! DEFINITION. The terms that statements use: canonical tables, what the safe latch asserts, when a session takes a request and
a write passes its checks, and the bytes of a request on the wire. -/
namespace Sys2Proof.Machine
open Sys2Proof

/-! ### Sound states -/

/-- The tables whose unlisted value is one for all keys are in canonical form. -/
def State.tablesWf (s : State) : Bool :=
  SMap.wf (fun _ => ({} : Chan)) s.chan && SMap.wf (fun _ => ({} : Group)) s.grp
    && SMap.wf (fun _ => ({} : Session)) s.sess && SMap.wf sweepReset s.sweep

/-- The safe latch asserts nSAFE (R347, Table "Safe-state entry"). -/
def State.latchAsserts (s : State) : Prop := s.latch = true → s.nSafe = true

/-! ### Completion -/

/-- From every state that meets `p`, command `i` answers the state that `f` gives. -/
def Runs (i : Instr) (p : State → Prop) (f : State → State) : Prop := ∀ s, p s → exec i s = .next (f s)

/-- A request reaches an open session by a port that carries KOP, from the session's peer, with the MAC that the session asks for
(R371, R372), and it is the one that executes next (R50, R51, R53). -/
def State.takes (s : State) (h : Hdr) (op : ReqOp) : Bool :=
  let x := s.se h.sess
  s.portUp h.port && x.ip == h.ip && x.udp == h.udp &&
    ((x.kind == 1 && h.mac == none) || (x.kind == 2 && h.mac == some true)) && decide (x.slot ⟨h.seq, h.port, op, h.eth⟩ = .run)

/-- The state in which a request that the session takes executes: the session has received it, and it is the newest of those
not yet answered (R50, R54). -/
def State.taken (s : State) (h : Hdr) (op : ReqOp) : State :=
  (s.modSe h.sess fun x => { x with lastRx := s.now }).enter h.sess ⟨h.seq, h.port, op, h.eth⟩

/-- The mark under which the request waits for its answer. -/
def State.asks (t : State) (h : Hdr) : Ans := t.ansOf h.sess h.seq

/-- The request came from a secure session. -/
def State.secureOf (t : State) (h : Hdr) : Bool := (t.se h.sess).kind == 2

/-- A write passes steps 1 to 9 of R45 with the value `v` that its wire form carries, and the conditions of the device on the
object (step 10). -/
def State.mayWrite (t : State) (h : Hdr) (o : Obj) (k : Nat) (w : WireVal) (v : Val) : Prop :=
  decodeVal o.desc.ty w = some v ∧ t.writeCheck o k h.sess (t.secureOf h) (some v) = none ∧ t.deviceCheck o k v.int = none

/-- Command `i` is the write of element `e` of object `o`, instance `k`, with wire value `w`: where the session takes it, the write
passes its checks and the state at its execution meets `p`, it has the effect that `f` gives with the mark of its answer. -/
def WriteRuns (i : Instr) (h : Hdr) (o : Obj) (k e : Nat) (w : WireVal) (v : Val) (p : State → Prop) (f : State → Ans → State) : Prop :=
  ∀ s, let t := s.taken h (.write (.obj o k e) w)
    s.takes h (.write (.obj o k e) w) = true → t.mayWrite h o k w v → p t → exec i s = .next (f t (t.asks h))

/-- Command `i` is the request `op` of the session: where the session takes it and the state at its execution meets `p`, it has
the effect that `f` gives with the mark of its answer. -/
def RequestRuns (i : Instr) (h : Hdr) (op : ReqOp) (p : State → Prop) (f : State → Ans → State) : Prop :=
  ∀ s, s.takes h op = true → p (s.taken h op) → exec i s = .next (f (s.taken h op) ((s.taken h op).asks h))

/-- The object that a request for one object writes, and the wire value that it carries; none for every other command. -/
def writeOf : Instr → Option (Hdr × Obj × Nat × Nat × WireVal)
  | .declI h c v => some (h, .DECL_I, c, 0, .num v)
  | .mode h m => some (h, .MODE, 0, 0, .num m)
  | .imageCommit h => some (h, .IMAGE_COMMIT, 0, 0, .num 1)
  | .loadBase h => some (h, .LOAD_BASE, 0, 0, .num 1)
  | .violClear h => some (h, .VIOL_CLEAR, 0, 0, .num 1)
  | .arm h c => some (h, .OUT_CMD, c, 0, .num 1)
  | .enable h c => some (h, .OUT_CMD, c, 0, .num 2)
  | .outOff h c => some (h, .OUT_CMD, c, 0, .num 0)
  | .outMute h c => some (h, .OUT_CMD, c, 0, .num 3)
  | .outResume h c => some (h, .OUT_CMD, c, 0, .num 4)
  | .boostDecl h c v => some (h, .BOOST_DECL, c, 0, .num v)
  | .forceMode h c v => some (h, .FORCE_MODE, c, 0, .num v)
  | .notchEn h c v => some (h, .NOTCH_EN, c, 0, .num v)
  | .lawHoldSet h c => some (h, .LAW_HOLD, c, 0, .num 1)
  | .lawHoldCommit h c => some (h, .LAW_HOLD, c, 0, .num 0)
  | .ctlRunStart h g => some (h, .CTL_RUN, g, 0, .num 1)
  | .ctlRunStop h g => some (h, .CTL_RUN, g, 0, .num 0)
  | .vRange h c v => some (h, .V_RANGE, c, 0, .num v)
  | .iRange h c v => some (h, .I_RANGE, c, 0, .num v)
  | .rangeSet h c v => some (h, .RANGE_SET, c, 0, .num v)
  | .apertureN h c v => some (h, .APERTURE_N, c, 0, .num v)
  | .apertureRebase h c => some (h, .APERTURE_REBASE, c, 0, .num 1)
  | .filtRunStart h g => some (h, .FILT_RUN, g, 0, .num 1)
  | .filtRunStop h g => some (h, .FILT_RUN, g, 0, .num 0)
  | .chtStop h c => some (h, .CHT_CMD, c, 0, .num 0)
  | .chtStart h c => some (h, .CHT_CMD, c, 0, .num 1)
  | .chtPause h c => some (h, .CHT_CMD, c, 0, .num 2)
  | .chtResume h c => some (h, .CHT_CMD, c, 0, .num 3)
  | .chtAdvance h c => some (h, .CHT_CMD, c, 0, .num 4)
  | .waveLen h n v => some (h, .WAVE_LEN, n, 0, .num v)
  | .epConnect h c v => some (h, .EP_CONNECT, c, 0, .num v)
  | .epRelease h c => some (h, .EP_CONNECT, c, 0, .num 0xFFFF)
  | .mtxRestart h l => some (h, .MTX_RESTART, l, 0, .num 1)
  | .ledgerRetire h ep => some (h, .LEDGER_CMD, 0, 0, .num (ledgerWord 1 ep))
  | .ledgerRestore h ep => some (h, .LEDGER_CMD, 0, 0, .num (ledgerWord 2 ep))
  | .ledgerClearBias h ep => some (h, .LEDGER_CMD, 0, 0, .num (ledgerWord 3 ep))
  | .ledgerCommit h => some (h, .LEDGER_COMMIT, 0, 0, .num 1)
  | .monUrgent h g e => some (h, .MON_URGENT, g, 0, .num e)
  | .monEntry h g e v => some (h, .MON_ENTRY, g, e, .num v)
  | .monRestart h g => some (h, .MON_RESTART, g, 0, .num 1)
  | .mtrgoPulse h => some (h, .MTRGO_PULSE, 0, 0, .num 1)
  | .reedClear h c => some (h, .REED_CLEAR, c, 0, .num 1)
  | .reedTest h g => some (h, .REED_TEST, g, 0, .num 1)
  | .evFire h n => some (h, .EV_FIRE, n, 0, .num 1)
  | .evLogClear h => some (h, .EV_LOG_CLEAR, 0, 0, .num 1)
  | .calStart h g => some (h, .CAL_CMD, g, 0, .num 1)
  | .calAbort h g => some (h, .CAL_CMD, g, 0, .num 2)
  | .fltUnfence h n => some (h, .FLT_UNFENCE, 0, 0, .num n)
  | .fltSafe h => some (h, .FLT_SAFE, 0, 0, .num 1)
  | .fltLogClear h => some (h, .FLT_LOG_CLEAR, 0, 0, .num 1)
  | .fltN h t v => some (h, .FLT_N, t, 0, .num v)
  | .fltW h t v => some (h, .FLT_W, t, 0, .num v)
  | .netMode h n v => some (h, .NET_MODE, n, 0, .num v)
  | .netAn h n v => some (h, .NET_AN, n, 0, .num v)
  | .timeSrc h v => some (h, .TIME_SRC, 0, 0, .num v)
  | .streamEnable h k => some (h, .STREAM_EN, k, 0, .num 1)
  | .streamDisable h k => some (h, .STREAM_EN, k, 0, .num 0)
  | .sp1Go h sel => some (h, .SP1_GO, 0, 0, .num sel)
  | .sp1MbTx h ws => some (h, .SP1_MB_TX, 0, 0, .raw 15 (mailboxBytes ws))
  | .spRestart h n => some (h, .SP_RESTART, n, 0, .num 1)
  | .spClear h n => some (h, .SP_CLEAR, n, 0, .num 1)
  | .pairEnable h => some (h, .PAIR_EN, 0, 0, .num 1)
  | .pairDissolve h => some (h, .PAIR_EN, 0, 0, .num 0)
  | .pairHandover h g => some (h, .PAIR_HANDOVER, g, 0, .num 1)
  | .rtcSet h t => some (h, .RTC_SET, 0, 0, .num t)
  | .sysReset h => some (h, .SYS_RESET, 0, 0, .num 1)
  | .groupPowerDown h g => some (h, .GROUP_PWR, g, 0, .num 0)
  | .groupPowerUp h g => some (h, .GROUP_PWR, g, 0, .num 1)
  | .pwrCmd h => some (h, .PWR_CMD, 0, 0, .num 2)
  | _ => none

/-! ### Requests on the wire (R370, R373) -/

/-- A request as it can stand in a datagram: its fields fit the fields of Table "KOP messages". -/
def ReqOp.wireOk : ReqOp → Bool
  | .read (.raw idx sub) => fits 16 idx && fits 8 sub
  | .write (.raw idx sub) (.raw code b) => fits 16 idx && fits 8 sub && fits 8 code && decide (b.length ≤ 8000)
  | .nop | .close | .blockAbort => true
  | .blockOpen idx sub _ off n => fits 16 idx && fits 8 sub && fits 32 off && fits 32 n
  | .blockSeg off n data => fits 32 off && fits 16 n && decide (data.length ≤ 8192)
  | .blockClose crc => fits 32 crc
  | .read (.obj ..) | .write .. | .reserved _ => false

/-- The body of a request (Table "KOP messages"). -/
def ReqOp.bytes : ReqOp → List Byte
  | .read t => beBytes 2 t.addr.1 ++ beBytes 1 t.addr.2 ++ [0#8]
  | .write t (.raw code b) => beBytes 2 t.addr.1 ++ beBytes 1 t.addr.2 ++ beBytes 1 code ++ b
  | .write _ (.num _) => []
  | .nop | .close => []
  | .reserved op => op.bytes
  | .blockOpen idx sub w off n => beBytes 2 idx ++ beBytes 1 sub ++ [if w then 1#8 else 0#8] ++ beBytes 4 off ++ beBytes 4 n
  | .blockSeg off n data => beBytes 4 off ++ beBytes 2 n ++ [0#8, 0#8] ++ data
  | .blockClose crc => beBytes 4 crc ++ [0#8, 0#8, 0#8, 0#8]
  | .blockAbort => [0#8, 0#8, 0#8, 0#8, 1#8, 0#8, 0#8, 0#8]

/-- The datagram of a request without a MAC (R370): MAGIC, VERSION 1, TYPE, SESSION, FLAGS 0, LENGTH, REQ_SEQ, reserved, body. -/
def requestDatagram (n seq : Nat) (op : ReqOp) : List Byte :=
  [0x4B#8, 0x50#8, 0x01#8] ++ beBytes 1 op.type ++ beBytes 1 n ++ [0#8] ++ beBytes 2 op.bytes.length ++ beBytes 4 seq ++
    [0#8, 0#8, 0#8, 0#8] ++ op.bytes

/-- The frame that carries a request to a port's own address: a good IPv4 frame with UDP to port 47120 (R360, R363, R370). -/
def requestFrame (p dstIp srcIp srcMac udp : Nat) (vid : Option Nat) (len n seq : Nat) (op : ReqOp) : Frame :=
  { port := p, crcOk := true, length := len, macControl := false, vid := vid, dstMac := (Config.netMac p).toNat
    payload := .ip 4 true false true srcIp dstIp srcMac (requestDatagram n seq op) 17 udp 47120 }

/-! ### Rounding (R112) -/

/-- `n` is a whole number nearest to `x` / 2^`k`, the even one where two are equally near. -/
def Nearest (k : Nat) (x n : Int) : Prop :=
  2 * (n * 2 ^ k - x).natAbs ≤ 2 ^ k ∧ (2 * (n * 2 ^ k - x).natAbs = 2 ^ k → n % 2 = 0)

/-! ### Buckets (R335) -/

/-- A bucket after `d` µs of TBA. -/
def State.leakBy (s : State) (src d : Nat) : State :=
  { s with flt := { s.flt with bucket := s.flt.bucket.put (fun _ => 0) src (s.flt.bucket.get (fun _ => 0) src - d) } }

/-- Counted reports of a source, each after a number of µs: some report escalates. -/
def State.escalates (s : State) (src : Nat) : List Nat → Bool
  | [] => false
  | d :: l =>
    let (t, e) := (s.leakBy src d).countReport src
    e || t.escalates src l

end Sys2Proof.Machine
end

