-- ==== Sys2Proof/Certificates/Slice0/Obligations.lean ====
section
/-! DEFINITION. The statements for the provers: the machine, the requests, the commands, and the rules of the spec. -/
open Sys2Proof Sys2Proof.Machine

/-! ### The machine -/

/-- A step takes the command at the front of the queue and runs it on the state with the queue's rest. -/
def Obligations.StepRunsTheFront : Prop :=
  ∀ (s : State) (c : Instr) (rest : List Instr), s.pending = c :: rest → step s = exec c { s with pending := rest }

/-- With an empty queue, 8 ns pass (the model's choice, log 1): the time since reset advances, the TBP counter with it at
its trimmed rate, the calendar at the rate of RTC_TRIM while PTP_STATE is not LOCKED and not at all while TBC (timebase 23) is lost,
and the event log intake is drained; nothing else changes, but that at every 256 ns the pair lanes begin a cell. -/
def Obligations.EmptyQueueIdles : Prop :=
  ∀ s : State, s.pending = [] →
    step s = .next (
      let t : State := { s with
        clk := { s.clk with
          up := s.clk.up + 8
          rtc := if s.tb 23 = 4 then s.clk.rtc - 8
            else if s.rd .PTP_STATE = 3 then s.clk.rtc
            else s.clk.rtc + (s.clk.rtcPart + 8 * s.nvm.rtcTrim) / 1000000000
          rtcPart := if s.tb 23 = 4 ∨ s.rd .PTP_STATE = 3 then s.clk.rtcPart
            else (s.clk.rtcPart + 8 * s.nvm.rtcTrim) % 1000000000
          tbp := s.clk.tbp + (s.clk.part + 8 * s.clk.rate) / 1000000000
          part := (s.clk.part + 8 * s.clk.rate) % 1000000000 }
        drn := { s.drn with intake := 0 } }
      if (s.clk.up + 8) % 256 = 0 then t.pairSlot else t)

/-- After a power-on reset of a new part every object reads its default, every channel is OFF on its home slice with its driver
unpowered and its force switches open, no session is open, the sweep memory holds HALT entries, no endpoint is reserved, both
mailbox queues are empty, every EVO ball is low, the safe latch is clear, nSAFE is asserted and the boot stands in stage 0. -/
def Obligations.ResetState : Prop :=
  (∀ o i e, State.reset.rdV o i e = objDefault o i e) ∧
  (∀ c, (State.reset.ch c).out = .off ∧ (State.reset.ch c).transit = false ∧ (State.reset.ch c).onSpare = false ∧
    (State.reset.ch c).drv = false ∧ (State.reset.ch c).isoF = false ∧ (State.reset.ch c).bg = .off) ∧
  (∀ n, (State.reset.se n).kind = 0) ∧ (∀ k, State.reset.sweepEl k = sweepReset k) ∧ State.reset.charges = 0 ∧
  State.reset.mtx.resv = [] ∧ State.reset.mbox.txq = [] ∧ State.reset.mbox.rxq = [] ∧
  State.reset.rtr.evo = 0 ∧ State.reset.rtr.pulses = 0 ∧ State.reset.flt.fenced = [] ∧
  State.reset.latch = false ∧ State.reset.nSafe = true ∧ State.reset.pwr.stage = 0 ∧ State.reset.pending = []

/-- Every command answers a next state, and none touches the waiting commands. -/
def Obligations.CommandsLeaveTheQueue : Prop := ∀ (c : Instr) (s : State), ∃ t, exec c s = .next t ∧ t.pending = s.pending

/-- The reset state meets both invariants: the latch asserts nSAFE, and the tables are canonical. -/
def Obligations.InvariantsHoldAtReset : Prop := State.reset.latchAsserts ∧ State.reset.tablesWf = true

/-- Whatever command runs, and whenever the queue is empty: if nSAFE is asserted while the safe latch is set, it is so after the
step. -/
def Obligations.SafeLatchKeepsNsafe : Prop := ∀ s t : State, s.latchAsserts → step s = .next t → t.latchAsserts

/-- The tables of channels, groups and sessions and the sweep memory stay in canonical form at every step. -/
def Obligations.TablesStayCanonical : Prop := ∀ s t : State, s.tablesWf = true → step s = .next t → t.tablesWf = true

/-- Only a power cycle leaves the safe state: with the latch set, every step but one that runs a power-on reset or a loss of VAON
(rail 6) leaves it set. -/
def Obligations.OnlyPowerCycleClearsLatch : Prop :=
  ∀ s t : State, s.latch = true → s.pending.head? ≠ some .powerOnReset → s.pending.head? ≠ some (.supplyLoss 6) →
    step s = .next t → t.latch = true

/-- A power-on reset and a loss of VAON clear the latch with its cause, the three other resets keep both, and each of the five
keeps the NVM (a calibration commit that the store already holds counts) and the calendar, discards every object value (RESET_CAUSE tells the source), every session and the sweep memory,
and asserts nSAFE. A power-on reset with VBAK lost clears RTC_VALID and keeps the rest of the NVM. -/
def Obligations.ResetsKeepAndDiscard : Prop :=
  ∀ s t : State, ∀ src : Nat,
    (src = 0 ∧ (exec .powerOnReset s = .next t ∨ (bit s.pwr.lost 6 = false ∧ exec (.supplyLoss 6) s = .next t))) ∨
    (src = 1 ∧ exec .nrst s = .next t) ∨
    (src = 2 ∧ (∃ d, s.pwr.resetAt = some d ∧ d ≤ s.now) ∧ exec .hostResetDelayExpiry s = .next t) ∨
    (src = 3 ∧ s.pwr.stage ≠ 0 ∧ bits s.pwr.lost 0 5 ≠ 0 ∧ exec .supplyReturn s = .next t) →
      t.latch = (s.latch && src != 0) ∧ (src ≠ 0 → t.cause = s.cause) ∧ (src = 0 → t.cause = none) ∧
        t.nvm = { s.nvm with rtcValid := s.nvm.rtcValid && !(src == 0 && bit s.pwr.lost 7)
                             calCommits := satN 32 (s.nvm.calCommits + s.calOwed) } ∧ t.rtc = s.rtc ∧ t.rd .RESET_CAUSE = src ∧ t.sess = [] ∧ t.sweep = [] ∧ t.nSafe = true ∧ t.pwr.stage = 0 ∧
        (∀ o i e, objKey o i e ≠ objKey .RESET_CAUSE 0 0 → t.rdV o i e = objDefault o i e)

/-! ### Requests -/

/-- A request's TYPE and body read back as the request, for every request whose fields fit Table "KOP messages". -/
def Obligations.RequestCodec : Prop := ∀ op : ReqOp, op.wireOk = true → opOf op.type op.bytes = some op

/-- A good frame to a usable port's own address that carries a request without a MAC has the effect of that request arriving, after
NET_RX_FRAMES has counted the frame: whatever the request, session, REQ_SEQ, peer and port, no bit of it is lost on the way. -/
def Obligations.FrameCarriesRequest : Prop :=
  ∀ (s : State) (p srcIp srcMac udp : Nat) (vid : Option Nat) (len n seq : Nat) (op : ReqOp),
    p < 2 → s.portUsable p = true → s.pwr.asleep = false → s.rdN .NET_IP p ≠ 0 → n < 256 → seq < 2 ^ 32 → op.wireOk = true →
    len ≤ s.frameMax (requestFrame p (s.rdN .NET_IP p) srcIp srcMac udp vid len n seq op) →
    s.vlanOk (requestFrame p (s.rdN .NET_IP p) srcIp srcMac udp vid len n seq op) = true →
    exec (.frameReceive (requestFrame p (s.rdN .NET_IP p) srcIp srcMac udp vid len n seq op)) s =
      .next ((s.inc .NET_RX_FRAMES p).kopIn ⟨n, seq, srcIp, udp, p, none, srcMac⟩ op)

/-- A request that repeats the REQ_SEQ of a kept response gets that response again, on the port of the repeat, and is not executed:
only the time of the last request and what has left the block change. -/
def Obligations.RepeatGetsKeptResponse : Prop :=
  ∀ (s : State) (h : Hdr) (op : ReqOp) (r : Resp), s.portUp h.port = true → (s.se h.sess).kind = 1 → (s.se h.sess).ip = h.ip →
    (s.se h.sess).udp = h.udp → h.mac = none → ((s.se h.sess).kept.find? fun r => r.req.seq = h.seq) = some r →
    s.kopIn h op = (s.modSe h.sess fun x => { x with lastRx := s.now }).emit h.sess { r with req := { r.req with port := h.port, eth := h.eth } }

/-- A request whose REQ_SEQ lies 256 or more beyond the oldest unanswered one of its session answers BUSY at once, and one older
than every kept response answers SEQ_OLD; neither executes nor enters the session's queue. -/
def Obligations.BusyAndOldAnswerAtOnce : Prop :=
  ∀ (s : State) (h : Hdr) (op : ReqOp) (m : Nat), s.portUp h.port = true → (s.se h.sess).kind = 1 → (s.se h.sess).ip = h.ip →
    (s.se h.sess).udp = h.udp → h.mac = none → (s.se h.sess).next = some m → (s.se h.sess).closing = none →
    ((s.se h.sess).kept.find? fun r => r.req.seq = h.seq) = none →
    (((s.se h.sess).waiting.any fun w => w.seq == h.seq) || ((s.se h.sess).outst.any fun w => w.1.seq == h.seq)) = false →
    (2147483648 ≤ seqDist m h.seq →
      s.kopIn h op = (s.modSe h.sess fun x => { x with lastRx := s.now }).emit h.sess ⟨⟨h.seq, h.port, op, h.eth⟩, .SEQ_OLD, .num 0⟩) ∧
    (seqDist m h.seq < 2147483648 → 256 ≤ seqDist ((s.se h.sess).oldest m) h.seq →
      s.kopIn h op = (s.modSe h.sess fun x => { x with lastRx := s.now }).emit h.sess ⟨⟨h.seq, h.port, op, h.eth⟩, .BUSY, .num 0⟩)

/-- A datagram for a number that is not open, from a peer that is not the session's, or with a failing MAC is discarded and
counted, and changes nothing else. -/
def Obligations.ForeignRequestsAreCounted : Prop :=
  ∀ (s : State) (h : Hdr) (op : ReqOp), s.portUp h.port = true →
    ((s.se h.sess).kind = 0 → s.kopIn h op = s.inc .KOP_DROPS) ∧
    ((s.se h.sess).kind ≠ 0 → ((s.se h.sess).ip ≠ h.ip ∨ (s.se h.sess).udp ≠ h.udp) →
      s.kopIn h op = (s.inc .KOP_PEER_REJECTS).inc .KOP_DROPS) ∧
    ((s.se h.sess).kind = 2 → (s.se h.sess).ip = h.ip → (s.se h.sess).udp = h.udp → h.mac ≠ some true →
      s.kopIn h op = s.inc .KOP_MAC_FAILS)

/-- The first access check that fails is the answer, and the write changes nothing: whichever object a write command names, where
the session takes the request and the checks give a status, the command only answers that status. -/
def Obligations.FailedChecksOnlyAnswer : Prop :=
  ∀ (i : Instr) (h : Hdr) (o : Obj) (k e : Nat) (w : WireVal) (st : Status) (s : State), writeOf i = some (h, o, k, e, w) →
    s.takes h (.write (.obj o k e) w) = true →
    (s.taken h (.write (.obj o k e) w)).writeCheck o k h.sess ((s.taken h (.write (.obj o k e) w)).secureOf h) (decodeVal o.desc.ty w)
      = some st →
    exec i s = .next ((s.taken h (.write (.obj o k e) w)).answer ((s.taken h (.write (.obj o k e) w)).asks h) st)

/-- The order of the access checks of a write: the answer is the status of the first row of Table "Access check order" whose check
fails, rows 2 to 9 (an unknown object fails before there is an object to check). A TIME80 whose nanoseconds do not exist fails with
its type (log 13). -/
def Obligations.AccessCheckOrder : Prop :=
  ∀ (s : State) (o : Obj) (k n : Nat) (secure : Bool) (v : Val),
    s.writeCheck o k n secure (some v) = firstStatus
      [if (o.desc.sec || isSecure o || s.secureUnit (unitOf o k)) && !secure then some .SECURE_ONLY else none,
       if o.desc.cls = .RO ∨ o.desc.cls = .CONST then some .READ_ONLY else none,
       if s.ownerOk o k n v.int then none else some .NOT_OWNER,
       if malformed o.desc.ty v then some .BAD_VALUE else none,
       if (v.int.toNat &&& reservedBits o) ≠ 0 then some .RESERVED_NONZERO else none,
       if inLimits o k v then none else some .OUT_OF_RANGE,
       if s.badValue o k v then some .BAD_VALUE else none,
       if o.desc.cls = .RWS ∧ s.stopped o k = false then some .RWS_RUNNING else none]

/-- Sessions: CLOSE, NOP, READ, WRITE and the block requests complete. CLOSE answers OK and discards what waits behind it; READ
returns the object's value; WRITE has the effect of its object; a block opens with ELEM_SIZE and SEG_MAX, a segment moves its elements
and advances, a close compares the CRC-32, and an abort ends the transfer. -/
def Obligations.RequestsComplete : Prop :=
  ∀ h : Hdr,
    RequestRuns (.close h) h .close (fun _ => True)
      (fun t a => (t.modSe h.sess fun x => { x with closing := a.map (·.2), waiting := [] }).answer a .OK) ∧
    RequestRuns (.nop h) h .nop (fun _ => True) (fun t a => t.answer a .OK) ∧
    (∀ idx sub o i e, RequestRuns (.read h idx sub) h (.read (.raw idx sub))
      (fun t => placeOf (.raw idx sub) = .obj o i e ∧ readCheck o (t.secureOf h) = none)
      (fun t a => (t.afterRead h.sess o i e).answer a .OK (t.readVal (h.sess + 16 * (t.se h.sess).inc) o i e))) ∧
    (∀ idx sub w o i e v, RequestRuns (.write h idx sub w) h (.write (.raw idx sub) w)
      (fun t => placeOf (.raw idx sub) = .obj o i e ∧ t.mayWrite h o i w v)
      (fun t a => match t.writeEffect o i e h.sess (t.secureOf h) v a with
        | (u, some st) => u.answer a st
        | (u, none) => u)) ∧
    (∀ idx sub w off n, RequestRuns (.blockOpen h idx sub w off n) h (.blockOpen idx sub w off n)
      (fun t => t.openCheck h.sess (t.secureOf h) idx sub w off n = none)
      (fun t a => (t.modSe h.sess fun x => { x with block := some ⟨idx, sub, w, off, n, crcInit⟩ }).answer a .OK
        (.bytes (beBytes 2 (elemSize idx) ++ beBytes 2 (t.segMax idx))))) ∧
    (∀ off n data b k, RequestRuns (.blockSeg h off n data) h (.blockSeg off n data)
      (fun t => (t.se h.sess).block = some b ∧ b.dirWrite = true ∧ off = b.next ∧ n ≤ b.left ∧ n ≤ t.segMax b.idx ∧
        data.length = n * elemSize b.idx ∧ (segWrite h.sess (t.secureOf h) b.idx b.sub n off data t).2 = (k, .OK))
      (fun t a => ((segWrite h.sess (t.secureOf h) b.idx b.sub n off data t).1.modSe h.sess fun x =>
        { x with block := some { b with next := k, left := b.left - n, crc := crcUpd b.crc data } }).answer a .OK
          (.bytes (beBytes 4 k)))) ∧
    (∀ off n b, RequestRuns (.blockSeg h off n []) h (.blockSeg off n [])
      (fun t => (t.se h.sess).block = some b ∧ b.dirWrite = false ∧ off = b.next ∧ n ≤ b.left ∧ n ≤ t.segMax b.idx)
      (fun t a => (t.modSe h.sess fun x => { x with block := some { b with
          next := off + n, left := b.left - n
          crc := crcUpd b.crc ((rangeFrom off n).flatMap fun k => t.elemBytes b.idx b.sub k) } }).answer a .OK
        (.bytes (beBytes 4 (off + n) ++ (rangeFrom off n).flatMap fun k => t.elemBytes b.idx b.sub k)))) ∧
    (∀ crc b, RequestRuns (.blockClose h crc) h (.blockClose crc) (fun t => (t.se h.sess).block = some b)
      (fun t a => (t.blockEnd h.sess).answer a (if crcFin b.crc = crc then .OK else .BLOCK_CHECK))) ∧
    (∀ b, RequestRuns (.blockAbort h) h .blockAbort (fun t => (t.se h.sess).block = some b)
      (fun t a => (t.blockEnd h.sess).answer a .BLOCK_ABORTED))

/-- Opening: a plain OPEN of a number that no other peer holds opens it and answers OK; a secure OPEN of a number with a key holds it
pending with 16 fresh bytes and sends them as the challenge; a PROOF with the right digest within 1 s opens a secure session; a
pending number is released 1 s after its OPEN. -/
def Obligations.OpeningsComplete : Prop :=
  ∀ (h : Hdr) (cnonce proof : List Byte) (q : Pend),
    Runs (.openSession h false cnonce)
      (fun s => s.portUp h.port = true ∧ h.mac = none ∧ 1 ≤ h.sess ∧ h.sess ≤ 8 ∧ (s.se h.sess).foreign h = false ∧
        s.rdT .SESSION_SECURE_ONLY h.sess = false)
      (fun s => (s.sessionStart h 1 []).shake h 1 .OK []) ∧
    Runs (.openSession h true cnonce)
      (fun s => s.portUp h.port = true ∧ h.mac = none ∧ 1 ≤ h.sess ∧ h.sess ≤ 8 ∧ (s.se h.sess).foreign h = false ∧
        (s.nvm.keys.get (fun _ => []) h.sess).isEmpty = false)
      (fun s =>
        let sn := (rangeFrom s.fresh 16).map Config.randomByte
        { s with fresh := s.fresh + 16
                 pend := s.pend.put (fun _ => none) h.sess (some ⟨h.ip, h.udp, cnonce, sn, s.now⟩) }.shake h 1 .OK sn) ∧
    Runs (.proof h proof)
      (fun s => s.portUp h.port = true ∧ h.mac = none ∧ s.pend.get (fun _ => none) h.sess = some q ∧ q.ip = h.ip ∧
        q.udp = h.udp ∧ s.now < q.since + 1000000000 ∧
        proof = digest "KOP-H" (s.nvm.keys.get (fun _ => []) h.sess) h.sess q)
      (fun s => ({ s with pend := s.pend.put (fun _ => none) h.sess none }.sessionStart h 2
          (digest "KOP-S" (s.nvm.keys.get (fun _ => []) h.sess) h.sess q)).shake h 2 .OK
        (digest "KOP-D" (s.nvm.keys.get (fun _ => []) h.sess) h.sess q)) ∧
    (∀ n, Runs (.securePendingExpiry n)
      (fun s => s.pend.get (fun _ => none) n = some q ∧ q.since + 1000000000 ≤ s.now)
      (fun s => { s with pend := s.pend.put (fun _ => none) n none }))

/-- A waiting request executes once it is next, and what a closed session left in issue order executes one by one without an answer, with
the session's open transfer and until its last; a session with no request for SESSION_TIMEOUT closes, and one with nothing ready closes at
once. -/
def Obligations.SessionEventsComplete : Prop :=
  ∀ (n : Nat) (q : Req) (x : Orphan) (op : ReqOp) (l : List ReqOp),
    Runs (.queuedRequestExecute n) (fun s => s.orphanOf n = none ∧ (s.se n).ready = some q)
      (fun s => (s.modSe n fun x => { x with waiting := x.waiting.filter fun w => w.seq ≠ q.seq }).runReq n q) ∧
    Runs (.queuedRequestExecute n) (fun s => s.orphanOf n = some x ∧ x.ops = [op])
      (fun s =>
        let u := s.orphanOp x.sess x.secure op x.block
        { u.1 with orphans := u.1.orphans.eraseIdx (s.orphans.idxOf x) }.transferEnd u.2.1) ∧
    Runs (.queuedRequestExecute n) (fun s => s.orphanOf n = some x ∧ x.ops = op :: l ∧ l ≠ [])
      (fun s =>
        let u := s.orphanOp x.sess x.secure op x.block
        { u.1 with orphans := u.1.orphans.set (s.orphans.idxOf x) { x with ops := l, block := u.2.1, gated := u.2.2 } }) ∧
    Runs (.sessionTimeout n)
      (fun s => (s.se n).kind ≠ 0 ∧ (s.se n).lastRx + s.rdN .SESSION_TIMEOUT * 1000000 ≤ s.now)
      (fun s => s.closeSession n) ∧
    (∀ s : State, (s.se n).ready = none → s.closeSession n = s.dropSession n)

/-! ### Writes of one object -/

/-- A write that belongs to a group tick reaches the group and answers at its strobe (R46); in a group without strobes it is stored and
answers now (R47); NOTCH_EN while LAW_HOLD is set is staged and answers now (R131); DECL_I passes the budget review first, and takes its
verdict along (R35, R37). APERTURE_N and APERTURE_REBASE answer FENCED where their filter engine is fenced. -/
def Obligations.TickBoundWritesComplete : Prop :=
  ∀ (h : Hdr) (c : ChanNo) (v : Int),
    WriteRuns (.declI h c v) h .DECL_I c 0 (.num v) (.num v) (fun t => (t.declReview c v.toNat).2 ≠ some false)
      (fun t a =>
        let u := (t.declReview c v.toNat).1
        if u.strobes (grpOf c) then u.push (grpOf c) a (.set .DECL_I c 0 v.toNat) (t.declReview c v.toNat).2
        else (u.push (grpOf c) none (.set .DECL_I c 0 v.toNat) (t.declReview c v.toNat).2).answer a .OK) ∧
    WriteRuns (.forceMode h c v) h .FORCE_MODE c 0 (.num v) (.num v) (fun _ => True)
      (fun t a => if t.strobes (grpOf c) then t.push (grpOf c) a (.set .FORCE_MODE c 0 v)
        else (t.push (grpOf c) none (.set .FORCE_MODE c 0 v)).answer a .OK) ∧
    WriteRuns (.notchEn h c v) h .NOTCH_EN c 0 (.num v) (.num v) (fun _ => True)
      (fun t a => match (t.ch c).bank with
        | some l => (t.modCh c fun x => { x with bank := some ((.NOTCH_EN, v) :: l.filter fun p => p.1 ≠ .NOTCH_EN) }).answer a .OK
        | none => if t.strobes (grpOf c) then t.push (grpOf c) a (.set .NOTCH_EN c 0 v)
          else (t.push (grpOf c) none (.set .NOTCH_EN c 0 v)).answer a .OK) ∧
    WriteRuns (.apertureN h c v) h .APERTURE_N c 0 (.num v) (.num v) (fun _ => True)
      (fun t a => match t.filtFence (grpOf c) with
        | some st => t.answer a st
        | none => if t.strobes (grpOf c) then t.push (grpOf c) a (.set .APERTURE_N c 0 v)
          else (t.push (grpOf c) none (.set .APERTURE_N c 0 v)).answer a .OK) ∧
    WriteRuns (.apertureRebase h c) h .APERTURE_REBASE c 0 (.num 1) (.num 1) (fun _ => True)
      (fun t a => match t.filtFence (grpOf c) with
        | some st => t.answer a st
        | none => if t.strobes (grpOf c) then t.push (grpOf c) a (.rebase c)
          else (t.push (grpOf c) none (.rebase c)).answer a .OK)

/-- Configuration: MODE starts a switch when none runs, IMAGE_COMMIT of a sound image starts the commit, writes its pages and holds the
session's later requests back, LOAD_BASE with every engine stopped applies the base, and VIOL_CLEAR empties the violation log. -/
def Obligations.ConfigWritesComplete : Prop :=
  ∀ (h : Hdr) (m : Int) (half : Half) (ws : List (Nat × List Int)),
    WriteRuns (.mode h m) h .MODE 0 0 (.num m) (.num m) (fun t => t.cfg.cur = none)
      (fun t a => { t with cfg := { t.cfg with cur := some ⟨m.toNat, .host a, h.sess, t.secureOf h⟩ } }) ∧
    WriteRuns (.imageCommit h) h .IMAGE_COMMIT 0 0 (.num 1) (.num 1)
      (fun t => t.cfg.commit = none ∧ t.imageCheck = .ok (half, ws) ∧
        ∀ p ∈ t.imagePages ++ (ws.flatMap fun (w : Nat × List Int) => t.wavePlaces w.1 0 w.2.length).eraseDups, t.pageDead p = false)
      (fun t a => ({ t.setIdle {} with cfg := { t.cfg with commit := some (a, half, ws) } }.nvmPut
        (t.imagePages ++ (ws.flatMap fun (w : Nat × List Int) => t.wavePlaces w.1 0 w.2.length).eraseDups)).modSe h.sess fun x =>
          { x with gated := true }) ∧
    WriteRuns (.loadBase h) h .LOAD_BASE 0 0 (.num 1) (.num 1) (fun t => t.latch = false ∧ t.allStopped = true)
      (fun t a =>
        let u : State := { t with cfg := { t.cfg with loaded := true } }
        (((u.takeBase u.baseTriples).putBase (u.toDefault u.baseTriples ++ u.baseTriples)).loadMap.wr .MODE 0 0 0).answer a .OK) ∧
    WriteRuns (.violClear h) h .VIOL_CLEAR 0 0 (.num 1) (.num 1) (fun _ => True) (fun t a => t.violClear.answer a .OK)

/-- Output commands: ARM, ENABLE and RESUME pass steps 1 to 6 of R97 and reach the group, ARM with the verdict of the budget review, OFF
and MUTE reach it without them, and each answers at its strobe; where the group has no strobes and is powered down or the channel is OFF, OFF and MUTE act at once; BOOST_DECL that the governor admits is in force at once,
and goes to the partner of a mirrored group. -/
def Obligations.OutputCommandsComplete : Prop :=
  ∀ (h : Hdr) (c : ChanNo) (v : Int),
    WriteRuns (.arm h c) h .OUT_CMD c 0 (.num 1) (.num 1) (fun t => t.outPre c = none)
      (fun t a => (t.armReview c).1.push (grpOf c) none (.out c 1 (.host a)) (t.armReview c).2) ∧
    WriteRuns (.enable h c) h .OUT_CMD c 0 (.num 2) (.num 2) (fun t => t.outPre c = none)
      (fun t a => t.push (grpOf c) none (.out c 2 (.host a))) ∧
    WriteRuns (.outResume h c) h .OUT_CMD c 0 (.num 4) (.num 4) (fun t => t.outPre c = none)
      (fun t a => t.push (grpOf c) none (.out c 4 (.host a))) ∧
    WriteRuns (.outOff h c) h .OUT_CMD c 0 (.num 0) (.num 0) (fun _ => True)
      (fun t a =>
        if t.strobes (grpOf c) = true ∨ (t.gr (grpOf c)).powered = true ∧ (t.ch c).out ≠ .off then
          t.push (grpOf c) none (.out c 0 (.host a))
        else t.outAt c 0 (.host a)) ∧
    WriteRuns (.outMute h c) h .OUT_CMD c 0 (.num 3) (.num 3) (fun _ => True)
      (fun t a =>
        if t.strobes (grpOf c) = true ∨ (t.gr (grpOf c)).powered = true ∧ (t.ch c).out ≠ .off then
          t.push (grpOf c) none (.out c 3 (.host a))
        else t.outAt c 3 (.host a)) ∧
    WriteRuns (.boostDecl h c v) h .BOOST_DECL c 0 (.num v) (.num v)
      (fun t => t.sliceConflict .BOOST_DECL c v = false ∧ t.admits (t.wr .BOOST_DECL c 0 v) = true)
      (fun t a => ((t.boostPut c v).configOut .BOOST_DECL c 0 v).answer a .OK)

/-- LAW_HOLD opens the staging bank and, cleared, sends every value of the bank to one strobe and answers there; CTL_RUN and FILT_RUN start their engine
at a frame start and stop it at a strobe. Each value goes to the partner of a mirrored group. -/
def Obligations.LoopWritesComplete : Prop :=
  ∀ (h : Hdr) (c : ChanNo) (g : GroupNo),
    WriteRuns (.lawHoldSet h c) h .LAW_HOLD c 0 (.num 1) (.num 1) (fun _ => True)
      (fun t a => ((t.modCh c fun x => { x with bank := some (x.bank.getD []) }).wr .LAW_HOLD c 0 1).pushHost (grpOf c) a (.hold c)
        |>.configOut .LAW_HOLD c 0 1) ∧
    WriteRuns (.lawHoldCommit h c) h .LAW_HOLD c 0 (.num 0) (.num 0) (fun _ => True)
      (fun t a => match (t.ch c).bank with
        | none => (t.pushHost (grpOf c) a (.commitHold c)).configOut .LAW_HOLD c 0 0
        | some l => ((((t.modCh c fun x => { x with bank := none }).wr .LAW_HOLD c 0 0).each l fun s p =>
            s.push (grpOf c) none (.set p.1 c 0 p.2)).pushHost (grpOf c) a (.commitHold c)).configOut .LAW_HOLD c 0 0) ∧
    WriteRuns (.ctlRunStart h g) h .CTL_RUN g 0 (.num 1) (.num 1)
      (fun t => t.fenceStatus (srcCtl g) = none ∧ (t.gr g).ctl = false ∧ (t.gr g).ctlStart = none ∧ (t.gr g).filt ≠ .stopped ∧
        t.rdT .FILT_RUN g = true)
      (fun t a => ((t.wr .CTL_RUN g 0 1).modGr g fun r => { r with ctlStart := some [a] }).configOut .CTL_RUN g 0 1) ∧
    WriteRuns (.ctlRunStop h g) h .CTL_RUN g 0 (.num 0) (.num 0)
      (fun t => (∀ c ∈ chansOf g, (t.ch c).out.charged = false) ∧ (t.gr g).ctl = true)
      (fun t a => ((t.wr .CTL_RUN g 0 0).pushHost g a .ctlStop).configOut .CTL_RUN g 0 0) ∧
    WriteRuns (.filtRunStart h g) h .FILT_RUN g 0 (.num 1) (.num 1)
      (fun t => t.filtFence g = none ∧ (t.gr g).powered = true ∧ (t.gr g).filt = .stopped ∧ (t.gr g).filtStart = none)
      (fun t a => ((t.wr .FILT_RUN g 0 1).modGr g fun r => { r with filtStart := some [a] }).configOut .FILT_RUN g 0 1) ∧
    WriteRuns (.filtRunStop h g) h .FILT_RUN g 0 (.num 0) (.num 0)
      (fun t => t.rdT .CTL_RUN g = false ∧ (t.gr g).ctlStart = none ∧ (t.gr g).filt ≠ .stopped)
      (fun t a => ((t.wr .FILT_RUN g 0 0).pushHost g a .filtStop).configOut .FILT_RUN g 0 0)

/-- A range request of a host reaches the group's strobe, where it meets its checks; in a group without strobes the first check that
fails is its answer, or STATE_CONFLICT. -/
def Obligations.RangeWritesComplete : Prop :=
  ∀ (h : Hdr) (c : ChanNo) (v : Int),
    let rangeAsked (t : State) (c : ChanNo) (r : RangeReq) : State :=
      if t.strobes (grpOf c) then t.push (grpOf c) none (.range c r)
      else match t.rangeCheck c r with
        | some (st, k) => t.rangeRefuse c r st k
        | none => t.rangeRefuse c r .STATE_CONFLICT 4
    WriteRuns (.vRange h c v) h .V_RANGE c 0 (.num v) (.num v) (fun _ => True)
      (fun t a => rangeAsked t c { vr := some v.toNat, ir := none, src := .host a }) ∧
    WriteRuns (.iRange h c v) h .I_RANGE c 0 (.num v) (.num v) (fun _ => True)
      (fun t a => rangeAsked t c { vr := none, ir := some v.toNat, src := .host a }) ∧
    WriteRuns (.rangeSet h c v) h .RANGE_SET c 0 (.num v) (.num v) (fun _ => True)
      (fun t a => rangeAsked t c { vr := some (bits v.toNat 4 4), ir := some (bits v.toNat 0 4), src := .host a })

/-- The five Chanter commands reach the group's strobe, where they answer (R46, R225); in a group without strobes START answers the
first check of R226 that fails, and the other four are stored and answer OK (R47); WAVE_LEN sets the number of points at once. -/
def Obligations.ChanterWritesComplete : Prop :=
  ∀ (h : Hdr) (c : ChanNo) (n : Fin 64) (v : Int),
    WriteRuns (.chtStop h c) h .CHT_CMD c 0 (.num 0) (.num 0) (fun _ => True)
      (fun t a => if t.strobes (grpOf c) then t.push (grpOf c) none (.cht c 0 (.host a))
        else (t.push (grpOf c) none (.cht c 0 (.host none))).answer a .OK) ∧
    WriteRuns (.chtStart h c) h .CHT_CMD c 0 (.num 1) (.num 1) (fun t => t.strobes (grpOf c) = true)
      (fun t a => t.push (grpOf c) none (.cht c 1 (.host a))) ∧
    WriteRuns (.chtStart h c) h .CHT_CMD c 0 (.num 1) (.num 1) (fun t => t.strobes (grpOf c) = false)
      (fun t a => t.answer a (if t.latch = true then .SAFE_STATE else if t.standby (grpOf c) = true then .PAIR_STANDBY
        else (t.engineFence c).getD .STATE_CONFLICT)) ∧
    WriteRuns (.chtPause h c) h .CHT_CMD c 0 (.num 2) (.num 2) (fun _ => True)
      (fun t a => if t.strobes (grpOf c) then t.push (grpOf c) none (.cht c 2 (.host a))
        else (t.push (grpOf c) none (.cht c 2 (.host none))).answer a .OK) ∧
    WriteRuns (.chtResume h c) h .CHT_CMD c 0 (.num 3) (.num 3) (fun _ => True)
      (fun t a => if t.strobes (grpOf c) then t.push (grpOf c) none (.cht c 3 (.host a))
        else (t.push (grpOf c) none (.cht c 3 (.host none))).answer a .OK) ∧
    WriteRuns (.chtAdvance h c) h .CHT_CMD c 0 (.num 4) (.num 4) (fun _ => True)
      (fun t a => if t.strobes (grpOf c) then t.push (grpOf c) none (.cht c 4 (.host a))
        else (t.push (grpOf c) none (.cht c 4 (.host none))).answer a .OK) ∧
    WriteRuns (.waveLen h n v) h .WAVE_LEN n 0 (.num v) (.num v) (fun t => (t.wavePlaces n 0 v.toNat).any t.pageDead = false)
      (fun t a => (t.waveResize n v.toNat).answer a .OK)

/-- Endpoints and the ledger: EP_CONNECT claims or releases at the group's strobe, and is stored and
answers OK in a group without strobes; MTX_RESTART queues BREAK_ALL on its line, the three ledger operations set the fields that R253
names and keep the others, and LEDGER_COMMIT, 1 s after the start of the last commit, starts one that answers when it is complete: of the
lines changed as they stand, in the pages that can be written. -/
def Obligations.MatrixWritesComplete : Prop :=
  ∀ (h : Hdr) (c : ChanNo) (l : Fin 8) (ep : Fin 1048576) (v : Int),
    WriteRuns (.epConnect h c v) h .EP_CONNECT c 0 (.num v) (.num v) (fun _ => v ≠ 65535)
      (fun t a => if t.strobes (grpOf c) then t.push (grpOf c) a (.endpoint c (some v.toNat))
        else (t.push (grpOf c) none (.endpoint c (some v.toNat))).answer a .OK) ∧
    WriteRuns (.epRelease h c) h .EP_CONNECT c 0 (.num 65535) (.num 65535) (fun _ => True)
      (fun t a => if t.strobes (grpOf c) then t.push (grpOf c) a (.endpoint c none)
        else (t.push (grpOf c) none (.endpoint c none)).answer a .OK) ∧
    WriteRuns (.mtxRestart h l) h .MTX_RESTART l 0 (.num 1) (.num 1)
      (fun t => t.fenceStatus srcMtx = none ∧ t.fenceStatus (srcSp 0) = none)
      (fun t a => t.addTxn { newTxn none l t.now [(0, opBreakAll, 0), (0, opNop, 0)] with restart := true, ans := a }) ∧
    WriteRuns (.ledgerRetire h ep) h .LEDGER_CMD 0 0 (.num (ledgerWord 1 ep)) (.num (ledgerWord 1 ep))
      (fun t => t.resvBy ep = none ∧ t.mtx.partner.get (fun _ => 0) ep = 0)
      (fun t a => (t.setLedger ep (ledMake (ledRelay (t.ledgerEl ep)) (ledBias (t.ledgerEl ep)) true (bit (t.ledgerEl ep) 2) true
        (bit (t.ledgerEl ep) 0))).answer a .OK) ∧
    WriteRuns (.ledgerRestore h ep) h .LEDGER_CMD 0 0 (.num (ledgerWord 2 ep)) (.num (ledgerWord 2 ep))
      (fun t => t.resvBy ep = none ∧ t.mtx.partner.get (fun _ => 0) ep = 0)
      (fun t a => (t.setLedger ep (ledMake 0 (ledBias (t.ledgerEl ep)) false false true (bit (t.ledgerEl ep) 0))).answer a .OK) ∧
    WriteRuns (.ledgerClearBias h ep) h .LEDGER_CMD 0 0 (.num (ledgerWord 3 ep)) (.num (ledgerWord 3 ep))
      (fun t => t.resvBy ep = none ∧ t.mtx.partner.get (fun _ => 0) ep = 0)
      (fun t a => (t.setLedger ep (ledMake (ledRelay (t.ledgerEl ep)) 0 (bit (t.ledgerEl ep) 3) (bit (t.ledgerEl ep) 2)
        (bit (t.ledgerEl ep) 1) (bit (t.ledgerEl ep) 0))).answer a .OK) ∧
    WriteRuns (.ledgerCommit h) h .LEDGER_COMMIT 0 0 (.num 1) (.num 1)
      (fun t => t.mtx.committing = none ∧ (t.mtx.commitAt = 0 ∨ t.mtx.commitAt + 1000000000 ≤ t.now))
      (fun t a => t.commitStart [a])

/-- Monitors: an urgent request of an idle monitor starts one conversion of its entry and answers after it, an entry write stores, a
restart asks for the calibration of the monitor's slices, with the release of its fence where it has one, MTRGO_PULSE raises the ball, and a read of an
accumulator, or of all 32, returns and empties it where the session clears. -/
def Obligations.MonitorRequestsComplete : Prop :=
  ∀ (h : Hdr) (g : GroupNo) (e : Fin 16) (v : Int),
    WriteRuns (.monUrgent h g v) h .MON_URGENT g 0 (.num v) (.num v)
      (fun t => (t.gr g).mon.phase = .down ∧ (t.gr g).mon.waits = false ∧ t.fenceStatus (srcMon g) = none ∧ t.monAlive g = true)
      (fun t a => t.modMon g fun m =>
        { monTake (t.rdN .MON_ENTRY g v.toNat) v.toNat m with
          run := [(v.toNat, t.rdN .MON_ENTRY g v.toNat)], phase := .startup, urgent := some a }) ∧
    WriteRuns (.monEntry h g e v) h .MON_ENTRY g e (.num v) (.num v) (fun _ => True)
      (fun t a => (t.wr .MON_ENTRY g e v).answer a .OK) ∧
    WriteRuns (.monRestart h g) h .MON_RESTART g 0 (.num 1) (.num 1) (fun _ => True)
      (fun t a => { t with flt := { t.flt with release := t.flt.release ++
        [⟨if t.fencedSrc (srcMon g) then t.fencedWith (srcMon g) else [], a, some g.val⟩] } }) ∧
    WriteRuns (.mtrgoPulse h) h .MTRGO_PULSE 0 0 (.num 1) (.num 1) (fun _ => True)
      (fun t a => (if t.mtrgo.high then t else { t with mtrgo := { high := true, since := t.now } }.inc .MTRGO_COUNT).answer a .OK) ∧
    RequestRuns (.monAccA h g e) h (.read (.obj .MON_ACC_A g e))
      (fun t => t.pendBy (Change.ofSession (h.sess + 16 * (t.se h.sess).inc)) .MON_ACC_A g e = none)
      (fun t a => (if t.clears h.sess then t.accClear g e else t).answer a .OK
        (.bytes (t.accBytes g e))) ∧
    RequestRuns (.monAccB h g e) h (.read (.obj .MON_ACC_B g e))
      (fun t => t.pendBy (Change.ofSession (h.sess + 16 * (t.se h.sess).inc)) .MON_ACC_B g e = none)
      (fun t a => (if t.clears h.sess then t.accClear g (16 + e) else t).answer a .OK
        (.bytes (t.accBytes g (16 + e)))) ∧
    RequestRuns (.monSnap h g) h (.read (.obj .MON_SNAP g 0))
      (fun t => t.pendBy (Change.ofSession (h.sess + 16 * (t.se h.sess).inc)) .MON_SNAP g 0 = none)
      (fun t a => (if t.clears h.sess then t.each (List.range 32) fun s k => s.accClear g k else t).answer a .OK
        (.bytes ((List.range 32).flatMap fun k => t.accBytes g k)))

/-- Reeds and events: REED_CLEAR clears the sticky trip bits, REED_TEST starts a pass or queues one behind the running pass, EV_FIRE
asserts an enabled event channel with cause 0xF000 + session and answers, EV_LOG_CLEAR empties the event log. -/
def Obligations.ReedAndEventWritesComplete : Prop :=
  ∀ (h : Hdr) (c : ChanNo) (g : GroupNo) (n : Fin 256),
    WriteRuns (.reedClear h c) h .REED_CLEAR c 0 (.num 1) (.num 1) (fun _ => True)
      (fun t a => (t.modCh c fun x => { x with seen := 0 }).answer a .OK) ∧
    WriteRuns (.reedTest h g) h .REED_TEST g 0 (.num 1) (.num 1) (fun _ => True)
      (fun t a => (t.modGr g fun r =>
        if r.test.isSome then { r with testNext := true } else { r with test := some (0, 1), testFail := 0 }).answer a .OK) ∧
    WriteRuns (.evFire h n) h .EV_FIRE n 0 (.num 1) (.num 1) (fun t => t.evEnabled n = true)
      (fun t a => (t.assertEv n (0xF000 + h.sess)).answer a .OK) ∧
    WriteRuns (.evLogClear h) h .EV_LOG_CLEAR 0 0 (.num 1) (.num 1) (fun _ => True)
      (fun t a => ({ t with rtr := { t.rtr with log := [], lastLog := [] } } : State).answer a .OK)

/-- Calibration and faults: CAL_CMD = 1 that passes its checks starts the command, after the external check where an internal kind
names a channel in OFF or ARMED, and CAL_CMD = 2 ends it with result 4, unless the calibration engine is fenced; FLT_UNFENCE asks for a release, FLT_SAFE sets the safe latch,
FLT_LOG_CLEAR empties the fault log and its copy, and FLT_N and FLT_W empty the buckets of their source type. -/
def Obligations.FaultAndCalWritesComplete : Prop :=
  ∀ (h : Hdr) (g : GroupNo) (ty : Fin 23) (v : Int),
    WriteRuns (.calStart h g) h .CAL_CMD g 0 (.num 1) (.num 1)
      (fun t => t.calCheck g h.sess (t.secureOf h) = none ∧ (t.rd .CAL_KIND g ≠ 1 ∨
        ∀ c ∈ t.calChans g, (t.ch c).idleOut = false))
      (fun t a => (t.calRun g).answer a .OK) ∧
    WriteRuns (.calStart h g) h .CAL_CMD g 0 (.num 1) (.num 1)
      (fun t => t.calCheck g h.sess (t.secureOf h) = none ∧ t.rd .CAL_KIND g = 1 ∧
        ∃ c ∈ t.calChans g, (t.ch c).idleOut = true)
      (fun t a => t.modGr g fun r => { r with cal := { starting := some (a.getD (0, 0)) } }) ∧
    WriteRuns (.calAbort h g) h .CAL_CMD g 0 (.num 2) (.num 2) (fun _ => True)
      (fun t a => match t.fenceStatus srcCal with
        | some st => t.answer a st
        | none => (t.calEnd g 4 .STATE_CONFLICT).answer a .OK) ∧
    WriteRuns (.fltUnfence h v) h .FLT_UNFENCE 0 0 (.num v) (.num v) (fun _ => True)
      (fun t a => t.askRelease (t.fencedWith v.toNat) a) ∧
    WriteRuns (.fltSafe h) h .FLT_SAFE 0 0 (.num 1) (.num 1) (fun _ => True)
      (fun t a => (if t.latch then t else t.safeReq srcOd 0 h.sess).answer a .OK) ∧
    WriteRuns (.fltLogClear h) h .FLT_LOG_CLEAR 0 0 (.num 1) (.num 1) (fun _ => True)
      (fun t a => ({ t with flt := { t.flt with log := [] }, nvm := { t.nvm with flog := [] } } : State).answer a .OK) ∧
    WriteRuns (.fltN h ty v) h .FLT_N ty 0 (.num v) (.num v) (fun _ => True)
      (fun t a => ((t.wr .FLT_N ty 0 v).zeroBuckets ty).answer a .OK) ∧
    WriteRuns (.fltW h ty v) h .FLT_W ty 0 (.num v) (.num v) (fun _ => True)
      (fun t a => ((t.wr .FLT_W ty 0 v).zeroBuckets ty).answer a .OK)

/-- Network, time and streams: NET_MODE and NET_AN store and train the link anew, TIME_SRC selects the source, STREAM_EN starts and
stops a stream. -/
def Obligations.NetWritesComplete : Prop :=
  ∀ (h : Hdr) (n : Fin 2) (k : Fin 32) (v : Int),
    WriteRuns (.netMode h n v) h .NET_MODE n 0 (.num v) (.num v) (fun _ => True)
      (fun t a => ((t.wr .NET_MODE n 0 v).retrain n).answer a .OK) ∧
    WriteRuns (.netAn h n v) h .NET_AN n 0 (.num v) (.num v) (fun _ => True)
      (fun t a => ((t.wr .NET_AN n 0 v).retrain n).answer a .OK) ∧
    WriteRuns (.timeSrc h v) h .TIME_SRC 0 0 (.num v) (.num v) (fun _ => True)
      (fun t a => (t.setTimeSrc v).answer a .OK) ∧
    WriteRuns (.streamEnable h k) h .STREAM_EN k 0 (.num 1) (.num 1) (fun _ => True)
      (fun t a => (t.streamStart k).answer a .OK) ∧
    WriteRuns (.streamDisable h k) h .STREAM_EN k 0 (.num 0) (.num 0) (fun _ => True) (fun t a => t.streamStop k a)

/-- Serial ports: SP1_GO starts the list, or waits behind the one that runs; SP1_MB_TX appends its words where the queue has room for
all and appends nothing otherwise; a read of SP1_MB_RX returns every queued word and empties the queue; SP_RESTART asks for the
release of a fenced port; SP_CLEAR clears the sticky error bits. -/
def Obligations.SerialRequestsComplete : Prop :=
  ∀ (h : Hdr) (n : Fin 2) (v : Int) (ws : List Nat),
    WriteRuns (.sp1Go h v) h .SP1_GO 0 0 (.num v) (.num v) (fun t => t.sp1Role = none ∧ t.mbox.list = none)
      (fun t a => t.sp1Start v.toNat false a) ∧
    WriteRuns (.sp1Go h v) h .SP1_GO 0 0 (.num v) (.num v) (fun t => t.sp1Role = none ∧ t.mbox.list ≠ none)
      (fun t a => { t with mbox := { t.mbox with goWait := t.mbox.goWait ++ [(v.toNat, a)] } }) ∧
    WriteRuns (.sp1MbTx h ws) h .SP1_MB_TX 0 0 (.raw 15 (mailboxBytes ws)) (.bytes (ws.flatMap (beBytes 4)))
      (fun t => (∀ w ∈ ws, w < 2 ^ 32) ∧ t.mbox.txq.length + ws.length ≤ 64)
      (fun t a => ({ t with mbox := { t.mbox with txq := t.mbox.txq ++ ws } } : State).answer a .OK) ∧
    WriteRuns (.sp1MbTx h ws) h .SP1_MB_TX 0 0 (.raw 15 (mailboxBytes ws)) (.bytes (ws.flatMap (beBytes 4)))
      (fun t => (∀ w ∈ ws, w < 2 ^ 32) ∧ 64 < t.mbox.txq.length + ws.length)
      (fun t a => t.answer a .STATE_CONFLICT) ∧
    RequestRuns (.sp1MbRx h) h (.read (.obj .SP1_MB_RX 0 0)) 
      (fun t => t.pendBy (Change.ofSession (h.sess + 16 * (t.se h.sess).inc)) .SP1_MB_RX 0 0 = none)
      (fun t a => ({ t with mbox := { t.mbox with rxq := [] } } : State).answer a .OK
        (.bytes (t.mbox.rxq.flatMap fun w => beBytes 4 w))) ∧
    WriteRuns (.spRestart h n) h .SP_RESTART n 0 (.num 1) (.num 1) (fun t => t.fencedSrc (srcSp n) = true)
      (fun t a => t.askRelease (t.fencedWith (srcSp n)) a) ∧
    WriteRuns (.spClear h n) h .SP_CLEAR n 0 (.num 1) (.num 1) (fun _ => True)
      (fun t a => (t.modSp n fun p => { p with mmFault := false, strobeErr := false }).answer a .OK)

/-- The pair: PAIR_EN starts the search for a partner and dissolves the pair, and PAIR_HANDOVER of an active group whose partner stands
by, with no Slide, calibration or handover in progress, announces strobe h at least 20 µs on. -/
def Obligations.PairWritesComplete : Prop :=
  ∀ (h : Hdr) (g : GroupNo),
    WriteRuns (.pairEnable h) h .PAIR_EN 0 0 (.num 1) (.num 1) (fun t => t.rdT .PAIR_EN = false)
      (fun t a => ({ ((t.wr .PAIR_EN 0 0 1).wr .PAIR_STATE 0 0 1).wr .PAIR_LANES 0 0 12 with
        pair := { lastCell := t.now, lastWitness := t.now } } : State).answer a .OK) ∧
    WriteRuns (.pairDissolve h) h .PAIR_EN 0 0 (.num 0) (.num 0) (fun t => t.rdT .PAIR_EN = true)
      (fun t a => ((((t.wr .PAIR_EN 0 0 0).dissolve).wr .PAIR_STATE 0 0 0).wr .PAIR_LANES 0 0 0).answer a .OK) ∧
    WriteRuns (.pairHandover h g) h .PAIR_HANDOVER g 0 (.num 1) (.num 1)
      (fun t => t.role g = 2 ∧ (t.gr g).pair.partner = 4 ∧
        (∀ c ∈ chansOf g, (t.ch c).slide.phase = .idle ∧ (t.ch c).slide.pend = none) ∧ (t.gr g).cal.phase = 0 ∧
        (t.gr g).cal.starting = none ∧ (t.gr g).hand = 0 ∧
        (t.gr g).pair.give = none ∧ t.strobes g = true)
      (fun t a => (t.modGr g fun r =>
        { r with pair := { r.pair with give := some (t.strobesFor g 20), acked := false, asked := t.now, ans := a } }).sendCell
          (.handover g ((t.gr g).ticks + t.strobesFor g 20 * t.tickUs g)))

/-- Power: SYS_RESET asks for a reset 1 ms on, GROUP_PWR powers a stopped group down and a powered-down one up, and PWR_CMD = 2 in RUN
or IDLE with no pair role starts the entry into deep sleep. -/
def Obligations.PowerWritesComplete : Prop :=
  ∀ (h : Hdr) (g : GroupNo),
    WriteRuns (.sysReset h) h .SYS_RESET 0 0 (.num 1) (.num 1) (fun _ => True)
      (fun t a => ({ t with pwr := { t.pwr with resetAt := some (t.now + 1000000) } } : State).answer a .OK) ∧
    WriteRuns (.groupPowerDown h g) h .GROUP_PWR g 0 (.num 0) (.num 0)
      (fun t => t.rdT .CTL_RUN g = false ∧ t.rdT .FILT_RUN g = false ∧ (t.gr g).ctl = false ∧ (t.gr g).filt = .stopped ∧
        (t.gr g).powered = true)
      (fun t a => ((t.groupOff g).configOut .GROUP_PWR g 0 0).answer a .OK) ∧
    WriteRuns (.groupPowerUp h g) h .GROUP_PWR g 0 (.num 1) (.num 1) (fun t => (t.gr g).powered = false)
      (fun t a => ((((t.each (chansOf g) fun s c => s.modCh c fun x => { x with freshV := true, freshI := true }).wr .GROUP_PWR g 0 1).modGr g
        fun r => { r with powered := true, pwrAns := a }).runState).configOut .GROUP_PWR g 0 1) ∧
    WriteRuns (.pwrCmd h) h .PWR_CMD 0 0 (.num 2) (.num 2)
      (fun t => t.latch = false ∧ (∀ k ∈ allGroups, t.rd .PAIR_ROLE k = 0) ∧ (t.rd .PWR_STATE = 1 ∨ t.rd .PWR_STATE = 2))
      (fun t a =>
        let u : State := { t.wr .PWR_STATE 0 0 3 with pwr := { t.pwr with entry := 1, ans := a, wake := none } }
        let u := u.each allGroups fun s k => s.calEnd k 9 .STATE_CONFLICT
        u.each (u.chan.map (·.1)) fun s c =>
          if (s.ch c).out.live && s.rdT .SLEEP_HOLD c then s.push (grpOf c) none (.mute c 1)
          else if (s.ch c).out.charged then s.push (grpOf c) none (.out c 0 (.host none))
          else s)

/-- A write of RTC_SET while the PTP servo is LOCKED answers STATE_CONFLICT and changes nothing; otherwise it sets the calendar and
RTC_VALID, steps the TBP counter to the written time, and answers OK. -/
def Obligations.RtcSetRule : Prop :=
  ∀ (h : Hdr) (v : Int),
    WriteRuns (.rtcSet h v) h .RTC_SET 0 0 (.num v) (.num v) (fun t => t.rd .PTP_STATE = 3) (fun t a => t.answer a .STATE_CONFLICT) ∧
    WriteRuns (.rtcSet h v) h .RTC_SET 0 0 (.num v) (.num v) (fun t => t.rd .PTP_STATE ≠ 3)
      (fun t a => (({ t with clk := { t.clk with rtc := (nsOf v.toNat : Int) - t.clk.up }
                             nvm := { t.nvm with rtcValid := true } } : State).stepTime ((t.clk.up : Int) + t.clk.tbp - nsOf v.toNat)).answer a .OK) ∧
    (∀ t u : State, u = { t with clk := { t.clk with rtc := (nsOf v.toNat : Int) - t.clk.up }, nvm := { t.nvm with rtcValid := true } } →
      (t.clk.up : Int) + u.clk.rtc = nsOf v.toNat ∧ (u.stepTime ((t.clk.up : Int) + t.clk.tbp - nsOf v.toNat)).tbp = nsOf v.toNat)

/-! ### Events -/

/-- Timing. A frame start advances the frame counter and the frame stamp, by 32 µs while TBP is lost, and each group does what waits for
it. A tick delivers a group's samples. Staging closes: what has arrived is frozen for the strobe, and every slot whose result missed is
held as it was. The strobe applies what is frozen. -/
def Obligations.TickEventsComplete : Prop :=
  ∀ (g : GroupNo) (slots : List SlotIn) (pace : Nat) (miss : Bool) (missed : List Nat),
    Runs .frameStart (fun s => s.framesRun = true)
      (fun s => { s with clk := { s.clk with frames := s.clk.frames + 1
                                             stamp := if s.tb tbP = 2 ∧ ¬ s.fencedSrc srcPtp then (s.tbp : Int) else s.clk.stamp + 32000
                                             stampWas := s.clk.stamp } }.each allGroups
        fun u k => u.groupFrame k (32 * s.clk.frames)) ∧
    Runs (.groupTick g slots pace miss) (fun s => s.framesRun = true ∧ s.strobes g = true) (fun s => s.tick g slots pace miss) ∧
    Runs (.stagingClose g []) (fun s => s.framesRun = true ∧ s.strobes g = true)
      (fun s => s.modGr g fun r => { r with frozen := r.frozen ++ r.arrived, arrived := [], opened := false }) ∧
    Runs (.stagingClose g missed) (fun s => s.framesRun = true ∧ s.strobes g = true) (fun s => s.staging g missed) ∧
    Runs (.loadStrobe g) (fun s => s.framesRun = true ∧ s.strobes g = true) (fun s => s.strobe g)

/-- Clocks. The first window that finds a running timebase off only warns; the second in a row declares it lost, reports CLOCK and has the
effects of its loss, of REFCLK's loss with it where both NET timebases are lost; a good window of a lost timebase brings it back. A TBA
stop sets the safe latch and asserts nSAFE without the collector's intake, and its cause waits until TBA runs again. A TBA frequency off
limits is reported while TBC runs. A TBA tick takes 1 µs from every bucket, judges the Reeds and safe ramps of the groups without
strobes, and in deep sleep samples the Reeds at every REED_SLEEP_DIV-th tick; the first one after a stop enters the cause in the log. -/
def Obligations.ClockEventsComplete : Prop :=
  ∀ (tb : Fin 25) (f : ClkState) (edges : Nat) (reeds : List ReedIn) (g : GroupNo) (n : Nat),
    Runs (.clockMonitorWindow tb f) (fun s => tb.val ≠ tbA ∧ f ≠ .good ∧ s.tb tb = 2 ∧ bit s.clk.tbWarn tb = false)
      (fun s => { s with clk := { s.clk with tbWarn := setBit s.clk.tbWarn tb true } }) ∧
    Runs (.clockMonitorWindow tb f) (fun s => tb.val ≠ tbA ∧ f ≠ .good ∧ s.tb tb = 2 ∧ bit s.clk.tbWarn tb = true)
      (fun s => (({ s with clk := { s.clk with tbWarn := setBit s.clk.tbWarn tb false } }.setTb tb 4).report (srcTb tb) 0x01 0
        (clkDetail f) .severe).tbLost tb
        |> fun t => if t.refGone = true ∧ t.clk.refAt = none then t.refLost else t) ∧
    Runs (.clockMonitorWindow tb .good) (fun s => tb.val ≠ tbA ∧ s.tb tb = 4)
      (fun s => { s with clk := { s.clk with tbWarn := setBit s.clk.tbWarn tb false } }.tbBack tb) ∧
    (∀ s : State, s.latch = false → ∃ t, exec .tbaStopDetect s = .next t ∧ t.latch = true ∧ t.nSafe = true ∧
      t.stopCause = some (logElement ⟨⟨srcTb tbA, 0x01, 0, 0, .grave⟩, .grave, s.stampNow⟩ 0 1)) ∧
    Runs .tbaStopDetect (fun s => s.latch = true) (fun s => { s.setTb tbA 4 with
      stopCause := some (logElement ⟨⟨srcTb tbA, 0x01, 0, 0, .grave⟩, .grave, s.stampNow⟩ 0 1) }) ∧
    Runs (.tbaFreqCheck edges) (fun s => s.tb tbC ≠ 4 ∧ 100000 * edges < 87890625)
      (fun s => s.report (srcTb tbA) 0x01 0 2 .grave) ∧
    Runs (.tbaFreqCheck edges) (fun s => s.tb tbC ≠ 4 ∧ 107421875 < 100000 * edges)
      (fun s => s.report (srcTb tbA) 0x01 0 1 .grave) ∧
    Runs (.tbaTick reeds) (fun s => s.tb tbA ≠ 4 ∧ s.clk.refAt = none ∧ s.pwr.asleep = false ∧
        ∀ g ∈ allGroups, (s.gr g).powered = false ∨ s.tb g = 2 ∨ s.pwr.stage ≠ 5) (fun s => s.leak) ∧
    Runs (.tbaTick reeds) (fun s => s.tb tbA ≠ 4 ∧ s.clk.refAt = none ∧ s.pwr.asleep = false ∧
        ∀ k ∈ allGroups, ((s.gr k).powered = true ∧ s.tb k ≠ 2 ∧ s.pwr.stage = 5) ↔ k = g.val)
      (fun s => (s.leak.tbaGroup g).reedAll (reeds.filter fun r => grpOf r.ch = g.val)) ∧
    Runs (.tbaTick reeds) (fun s => s.tb tbA = 4 ∧ s.stopCause = some n ∧ s.cause = none ∧ s.clk.refAt = none ∧ s.pwr.asleep = false ∧
        ∀ g ∈ allGroups, (s.gr g).powered = false ∨ s.pwr.stage ≠ 5)
      (fun s => ({ s.setTb tbA 2 with cause := some n, stopCause := none }.faultLog n).leak) ∧
    Runs (.tbaTick reeds) (fun s => s.tb tbA ≠ 4 ∧ s.clk.refAt = none ∧ s.pwr.asleep = true ∧
        s.pwr.sleepTicks + 1 < s.rdN .REED_SLEEP_DIV)
      (fun s => { s.leak with pwr := { s.pwr with sleepTicks := s.pwr.sleepTicks + 1 } }) ∧
    Runs (.tbaTick reeds) (fun s => s.tb tbA ≠ 4 ∧ s.clk.refAt = none ∧ s.pwr.asleep = true ∧
        s.rdN .REED_SLEEP_DIV ≤ s.pwr.sleepTicks + 1)
      (fun s => { s.leak with pwr := { s.pwr with sleepTicks := 0 } }.reedAll reeds)

/-- Output ramps. TRANSIT of an ARM clears with the DAC at the preset, unless its slot missed the tick, and its requests answer OK; the
OFF ramp ends in OFF and answers; the SAFE ramp
ends isolated; once the analogue rails lie inside 9 V, every SAFE ramp has ended. -/
def Obligations.RampEventsComplete : Prop :=
  ∀ (c : ChanNo) (d : Nat),
    Runs (.armTransitEnd c)
      (fun s => (s.ch c).out = .armed ∧ (s.ch c).transit = true ∧ (s.ch c).armFrom = none ∧ s.strobes (grpOf c) = true)
      (fun s => (s.modCh c fun h => { h with transit := false, dac := if h.held then h.dac else s.preset c, armAns := [] }).answers (s.ch c).armAns .OK) ∧
    Runs (.offRampEnd c) (fun s => s.rampOver c = true)
      (fun s => (((s.setOut c .off false (s.ch c).offCause).switches c).modCh c fun h =>
        { h with offAns := [], rampEnd := none, run := { h.run with ramp := none, sel := 3, declHit := false } }).replies (s.ch c).offAns .OK) ∧
    Runs (.safeRampEnd c) (fun s => (s.ch c).out = .safe ∧ (s.ch c).transit = true ∧ (s.ch c).rampEnd = some d ∧ d ≤ s.now)
      (fun s => ((s.modCh c fun h => { h with transit := false, rampEnd := none }).switches c).safeIsolated) ∧
    Runs .analogueRailsInside9V (fun _ => True)
      (fun s => (s.each ((s.chan.filter fun p => p.2.out == .safe && p.2.transit).map (·.1)) fun s c =>
        (s.modCh c fun h => { h with transit := false, rampEnd := none }).switches c).safeIsolated)

/-- Ranges. A prepared Slide makes, and its load runs in the law of that tick; a broken one completes with the range in force, answers, and
leaves the Slide idle; where a second Slide was to follow and the channel has left the loop, it is cancelled with reason 4; an auto-range
step reaches the group in the next tick. -/
def Obligations.RangeEventsComplete : Prop :=
  ∀ (c : ChanNo) (r : RangeReq) (up : Bool) (n : Nat),
    Runs (.slidePrepEnd c) (fun s => (s.ch c).slide.phase = .prep 0 ∧ (s.ch c).slide.req = some r ∧ (s.ch c).evaluated = true)
      (fun s => (s.slideMake c r).lawPass c) ∧
    Runs (.slideComplete c)
      (fun s => (s.ch c).slide.phase = .broken 0 ∧ (s.ch c).slide.leg2 = none ∧ (s.ch c).slide.req = some r)
      (fun s => ((s.inc .SLIDE_COUNT c).modCh c fun h =>
        { h with bg := if internalI ((s.inc .SLIDE_COUNT c).rdN .I_RANGE c) then .off else h.bg
                 slide := { h.slide with phase := .idle, req := none, leg2 := none } }).rangeReply r .OK) ∧
    Runs (.slideComplete c)
      (fun s => (s.ch c).slide.phase = .broken 0 ∧ (s.ch c).slide.leg2 = some n ∧ (s.ch c).slide.req = some r ∧
        (s.ch c).out.loop = false)
      (fun s => ((s.inc .SLIDE_COUNT c).modCh c fun h =>
        { h with bg := if internalI ((s.inc .SLIDE_COUNT c).rdN .I_RANGE c) then .off else h.bg
                 slide := { h.slide with phase := .idle, req := none, leg2 := none } }).rangeCancel c r .RANGE_REFUSED 4) ∧
    Runs (.autoRangeStep c)
      (fun s => (s.ch c).aper.arAsk = some up ∧
        (s.modAper c fun a => { a with arUp := 0, arDn := 0, arAsk := none }).arNext c (s.limCur c) up = some n)
      (fun s => (s.modAper c fun a => { a with arUp := 0, arDn := 0, arAsk := none }).modGr (grpOf c) fun x =>
        { x with later := x.later ++ [{ ans := none, what := .range c (
          { vr := if s.limCur c then none else some n, ir := if s.limCur c then some n else none, src := .auto } : RangeReq) }] })

/-- Measurement. An overload takes its modulator's substitute and is counted; an aperture closes after APERTURE_N samples; a window's
aggregates close; a record older than REC_FLUSH closes its block; a filter engine that has filled starts at a strobe; sequence numbers
are reserved 2^32 ahead of the present one where the pages of the reservations can be written, and stored once they are written. -/
def Obligations.MeasurementEventsComplete : Prop :=
  ∀ (g : GroupNo) (c : ChanNo) (slot n : Nat) (cur : Bool) (what : Overload) (r : BRec),
    Runs (.modulatorOverload g slot cur what) (fun _ => slot < 33)
      (fun s =>
        let t := s.modSl (srcSlice g slot) fun x =>
          if cur then { x with fi := x.fi.overload (s.gridNow g slot).2 (s.gridNow g slot).1 what }
          else { x with fv := x.fv.overload (s.gridNow g slot).2 (s.gridNow g slot).1 what }
        if what = .returned then t else t.inc .OVERLOADS g) ∧
    Runs (.apertureClose c) (fun s => (s.gr (grpOf c)).filt = .running ∧ s.pwr.asleep = false)
      (fun s => s.fullAper c ((s.ch c).aper.endN.getD (s.rdN .APERTURE_N c))) ∧
    Runs (.aggWindowClose g) (fun s => (s.gr g).filt = .running) (fun s => s.aggClose g) ∧
    Runs (.recFlushExpiry c) (fun s => (s.ch c).aper.block.getLast? = some r ∧ r.made + s.rdN .REC_FLUSH * 1000 ≤ s.now)
      (fun s => s.closeBlock c) ∧
    Runs (.filtFillDone g) (fun s => (s.gr g).filt = .filling ∧ 2 ≤ (s.gr g).fill) (fun s => s.push g none .filtRun) ∧
    Runs (.reservationWrite c)
      (fun s => s.reserved c < s.rdN .REC_NEXT c + 2 ^ 31 ∧ (s.ch c).aper.rsvAsked = none ∧ (recPages 0).any s.pageDead = false)
      (fun s => (s.modAper c fun a => { a with rsvAsked := some (s.rdN .REC_NEXT c + 2 ^ 32) }).nvmPut (recPages 0)) ∧
    Runs (.reservationConfirm c) (fun s => (s.ch c).aper.rsvAsked = some n ∧ ∀ p ∈ recPages 0, s.pageDead p = false ∧ s.drn.writes.contains p = false)
      (fun s => { s with nvm := { s.nvm with rsv := s.nvm.rsv.put (fun _ => 0) c n } }.modAper c fun a => { a with rsvAsked := none })

/-- Chanters. A due unit begins with its entry fetched or its next step; a begun unit with its trigger applies at a strobe; a settled unit
enters its dwell, and the partner of a mirrored group hears of it; a unit whose dwell is over ends at a strobe; a waveform point goes to the strobe. -/
def Obligations.ChanterEventsComplete : Prop :=
  ∀ (c : ChanNo) (bad : Bool) (ue : Option (Fin 4)) (a : Nat),
    Runs (.unitBegin c bad) (fun s => s.standby (grpOf c) = false ∧ (s.ch c).cht.due = some (some a)) (fun s => s.fetchUnit c a bad) ∧
    Runs (.unitBegin c bad) (fun s => s.standby (grpOf c) = false ∧ (s.ch c).cht.due = some none)
      (fun s => s.unitStart c { (s.ch c).cht.cur with k := (s.ch c).cht.cur.k + 1 }) ∧
    Runs (.unitApply ⟨c, ue⟩) (fun s => s.unitDue c = true ∧ s.standby (grpOf c) = false)
      (fun s => s.push (grpOf c) none (.unit c (ue.map (·.val)))) ∧
    Runs (.unitSettle c)
      (fun s => (s.ch c).cht.live = true ∧ (s.ch c).cht.st = .settle ∧ s.settled c = true ∧ s.standby (grpOf c) = false)
      (fun s => ((s.unitAper c (s.ch c).cht.cur).modCht c fun t =>
        { t with st := .dwell, count := if eKind t.cur.entry.toNat = 3 then t.wtick else 0 }).chtTick c true
        |>.mirrorOut (grpOf c)) ∧
    Runs (.unitEnd c) (fun s => s.endDue c = true ∧ s.standby (grpOf c) = false) (fun s => s.push (grpOf c) none (.unitEnd c)) ∧
    Runs (.wavePoint c ue) (fun s => s.waveNext c = true ∧ s.standby (grpOf c) = false)
      (fun s => s.push (grpOf c) none (.wave c (ue.map (·.val))))

/-- Matrices. The claim at the head of the queue is answered; a free port grants the transaction chosen with the settings of its select as
they stand, loads the ledger lines of its makes and sends its first word, with role 1 it first waits for the bus; an echo is judged; a
settled break frees its endpoint, and lets the make of a change across select lines go out; a settled connection answers; the ledger
commits when its 60 s are over, and a commit whose pages are all written copies the logs and answers. -/
def Obligations.MatrixEventsComplete : Prop :=
  ∀ (c : ChanNo) (l us p q k : Nat) (rest : List ClaimReq) (a : Ans) (ws : List (Nat × Ans)) (t : Txn) (w : BitVec 32) (first : Bool)
      (x : Nat × Option Nat),
    Runs (.claimAnswer c) (fun s => s.mtx.claims = ⟨us, c.val, false⟩ :: rest ∧ (s.ch c).hold.want = (l, a) :: ws)
      (fun s => (({ s with mtx := { s.mtx with claims := rest } }.inc .EP_CLAIMS c).modHold c fun h => { h with want := ws }).claimHost
        c l a) ∧
    Runs (.claimAnswer c)
      (fun s => s.mtx.claims = ⟨us, c.val, true⟩ :: rest ∧ (s.ch c).cht.begun = true ∧ (s.ch c).cht.nu.claim = .asked)
      (fun s => (({ s with mtx := { s.mtx with claims := rest } }.inc .EP_CLAIMS c).claimUnit c)) ∧
    Runs .matrixGrant
      (fun s => s.commitDemand = s ∧ s.mtx.cur = none ∧ s.sp0.on = true ∧ s.sp0.role ≠ 1 ∧ s.chooseTxn = some t ∧
        (s.lineFenced t.line = false ∨ t.restart = true) ∧ s.fencedSrc srcMtx = false ∧ s.fencedSrc (srcSp 0) = false ∧
        (s.now - t.since) / 1000 ≤ s.rdN .SP0_WAIT_MAX)
      (fun s =>
        let u : State := { s with mtx := { s.mtx with
          waiting := s.mtx.waiting.erase t, cur := some t, start := s.now, sent := [], again := [], await := none, collisions := 0
          first := true, waited := s.now - t.since, cfg := s.rdN .SEL_CFG t.line, lead := s.rdN .SEL_LEAD t.line, lag := s.rdN .SEL_LAG t.line } }
        let u := (u.modSp 0 fun y => { y with busBusy := false }).each (t.words.filter fun w => w.2.1 = opMake) fun u w => u.loadLine w.1
        (u.modSp 0 fun y => { y with mastering := true }).transfer t u.mtx.wordNs) ∧
    Runs .matrixGrant (fun s => s.mtx.committing = none ∧ (s.mtx.waiting.all s.ready) = false ∧ s.mtx.cur = some t)
      (fun s => s.commitStart []) ∧
    Runs .matrixGrant
      (fun s => s.commitDemand = s ∧ s.mtx.cur = none ∧ s.sp0.on = true ∧ s.sp0.role = 1 ∧ s.chooseTxn = some t ∧
        s.fencedSrc (srcSp 0) = false)
      (fun s => s.modSp 0 fun y => { y with busBusy := true }) ∧
    Runs (.matrixWordEcho w ⟨true, first⟩)
      (fun s => s.mtx.cur = some t ∧ s.mtx.await = some w ∧ s.mtx.first = false ∧ wOp w ≠ opNop)
      (fun s =>
        let u := (((s.inc .SEL_WORDS t.line).inc .SP_WORDS 0).transfer t 0).confirm w
        match u.mtx.cur, u.mtx.await with
        | some t', some w' => if wOp w' = opNop ∧ u.mtx.again.isEmpty ∧ t'.words.isEmpty then u.txnDone t' else u
        | _, _ => u) ∧
    Runs (.breakSettled c)
      (fun s => (s.ch c).hold.old.find? s.breakDue = some x ∧ (s.ch c).hold.ep ≠ some x.1 ∧ (s.ch c).hold.coming = none ∧
        ((s.ch c).hold.old.erase x).any (fun y => y.1 = x.1) = false ∧ (s.ch c).cht.granted x.1 = false)
      (fun s => ((s.modHold c fun h => { h with old := h.old.erase x }).setResv x.1 none).holdAnswer c) ∧
    Runs (.breakSettled c)
      (fun s => (s.ch c).hold.old = [x] ∧ s.breakDue x = true ∧ (s.ch c).hold.ep = none ∧ (s.ch c).hold.coming = some q ∧ x.1 ≠ q ∧
        (s.ch c).cht.granted x.1 = false)
      (fun s =>
        let u := (s.modHold c fun h => { h with old := [] }).setResv x.1 none
        (u.modHold c fun h => { h with ep := some q }).addTxn (newTxn (some c.val) (u.lineOf q) u.now [(q, opMake, 0), (0, opNop, 0)])) ∧
    Runs (.connectionSettled c)
      (fun s => (s.ch c).hold.ep = some p ∧ (s.ch c).hold.coming = some p ∧ (s.ch c).hold.makeFrom = some k ∧
        s.txnOf c = false ∧ k + s.rdN .MTX_SETTLE (s.lineOf p) * 100 ≤ s.now)
      (fun s => (s.modHold c fun h => { h with coming := none, makeFrom := none }).holdAnswer c) ∧
    Runs .ledgerCommitPeriodic
      (fun s => s.droneUp = true ∧ s.mtx.committing = none ∧ s.mtx.commitNext = [] ∧ s.drn.dueLed ≤ s.now)
      (fun s =>
        let u := if s.drn.dueLed + 5000000000 < s.now then s.inc .DRN_LATE_LEDGER else s
        { u with drn := { u.drn with dueLed := u.drn.dueLed + 60000000000 } }.commitStart []) ∧
    Runs .ledgerCommitPeriodic
      (fun s => s.droneUp = true ∧ s.mtx.committing = none ∧ s.mtx.commitNext ≠ [] ∧ s.mtx.commitAt + 1000000000 ≤ s.now)
      (fun s => { s with mtx := { s.mtx with commitNext := [] } }.commitStart s.mtx.commitNext) ∧
    Runs .ledgerCommitDone (fun s => s.mtx.committing = some [] ∧ s.mtx.commitMore = false)
      (fun s => ((({ s with mtx := { s.mtx with committing := none, commitAns := [], commitMore := false } } : State).copyLogs.wr
        .LEDGER_LAST 0 0 s.stampNow).answers s.mtx.commitAns .OK)) ∧
    Runs .ledgerCommitDone (fun s => s.mtx.committing = some [] ∧ s.mtx.commitMore = true)
      (fun s => (((({ s with mtx := { s.mtx with committing := none, commitAns := [], commitMore := false } } : State).copyLogs.wr
        .LEDGER_LAST 0 0 s.stampNow).answers s.mtx.commitAns .OK)).commitStart [])

/-- Monitors. A trigger edge starts the sequence of every monitor that takes it; start-up gives way to the first slot, a slot to the
decision of the slices that took its conversions, and a decision enters the accumulators; a spare converter slice out of its limits is
reported, as SEVERE where it is the second, and stops the rotation of its converter; MTRGO rises at its period and falls after 1 µs. -/
def Obligations.MonitorEventsComplete : Prop :=
  ∀ (g : GroupNo) (b : Fin 4) (rise : Bool) (x y : Nat × Nat) (l : List (Nat × Nat)) (d : Deciding) (ds : List Deciding)
      (u v off ppm : Int) (m : Nat),
    Runs (.mtrgEdge b rise) (fun _ => True)
      (fun s => s.each allGroups fun s k =>
        if bits (s.rdN .MON_TRIG k) 0 2 = b.val ∧ bit (s.rdN .MON_TRIG k) (if rise then 2 else 3) then s.monTrigger k else s) ∧
    Runs (.monStartupEnd g) (fun s => (s.gr g).mon.phase = .startup ∧ (s.gr g).mon.run = x :: l)
      (fun s => s.modMon g fun m => m.slotBegin) ∧
    Runs (.monSlotEnd g) (fun s => (s.gr g).mon.phase = .slot ∧ (s.gr g).mon.run = x :: y :: l)
      (fun s => s.modMon g fun m =>
        let a := if bit x.2 63 = true then nextSlice m.lastA m.spareA m.failA else m.lastA
        let b := if bit x.2 62 = true then nextSlice m.lastB m.spareB m.failB else m.lastB
        Mon.slotBegin { m with
          deciding := m.deciding ++ [{ e := x.1, v := x.2, slA := a, slB := b }]
          lastA := a, lastB := b, run := y :: l, pulls := [] }) ∧
    Runs (.monSlotEnd g) (fun s => (s.gr g).mon.phase = .slot ∧ (s.gr g).mon.run = [x])
      (fun s => s.modMon g fun m =>
        let a := if bit x.2 63 = true then nextSlice m.lastA m.spareA m.failA else m.lastA
        let b := if bit x.2 62 = true then nextSlice m.lastB m.spareB m.failB else m.lastB
        { m with deciding := m.deciding ++ [{ e := x.1, v := x.2, slA := a, slB := b }]
                 lastA := a, lastB := b, run := [], pulls := [], phase := .deciding }) ∧
    Runs (.monDecisionDone g u v) (fun s => (s.gr g).mon.deciding = d :: ds) (fun s => s.monDecided g d.e d.v u v) ∧
    Runs (.monSpareSwap g false off ppm)
      (fun s => s.monRotates g = true ∧ (s.gr g).mon.spareA < 7 ∧ off.natAbs ≤ 256 ∧ ppm.natAbs ≤ 20000)
      (fun s => s.modMon g fun m =>
        { m with spareA := ((s.gr g).mon.spareA + 1) % 5, agedA := setBit m.agedA (s.gr g).mon.spareA false }) ∧
    Runs (.monSpareSwap g true off ppm)
      (fun s => s.monRotates g = true ∧ (s.gr g).mon.spareB < 7 ∧ 256 < off.natAbs)
      (fun s => (s.modMon g fun m => { m with failB := setBit (s.gr g).mon.failB (s.gr g).mon.spareB true, spareB := 7 }).report
        (srcMon g) 0x29 0 (16 + (s.gr g).mon.spareB)
        (if 2 ≤ popcount5 (setBit (s.gr g).mon.failB (s.gr g).mon.spareB true) then .severe else .note)) ∧
    Runs (.mtrgoPeriodic m)
      (fun s => s.rd .MTRGO_MODE = 1 ∧ ((m : Int) - s.rd .MTRGO_PHASE) % s.rd .MTRGO_PERIOD = 0 ∧ s.pwr.asleep = false)
      (fun s => if s.mtrgo.high then s else { s with mtrgo := { high := true, since := s.now } }.inc .MTRGO_COUNT) ∧
    Runs .mtrgoPulseEnd (fun s => s.mtrgo.high = true ∧ s.mtrgo.since + 1000 ≤ s.now)
      (fun s => { s with mtrgo := { s.mtrgo with high := false } })

/-- Reeds and the router. A Reed latch takes the group's inputs in channel order, voltage before current; self-tests run by their period
and by test ticks; an edge on an EVI ball sets its level and reaches the event channels that select it; a pulse ends. -/
def Obligations.ReedAndRouterEventsComplete : Prop :=
  ∀ (g : GroupNo) (reeds : List ReedIn) (v i : TestOut) (b : Fin 16) (rise : Bool) (p k : Nat),
    Runs (.reedSample g reeds) (fun s => s.strobes g = true ∧ s.pwr.asleep = false)
      (fun s => s.each (reeds.filter fun r => grpOf r.ch = g.val) fun s r => (s.reedTake r.ch false r.v).reedTake r.ch true r.i) ∧
    Runs .reedTestPeriodic
      (fun s => s.rd .REED_TEST_PERIOD ≠ 0 ∧ s.droneUp = true ∧ s.drn.reedAt + s.rdN .REED_TEST_PERIOD * 1000000000 ≤ s.now)
      (fun s =>
        { s with drn := { s.drn with reedAt := s.lastDue s.drn.reedAt (s.rdN .REED_TEST_PERIOD * 1000000000) } }.each allGroups
          fun s g => s.testStart g) ∧
    Runs (.reedTestTick g v i)
      (fun s => (s.gr g).test = some (p, k) ∧ k < 4 ∧ s.fencedSrc (srcSlice g p) = false ∧ s.testDeferred g p = false)
      (fun s => ((s.testOne g p k false v).testOne g p k true i).modGr g fun r => { r with test := some (p, k + 1) }) ∧
    Runs (.eviEdge b rise) (fun s => s.pairOn = false)
      (fun s => { s with rtr := { s.rtr with evi := setBit s.rtr.evi b rise } }.edge (selector 5 b (b2n !rise))) ∧
    Runs (.evoPulseEnd b) (fun s => bit s.rtr.pulses b = true ∧ s.rtr.evoEnd.get (fun _ => 0) b ≤ s.now)
      (fun s => { s with rtr := { s.rtr with pulses := setBit s.rtr.pulses b false } })

/-- Calibration. The check of a start answers OK and starts, or answers CAL_EXT_ACTIVE; a point mean joins the points of its element, the
standard closes onto the channel and the next point settles anew; a verified write
of the store, its pages written, waits for the commit strobe, a failed one ends the command with result 11; temperatures enter the sums, above 105 °C
with a report, and each thermal update empties them. -/
def Obligations.CalibrationEventsComplete : Prop :=
  ∀ (g : GroupNo) (means : List (Nat × Int × Int)) (a : Nat × Nat) (x y : Int) (k r : Nat)
    (ps rs : List Nat) (temp : Int),
    Runs (.calExtCheck g means) (fun s => (s.gr g).cal.starting = some a ∧ means = []) (fun s => (s.calRun g).answer (some a) .OK) ∧
    Runs (.calExtCheck g ((k, x, y) :: means))
      (fun s => (s.gr g).cal.starting = some a ∧ (s.ch (32 * g + k)).idleOut = true ∧
        (s.calChans g).contains (32 * g + k) = true ∧ s.extActive (32 * g + k) x y = true)
      (fun s => (s.modGr g fun r => { r with cal := {} }).answer (some a) .CAL_EXT_ACTIVE) ∧
    Runs (.calPointDone g x)
      (fun s => (s.gr g).cal.phase = 1 ∧ (s.gr g).cal.todo = k :: ps ∧ (s.gr g).cal.ranges = r :: rs ∧ k < 32 ∧
        (s.ch (32 * g + k)).calMeas = true ∧ (s.gr g).hand = 0 ∧
        (s.gr g).cal.points.length + 1 < calPointCount (s.rdN .CAL_KIND g) r (s.ch (32 * g + k)).calHold)
      (fun s => ((s.capBegin (32 * g + k)).closeStd (32 * g + k) (s.rdN .CAL_KIND g)).modGr g fun q =>
        { q with cal := { q.cal with points := x :: (s.gr g).cal.points } }) ∧
    Runs (.calNvmWriteDone g false) (fun s => (s.gr g).cal.phase = 2 ∧ s.drn.writes.any (·.1 = 13) = false)
      (fun s => { s with nvm := { s.nvm with calBad := setBit s.nvm.calBad (1 - s.nvm.calActive) true } }.calEnd g 11 .NVM_FAULT) ∧
    Runs (.calNvmWriteDone g true) (fun s => (s.gr g).cal.phase = 2 ∧ s.drn.writes.any (·.1 = 13) = false ∧ s.bankDead 13 = false)
      (fun s =>
        let n := (s.nvm.calCommits + s.calOwed + 1) % 65536
        let fresh := (s.gr g).cal.fresh.map fun p => (p.1, { p.2 with commit := n })
        ((s.calActivate (calWith s.cal (s.calWaiting ++ fresh))).modGr g fun r =>
          { r with cal := { r.cal with phase := 3, fresh := fresh } }).push g none .calCommit) ∧
    Runs (.sliceTempRead [(k, temp)]) (fun _ => temp ≤ 105 * 128)
      (fun s => s.modSl k fun y =>
        { y with temp := temp, tempSum := y.tempSum + temp, tempN := y.tempN + 1, capSum := y.capSum + temp, capN := y.capN + 1 }) ∧
    Runs (.sliceTempRead [(k, temp)]) (fun s => 105 * 128 < temp ∧ temp ≤ 120 * 128 ∧ (s.sl k).temp ≤ 105 * 128)
      (fun s => (s.modSl k fun y =>
        { y with temp := temp, tempSum := y.tempSum + temp, tempN := y.tempN + 1, capSum := y.capSum + temp, capN := y.capN + 1 }).report srcSup 0x39
        (k / 33) (temp / 128).toNat .note) ∧
    Runs .calThermalUpdate (fun _ => True)
      (fun s =>
        let t := s.each allChans fun s c => s.thermal c
        { t with slice := t.slice.map fun p => (p.1, { p.2 with tempSum := 0, tempN := 0 }) })

/-- Faults. An accepted message is classified, counted, logged and acted on; a fence of a slice reaches its group; the blank of a takeover
ends; the logger writes the oldest report and takes in what the intake had no room for; a disagreement of the collector's copies enters the safe state and is logged directly; an
error line in fault waits for its coded message and is reported without one; a release that passes clears its fences and answers OK, one
that fails answers FENCED. -/
def Obligations.FaultEventsComplete : Prop :=
  ∀ (m : FaultMsg) (us src n : Nat) (rest : List (Nat × Nat)) (c : ChanNo) (x : Queued) (q : List Queued) (k : Fin 26) (lasting : Bool)
    (l : List Nat) (a : Ans) (rel : List Release) (fa fb : Fin 32),
    Runs (.faultReport (some m)) (fun s => (srcType m.source).isSome = true ∧ knownKind m.kind = true ∧ s.mustWait m = false)
      (fun s => s.takeReport m) ∧
    Runs (.faultReport (some m)) (fun s => (srcType m.source).isSome = true ∧ knownKind m.kind = true ∧ s.mustWait m = true)
      (fun s => { s with flt := { s.flt with inbox := s.flt.inbox ++ [m] } }) ∧
    Runs .fenceArrival (fun s => s.flt.arriving = (us, src) :: rest ∧ src < 528)
      (fun s => { s with flt := { s.flt with arriving := rest } }.push (src / 33) none (.sliceFence (src % 33) us)) ∧
    Runs (.takeoverBlankEnd c) (fun s => (s.ch c).taking = true ∧ (s.ch c).blank = 0)
      (fun s => s.modCh c fun h =>
        { h with taking := false
                 aper := { h.aper with gapKept := true, hush := if 8 ≤ s.tickUs (grpOf c) then 4 else 0 } }) ∧
    Runs .faultLogDrain (fun s => s.flt.queue = x :: q)
      (fun s => { s with flt := { s.flt with queue := (drainRuns q s.flt.runs).1, runs := (drainRuns q s.flt.runs).2 } }.each
        ((match x.ahead with | some r => r.elements | none => []) ++ [x]) fun s y => s.faultLog (logElement y.r y.coal y.count)) ∧
    (∀ s : State, s.latch = false → ∃ t, exec (.collectorVote (some n)) s = .next t ∧ t.latch = true ∧ t.nSafe = true) ∧
    Runs (.errorLineChange k 2 lasting)
      (fun s => (s.flt.lineMsg.get (fun _ => 0) k = 0 ∨ s.flt.lineMsg.get (fun _ => 0) k - 1 + 10000 < s.now) ∧
        s.flt.lineWait.contains k.val = false)
      (fun s => { s with flt := { s.flt with lines := s.flt.lines.put (fun _ => 1) k 2, lineWait := s.flt.lineWait ++ [k.val] } }) ∧
    Runs (.lineErrWindowExpiry k) (fun s => s.flt.lineWait.contains k.val = true)
      (fun s => { s with flt := { s.flt with lineWait := s.flt.lineWait.filter (· ≠ k.val) } }.report (srcCluster k) 0x05 0 0) ∧
    Runs (.unfenceSelftestDone ⟨true, fa, fb⟩) (fun s => s.flt.release = ⟨l, a, none⟩ :: rel)
      (fun s => ({ s with flt := { s.flt with release := rel } }.each l fun s k => (s.clearFence k).afterRelease k).answer a .OK) ∧
    Runs (.unfenceSelftestDone ⟨false, fa, fb⟩) (fun s => s.flt.release = ⟨l, a, none⟩ :: rel)
      (fun s => { s with flt := { s.flt with release := rel } }.answer a .FENCED)

/-- Links and addresses. A link comes up, with DHCP a DISCOVER leaves, and goes down; DHCP asks for what it was offered, takes its lease and
keeps it, and starts again without one, each message of an exchange with the identifier of its DISCOVER; ARP requests for the own address are answered, entries leave the cache after 300 s and requests
repeat after 1 s; an ICMP echo is answered. -/
def Obligations.LinkEventsComplete : Prop :=
  ∀ (n : Fin 2) (ip mask router lease mac target xid : Nat) (data : List Byte),
    Runs (.linkUp n)
      (fun s => s.rd .NET_MODE n ≠ 0 ∧ (s.port n).link = false ∧ s.pwr.asleep = false ∧ bit s.pwr.lost 5 = false ∧ s.tb (17 + n) ≠ 4 ∧ s.rd .NET_ADDR_MODE n ≠ 1)
      (fun s => ((((s.modPort n fun x => { x with link := true }).holdFrom n).gratuitous n).portGained n).ptpMoved s.ptpPort) ∧
    Runs (.linkUp n)
      (fun s => s.rd .NET_MODE n ≠ 0 ∧ (s.port n).link = false ∧ s.pwr.asleep = false ∧ bit s.pwr.lost 5 = false ∧ s.tb (17 + n) ≠ 4 ∧ s.rd .NET_ADDR_MODE n = 1)
      (fun s => (((((s.modPort n fun x => { x with link := true }).holdFrom n).dhcpStart n).gratuitous n).portGained n).ptpMoved s.ptpPort) ∧
    Runs (.linkDown n true) (fun s => (s.port n).link = true) (fun s => s.report (srcNet n) 0x30 0 1) ∧
    Runs (.linkDown n false) (fun s => (s.port n).link = true)
      (fun s => (((((s.modPort n fun x => { x with link := false, asking := [] }).holdFrom n).portLost n).report (srcNet n) 0x30 0
        0).ptpMoved s.ptpPort)) ∧
    Runs (.dhcpMessage n ⟨xid, mac, .offer ip target⟩)
      (fun s => s.rd .NET_ADDR_MODE n = 1 ∧ s.portUsable n = true ∧ (s.port n).xid = xid ∧ (s.port n).dhcp = .selecting)
      (fun s => (s.modPort n fun x => { x with dhcp := .requesting, server := target, serverMac := mac, offered := ip }).dhcpSend n 3
        ip) ∧
    Runs (.dhcpMessage n ⟨xid, mac, .ack ip mask router lease none none⟩)
      (fun s => s.rd .NET_ADDR_MODE n = 1 ∧ s.portUsable n = true ∧ (s.port n).xid = xid ∧ (s.port n).dhcp = .requesting)
      (fun s => (s.modPort n fun x =>
        { x with dhcp := .bound, leaseAt := s.now, lease := lease, tries := 0, serverMac := mac, t1 := lease / 2
                 t2 := 7 * lease / 8 }).setAddr n ip mask router) ∧
    Runs (.dhcpMessage n ⟨xid, mac, .nak⟩)
      (fun s => s.rd .NET_ADDR_MODE n = 1 ∧ s.portUsable n = true ∧ (s.port n).xid = xid ∧ (s.port n).dhcp = .renewing)
      (fun s => (s.setAddr n 0 0 0).dhcpStart n) ∧
    Runs (.dhcpDiscoverRetry n)
      (fun s => ((s.port n).dhcp = .selecting ∨ (s.port n).dhcp = .requesting) ∧ (s.port n).sent + dhcpWait (s.port n).tries ≤ s.now)
      (fun s => (s.modPort n fun x => { x with dhcp := .selecting, tries := x.tries + 1 }).dhcpSend n 1 0) ∧
    Runs (.dhcpRenew n) (fun s => (s.port n).dhcp = .bound ∧ s.leasePast n (s.port n).t1 = true)
      (fun s => (s.modPort n fun x => { x with dhcp := .renewing }).dhcpSend n 3 0 true) ∧
    Runs (.dhcpRebind n)
      (fun s => ((s.port n).dhcp = .bound ∨ (s.port n).dhcp = .renewing) ∧ s.leasePast n (s.port n).t2 = true)
      (fun s => (s.modPort n fun x => { x with dhcp := .rebinding }).dhcpSend n 3 0) ∧
    Runs (.dhcpLeaseExpiry n)
      (fun s => s.rd .NET_ADDR_MODE n = 1 ∧ (s.port n).lease ≠ 0 ∧ s.leasePast n (s.port n).lease = true)
      (fun s =>
        let u := (s.modPort n fun x => { x with lease := 0 }).setAddr n 0 0 0
        if (u.port n).link = true then u.dhcpStart n else u) ∧
    Runs (.arpRequest n ip mac target) (fun s => s.rdN .NET_IP n ≠ 0 ∧ target = s.rdN .NET_IP n)
      (fun s => (s.arpLearn n ip mac).sendArp n frArpReply mac 2 mac ip) ∧
    Runs (.arpCacheExpiry n ip) (fun s => ∀ k ∈ List.range 32, s.rd .STREAM_STATE k = 0)
      (fun s => s.modPort n fun x => { x with arp := x.arp.filter fun e => !(e.1 == ip && decide (e.2.2 + 300000000000 ≤ s.now)) }) ∧
    Runs (.arpRetry n ip) (fun s => ((s.port n).asking.any fun e => e.1 == ip && decide (e.2 + 1000000000 ≤ s.now)) = true)
      (fun s => (s.modPort n fun x => { x with asking := x.asking.filter fun e => e.1 ≠ ip }).arpAsk n ip) ∧
    Runs (.icmpEcho n ip mac data) (fun s => s.rd .NET_IP n ≠ 0)
      (fun s => s.sendFrame n frIcmp (s.ether n mac 0x0800 (ipv4 1 (s.rdN .NET_IP n) ip
        ([0#8, 0#8] ++ beBytes 2 (checksum ([0#8, 0#8, 0#8, 0#8] ++ data)) ++ data))))

/-- Time and streams. The answer to a delay request sets PTP_MEAN_DELAY to half the difference of the two ways, a delay request leaves from
the selected port when its interval is over, a message that uses an option outside the table is discarded, a silent LOCKED servo enters
HOLDOVER; a PPSIN edge is stamped, steers the servo where it is the source of time, and reaches the event channels; PPSOUT rises on the
second and falls after its width; a moved stream returns after 1 s, a resolved address starts it, and a port that is up sends its next
packet, whose unreadable blocks are discarded. -/
def Obligations.TimeAndStreamEventsComplete : Prop :=
  ∀ (n : Fin 2) (d mac h q id seq : Nat) (k : Fin 32) (bad : List Nat) (x c log : Int) (msg : PtpMsg),
    Runs (.ptpMessage n ⟨2, h, false, .delayResp id seq true d c log⟩)
      (fun s => h = s.rdN .PTP_DOMAIN ∧ s.fencedSrc srcPtp = false ∧ s.pwr.asleep = false ∧ s.ptpCarries n = true ∧
        s.rd .TIME_SRC = 0 ∧ s.ptpPort = n.val ∧ s.rd .PTP_DELAY ≠ 1 ∧ s.ptpSource = some id ∧ s.clk.syncDiff = some x ∧
        s.clk.reqAt = some (seq, q))
      (fun s => { s with clk := { s.clk with reqExp := (clampI 0 7 (log + 4)).toNat, reqAt := none, pdelay := none } }.wr .PTP_MEAN_DELAY 0 0
        (clampI 0 4294967295 (roundEven (x + ((d : Int) - q) * 65536 - c) 131072))) ∧
    Runs (.ptpMessage n ⟨2, h, true, msg⟩) (fun _ => True) (fun s => s) ∧
    Runs .ptpDelayReqSend
      (fun s => s.rd .TIME_SRC = 0 ∧ s.ptpSource.isSome = true ∧ s.fencedSrc srcPtp = false ∧ s.ptpCarries s.ptpPort = true ∧
        s.clk.reqNext ≤ s.now)
      (fun s => { s with clk := { s.clk with
          ptpSeq := (s.clk.ptpSeq + 1) % 65536, reqAt := some (s.clk.ptpSeq, s.tbp), pdelay := none
          reqNext := s.now + 62500000 * 2 ^ s.clk.reqExp } }.sendFrame s.ptpPort frPtp
        (s.ptpFrame s.ptpPort (if s.rd .PTP_DELAY = 1 then ptpPdelayReq else ptpDelayReq) s.clk.ptpSeq
          (beBytes (if s.rd .PTP_DELAY = 1 then 20 else 10) 0))) ∧
    Runs .ptpTimeout (fun s => s.rd .PTP_STATE = 3 ∧ s.clk.lastSync + s.rdN .PTP_TIMEOUT * 1000000 ≤ s.now)
      (fun s => (s.ptpSelect.servoTo 4).ptpMoved s.ptpPort) ∧
    Runs .ppsinEdge (fun s => s.pwr.asleep = false ∧ s.rd .TIME_SRC ≠ 1)
      (fun s => (s.wr .PPSIN_LAST 0 0 s.stampNow).edge (selector 8 0 0)) ∧
    Runs .ppsinEdge (fun s => s.pwr.asleep = false ∧ s.rd .TIME_SRC = 1)
      (fun s =>
        let u := s.wr .PPSIN_LAST 0 0 s.stampNow
        ({ u with clk := { u.clk with ppsNext := none } }.servo ((s.tbp : Int) - (s.ppsSecond * 1000000000 : Nat))).edge
          (selector 8 0 0)) ∧
    Runs .ppsoutPulse (fun s => s.rdT .PPSOUT_EN = true ∧ s.pwr.asleep = false ∧ s.clk.ppsOut = false ∧ s.ppsDue = true)
      (fun s => { s with clk := { s.clk with ppsOut := true, ppsEnd := s.now + s.ppsWidth * 1000 } }.edge (selector 8 0 1)) ∧
    Runs .ppsoutPulseEnd (fun s => s.clk.ppsOut = true ∧ s.clk.ppsEnd ≤ s.now)
      (fun s => { s with clk := { s.clk with ppsOut := false } }) ∧
    Runs (.streamPortReturn k)
      (fun s => (s.st k).movedTo = some q ∧ (s.port (1 - q)).goodFrom = some h ∧ h + 1000000000 ≤ s.now ∧ s.portUp (1 - q) = true)
      (fun s => (s.moveStream k (1 - q)).streamAsk k) ∧
    Runs (.streamArpResolved k n mac) (fun s => s.rd .STREAM_STATE k ≠ 0)
      (fun s => (s.arpLearn n (s.nextHop n k) mac).streamTry k) ∧
    Runs (.streamPacketSend n bad) (fun s => s.portUp n = true ∧ s.nextPacket n = some (false, h)) (fun s => s.sendAggs h n) ∧
    Runs (.streamPacketSend n []) (fun s => s.portUp n = true ∧ s.nextPacket n = some (true, h) ∧ 0 < (s.packetBlocks h n).length)
      (fun s => s.sendRecords h n) ∧
    Runs (.streamPacketSend n [0])
      (fun s => s.portUp n = true ∧ s.nextPacket n = some (true, h) ∧ (s.packetBlocks h n).length = 1)
      (fun s => s.each (s.packetBlocks h n) fun s b => s.discardBlock h b)

/-- Serial ports. An idle bus starts the waiting transaction, or grants one; a collision is flagged, counted and reported, and restarts SP0's
transaction; as a slave, SP1 answers a select with the head of the transmit queue or the busy pattern, receives the word, and drops a
partial one; a poll that finds a list running is counted; a list ends with its replies, with result 2 where RSTB_EN of its select is set and
a strobe was missing. -/
def Obligations.SerialEventsComplete : Prop :=
  ∀ (line : Fin 8) (replies ws : List Nat) (sel w r m : Nat) (q : List Nat) (a : Ans) (t : Txn),
    Runs (.spBusIdle 0)
      (fun s => s.mtx.cur = some t ∧ s.sp0.busBusy = true ∧ s.sp0.mastering = false ∧
        (s.mtx.waited + (s.now - s.mtx.start)) / 1000 ≤ s.rdN .SP0_WAIT_MAX)
      (fun s => ({ s with mtx := { s.mtx with start := s.now, waited := s.mtx.waited + (s.now - s.mtx.start) } }.modSp 0 fun x =>
        { x with busBusy := false, mastering := true }).transfer t s.mtx.wordNs) ∧
    Runs (.spBusIdle 0) (fun s => s.mtx.cur = none ∧ s.sp0.busBusy = true ∧ s.sp0.on = true)
      (fun s => (s.modSp 0 fun x => { x with busBusy := false }).mtxTake) ∧
    Runs (.spBusIdle 1)
      (fun s => s.sp1.busBusy = true ∧ s.sp1.slave = false ∧ s.mbox.list = some (sel, ws, a) ∧ s.listOk sel = true)
      (fun s =>
        let l := blobWords (s.rdV .SP1_TX).blob
        let u := s.modSp 1 fun x => { x with busBusy := false }
        ({ u with mbox := { u.mbox with list := some (sel, l, a), sel := sel, cfg := s.rdN .SEL_CFG (8 + sel) } }.send (.sp1 sel l)).modSp 1
          fun x => { x with mastering := true }) ∧
    Runs (.spCollision 0 line replies) (fun s => s.sp0.mastering = true)
      (fun s => (((s.modSp 0 fun x => { x with mmFault := true }).inc .SP_COLLISIONS 0).report (srcSp 0) 0x32 0 line
        .transient).mtxCollide (!replies.isEmpty)) ∧
    Runs (.spCollision 1 line replies) (fun s => s.sp1.mastering = true)
      (fun s => (((s.modSp 1 fun x => { x with mmFault := true }).inc .SP_COLLISIONS 1).report (srcSp 1) 0x32 0 line .transient).sp1End
        1 replies) ∧
    Runs .slaveSelectAssert
      (fun s => s.rd .SP1_SLAVE_SEL ≠ 0xFF ∧ s.sp1.role ≠ 0 ∧ s.fencedSrc (srcSp 1) = false ∧ s.sp1.mastering = false ∧
        s.sp1.on = true ∧ s.mbox.txq = w :: q)
      (fun s => { s with sp1 := { s.sp1 with slave := true }
                         mbox := { s.mbox with sel := s.rdN .SP1_SLAVE_SEL, cfg := s.rdN .SEL_CFG (8 + s.rdN .SP1_SLAVE_SEL)
                                               reply := some (w % 2 ^ s.sp1Wlen (s.rdN .SP1_SLAVE_SEL)), fromQueue := true } }) ∧
    Runs .slaveSelectAssert
      (fun s => s.rd .SP1_SLAVE_SEL ≠ 0xFF ∧ s.sp1.role ≠ 0 ∧ s.fencedSrc (srcSp 1) = false ∧ s.sp1.mastering = false ∧
        s.sp1.on = true ∧ s.mbox.txq = [])
      (fun s => { s with sp1 := { s.sp1 with slave := true }
                         mbox := { s.mbox with sel := s.rdN .SP1_SLAVE_SEL, cfg := s.rdN .SEL_CFG (8 + s.rdN .SP1_SLAVE_SEL)
                                               reply := some (busyPattern (s.sp1Wlen (s.rdN .SP1_SLAVE_SEL))), fromQueue := false } }) ∧
    Runs (.slaveWordComplete w) (fun s => s.mbox.reply = some r ∧ s.mbox.rxq.length < 64)
      (fun s => ((({ s with mbox := { s.mbox with
            txq := if s.mbox.fromQueue then s.mbox.txq.drop 1 else s.mbox.txq, reply := none, fromQueue := false
            rxq := s.mbox.rxq ++ [w % 2 ^ bits s.mbox.cfg 8 6] } }.send (.spBack r)).slaveEnd.inc .SP_WORDS 1).inc .SEL_WORDS
          (8 + s.mbox.sel))) ∧
    Runs (.slaveWordComplete w) (fun s => s.mbox.reply = some r ∧ 64 ≤ s.mbox.rxq.length)
      (fun s => (((({ s with mbox := { s.mbox with
            txq := if s.mbox.fromQueue then s.mbox.txq.drop 1 else s.mbox.txq, reply := none, fromQueue := false } }.send
          (.spBack r)).slaveEnd.inc .SP1_MB_OVF).inc .SP_WORDS 1).inc .SEL_WORDS (8 + s.mbox.sel))) ∧
    Runs .slavePartial (fun s => s.mbox.reply = some r)
      (fun s => ({ s with mbox := { s.mbox with reply := none, fromQueue := false } }.slaveEnd).inc .SP_PARTIAL 1) ∧
    Runs (.sp1Poll m)
      (fun s => s.rd .SP1_POLL ≠ 0 ∧ (m : Int) % s.rd .SP1_POLL = 0 ∧ s.sp1Role = none ∧ s.sp1.on = true ∧
        s.pwr.entry < 2 ∧ s.mbox.list = none ∧ s.listOk (s.rdN .SP1_POLL_SEL) = true)
      (fun s => s.sp1Start (s.rdN .SP1_POLL_SEL) true none) ∧
    Runs (.sp1Poll m)
      (fun s => s.rd .SP1_POLL ≠ 0 ∧ (m : Int) % s.rd .SP1_POLL = 0 ∧ s.sp1Role = none ∧ s.sp1.on = true ∧
        s.pwr.entry < 2 ∧ s.mbox.list.isSome = true)
      (fun s => s.inc .SP1_POLL_SKIPS) ∧
    Runs (.sp1ListEnd replies true) (fun s => s.mbox.list = some (sel, ws, a) ∧ s.sp1.mastering = true ∧ bit s.mbox.cfg 3 = false)
      (fun s => s.sp1End 0 replies) ∧
    Runs (.sp1ListEnd replies false) (fun s => s.mbox.list = some (sel, ws, a) ∧ s.sp1.mastering = true) (fun s => s.sp1End 0 replies) ∧
    Runs (.sp1ListEnd replies true) (fun s => s.mbox.list = some (sel, ws, a) ∧ s.sp1.mastering = true ∧ bit s.mbox.cfg 3 = true)
      (fun s => (((s.modSp 1 fun x => { x with strobeErr := true }).inc .SP_STROBE_ERRS 1).report (srcSp 1) 0x32 0 sel .transient).sp1End
        2 replies)

/-- Pair cells. Forming sets PAIR_STATE by the first check that fails, else forms the pair; a heartbeat within the skew limit renews the
link and the roles; in a linked pair state and configuration cells are mirrored; FAIL and GROUP_FAIL trigger the takeover; a HANDOVER cell is
acknowledged, and an ACK remembered. -/
def Obligations.PairCellEventsComplete : Prop :=
  ∀ (p : Partner) (lane n left : Nat) (g : GroupNo) (ms : List (Nat × MirrorState)) (cs : List MirrorConfig) (b : Beat) (ln : Fin 4),
    Runs (.pairForm p)
      (fun s => s.pairOn = true ∧ bits (s.rdN .PAIR_LANES) 0 2 ≠ 0 ∧ (s.rd .PAIR_STATE = 1 ∨ 5 ≤ s.rd .PAIR_STATE) ∧ s.formCheck p = some n)
      (fun s => s.wr .PAIR_STATE 0 0 n) ∧
    Runs (.pairForm p)
      (fun s => s.pairOn = true ∧ bits (s.rdN .PAIR_LANES) 0 2 ≠ 0 ∧ (s.rd .PAIR_STATE = 1 ∨ 5 ≤ s.rd .PAIR_STATE) ∧ s.formCheck p = none)
      (fun s => s.form p) ∧
    Runs (.heartbeat b) (fun s => s.pairOn = true) (fun s => s.beat b) ∧
    Runs (.stateCell lane ms) (fun s => s.pairOn = true ∧ s.rd .PAIR_STATE = 2)
      (fun s => (s.cellIn lane).each ms fun s x => s.mirrorIn x) ∧
    Runs (.configCell lane cs) (fun s => s.pairOn = true ∧ s.rd .PAIR_STATE = 2)
      (fun s => (s.cellIn lane).each cs fun s m => s.mirrorConfig m) ∧
    Runs (.failCell lane) (fun s => s.pairOn = true) (fun s => (s.cellIn lane).each allGroups fun s g => s.trigger g) ∧
    Runs (.groupFailCell lane g) (fun s => s.pairOn = true) (fun s => (s.cellIn lane).trigger g) ∧
    Runs (.handoverCell lane g left) (fun s => s.pairOn = true ∧ (s.cellIn lane).role g = 4 ∧ left ≠ 0)
      (fun s => ((s.cellIn lane).modGr g fun r => { r with pair := { r.pair with take := some left } }).sendCell (.ack g)) ∧
    Runs (.ackCell lane g) (fun s => s.pairOn = true)
      (fun s => (s.cellIn lane).modGr g fun r => { r with pair := { r.pair with acked := r.pair.acked || r.pair.give.isSome } }) ∧
    Runs (.pairCellDiscard ln) (fun s => s.pairOn = true ∧ ln.val < 2) (fun s => s.inc .PAIR_CELL_ERRS)

/-- Pair timeouts. A handover without an ACK after 10 µs ends and answers FENCED; a silent lane goes down and is reported; loss of the
heartbeat is link loss without a witness, and with a silent witness the partner is dead; the witness ball toggles every 2 µs. -/
def Obligations.PairTimeoutsComplete : Prop :=
  ∀ (g : GroupNo) (n m : Nat) (ln : Fin 4),
    Runs (.handoverAckTimeout g)
      (fun s => (s.gr g).pair.give = some n ∧ (s.gr g).pair.acked = false ∧ (s.gr g).pair.asked + 10000 ≤ s.now)
      (fun s => (s.modGr g fun r => { r with pair := { r.pair with give := none, acked := false, ans := none } }).answer
        (s.gr g).pair.ans .FENCED) ∧
    Runs (.laneDown ln)
      (fun s => s.pairOn = true ∧ bit (s.rdN .PAIR_LANES) ln = true ∧
        (2 ≤ ln.val ∨ (if ln.val = 0 then s.pair.lane0 else s.pair.lane1) + 2000 ≤ s.now))
      (fun s => (s.wr .PAIR_LANES 0 0 (setBit (s.rdN .PAIR_LANES) ln false)).report srcPair 0x33 0 ln .transient) ∧
    Runs .heartbeatLoss
      (fun s => s.pairOn = true ∧ s.rd .PAIR_STATE = 2 ∧ s.pair.hbLost = false ∧ s.pair.lastCell + s.hbTime ≤ s.now ∧
        s.witnessed = false)
      (fun s => { s with pair := { s.pair with hbLost := true } }.linkLost) ∧
    Runs .witnessSilent
      (fun s => s.pairOn = true ∧ s.witnessed = true ∧ s.pair.witSilent = false ∧ s.pair.lastWitness + s.hbTime ≤ s.now ∧
        s.pair.hbLost = true ∧ s.rd .PAIR_STATE = 2)
      (fun s => { s with pair := { s.pair with witSilent := true } }.partnerDead) ∧
    Runs (.witnessToggle m) (fun s => s.pairOn = true ∧ s.rdN .PAIR_WIT_EVO < 16 ∧ m % 2 = 0)
      (fun s => { s with rtr := { s.rtr with
        evo := setBit s.rtr.evo (s.rdN .PAIR_WIT_EVO) (!bit s.rtr.evo (s.rdN .PAIR_WIT_EVO)) } })

/-- Drone. An activity that is due and finds its resource free starts, and counts as late behind its tolerance; else it waits. A scrub slice takes what it
finds and counts passes; changed log pages are queued for NVM; a telemetry frame enters the ring once a TAI second; a line test counts, and
reports the wire that fails of a line without a fault; a page flush, 1 ms after the last of its page and behind the reservations, writes its
page and takes it from the buffer; a finished bank copy has written the reserve's 256 pages and puts it in use; the calendar is realigned
and its trim stored while PTP is LOCKED. -/
def Obligations.DroneEventsComplete : Prop :=
  ∀ (fs : List ScrubFind) (free : Bool) (m : Measured) (b page : Nat) (ppb : Int),
    Runs (.sramScrubSlice fs true) (fun s => s.droneUp = true ∧ s.drn.dueSram ≤ s.now)
      (fun s =>
        let t := (if s.drn.dueSram + 1000000 < s.now then s.inc .DRN_LATE_SRAM else s).each fs fun s f => s.sramFind f
        let v : State := { t with drn := { t.drn with
          sram := t.drn.sram + 1, sramFrom := if t.drn.sram = 0 then t.now else t.drn.sramFrom, dueSram := t.drn.dueSram + 1000000 } }
        if t.drn.sram + 1 < 10000 then v
        else ({ v with drn := { v.drn with sram := 0 } }.inc .SCRUB_SRAM_PASSES).wr .SCRUB_SRAM_LAST 0 0
          (satN 32 ((t.now - v.drn.sramFrom) / 1000000))) ∧
    (∀ i : Instr, (i = .sramScrubSlice fs free ∨ i = .nvmScrubSlice fs free ∨ i = .logCopy free) →
      Runs i (fun s => free = false ∨ s.now < s.drn.dueSram ∧ s.now < s.drn.dueNvm ∧ s.now < s.drn.dueLog) (fun s => s)) ∧
    Runs (.nvmScrubSlice [] true) (fun s => s.droneUp = true ∧ s.drn.dueNvm ≤ s.now ∧ s.drn.nvm + 1 < 2592000)
      (fun s =>
        let t := if s.drn.dueNvm + 1000000000 < s.now then s.inc .DRN_LATE_NVM else s
        { t with drn := { t.drn with nvm := s.drn.nvm + 1, dueNvm := t.drn.dueNvm + 1000000000 } }.wr .SCRUB_NVM_POS 0 0
          ((s.drn.nvm + 1) * 2097152 / 2592000)) ∧
    Runs (.logCopy true) (fun s => s.droneUp = true ∧ s.drn.dueLog ≤ s.now)
      (fun s =>
        let t := if s.drn.dueLog + 500000000 < s.now then s.inc .DRN_LATE_LOG else s
        { t with drn := { t.drn with dueLog := t.drn.dueLog + 500000000 } }.copyLogs) ∧
    Runs (.telemetryFrame m true) (fun s => s.droneUp = true ∧ s.tbp / 1000000000 ≠ s.drn.tlmSec)
      (fun s =>
        let t := if 500000000 < s.tbp % 1000000000 then s.inc .DRN_LATE_TLM else s
        { t with pwr := { t.pwr with meas := m }, drn := { t.drn with tlmSec := t.tbp / 1000000000 } }.telemetry (t.rdN .PWR_STATE)) ∧
    Runs (.telemetryFrame m free) (fun s => s.droneUp = true ∧ s.tbp / 1000000000 = s.drn.tlmSec) (fun s => s) ∧
    Runs (.lineTest []) (fun s => s.droneUp = true ∧ s.drn.lineAt + s.rdN .LINE_TEST_PERIOD * 1000000000 ≤ s.now)
      (fun s =>
        { s with drn := { s.drn with lineAt := s.lastDue s.drn.lineAt (s.rdN .LINE_TEST_PERIOD * 1000000000) } }.inc .LINE_TESTS) ∧
    Runs (.lineTest [(b, page)])
      (fun s => s.droneUp = true ∧ s.drn.lineAt + s.rdN .LINE_TEST_PERIOD * 1000000000 ≤ s.now ∧ b < 26 ∧
        s.flt.lines.get (fun _ => 1) b = 1)
      (fun s =>
        ({ s with drn := { s.drn with lineAt := s.lastDue s.drn.lineAt (s.rdN .LINE_TEST_PERIOD * 1000000000) } }.report
          (srcCluster b) 0x04 0 (page % 4)).inc .LINE_TESTS) ∧
    Runs (.nvmPageFlush b page true)
      (fun s => s.pwr.asleep = false ∧ b < 16 ∧ page < 256 ∧ s.pageFree (b, page) = true ∧
        ((recPages 0).contains (b, page) = true ∨ (recPages 0).any s.pageFree = false))
      (fun s =>
        { s.placeWrite (b, page) with
          drn := { s.drn with pageAt := s.drn.pageAt.put (fun _ => 0) (b * 256 + page) (s.now + 1) } }.pageDone (b, page)) ∧
    Runs .bankCopyDone (fun s => s.drn.copying = some b ∧ s.pwr.asleep = false)
      (fun s =>
        let t := s.each ((s.nvm.moved.filter fun x => x.2 ≤ 256 ∨ x.1 / 256 = b).map (·.1)) fun s k => s.leaveReserve k b
        let t := t.each (List.range 256) fun s l => s.pageWrite 15 l
        { t with drn := { t.drn with copying := none } }.wr .NVM_RESERVE_USE 0 0 b) ∧
    Runs .rtcRealign (fun s => s.rd .PTP_STATE = 3 ∧ s.droneUp = true ∧ s.tb 23 ≠ 4)
      (fun s => { s with clk := { s.clk with rtc := s.clk.tbp }, nvm := { s.nvm with rtcValid := true } }.wr .RTC_LAST_SYNC 0 0
        s.stampNow) ∧
    Runs (.rtcTrimStore ppb) (fun s => s.rd .PTP_STATE = 3 ∧ s.droneUp = true ∧ s.clk.trimAt + 3600000000000 ≤ s.now)
      (fun s => { s with nvm := { s.nvm with rtcTrim := clampI (-500000) 500000 ppb }, clk := { s.clk with trimAt := s.now } }.nvmPut
        (recPages 3))

/-- Boot and supplies. Each stage of the boot ends in the next, the last in RUN; a missing REFCLK is reported after 100 ms; a lost rail is
remembered and reported; the return of rails that had carried a running device restarts it. -/
def Obligations.BootEventsComplete : Prop :=
  ∀ (b : BootIn) (i : Fin 8) (d : Nat) (g : GroupNo),
    Runs (.bootStageComplete b) (fun s => s.pwr.stage = 0 ∧ bits s.pwr.lost 0 7 = 0)
      (fun s => ({ (s.wr .BOOT_PINS 0 0 (b.bootPins % 4 : Nat)).each (List.range 25) fun s t => s.setTb t 1 with
        pwr := { s.pwr with stage := 1, bootFrom := s.now } } : State)) ∧
    Runs (.bootStageComplete b) (fun s => s.pwr.stage = 1)
      (fun s => ({ s.each (rangeFrom 16 9) fun s t => s.setTb t 2 with pwr := { s.pwr with stage := 2 } } : State)) ∧
    Runs (.bootStageComplete b) (fun s => s.pwr.stage = 2 ∧ b.failedSlices = [] ∧ b.testOk = true)
      (fun s => { s with pwr := { s.pwr with stage := 3 } }) ∧
    Runs (.bootStageComplete b) (fun s => s.pwr.stage = 3) (fun s => s.bootStage3) ∧
    Runs (.bootStageComplete b) (fun s => s.pwr.stage = 4) (fun s => s.bootStage4) ∧
    Runs .bootRefclkTimeout (fun s => s.pwr.stage = 1 ∧ s.pwr.bootFrom + 100000000 ≤ s.now)
      (fun s => s.report (srcTb 0) 0x01 0 0 .severe) ∧
    Runs (.supplyLoss i) (fun s => bit s.pwr.lost i = false ∧ i.val < 5 ∧ s.pwr.stage ≠ 0)
      (fun s => { s with pwr := { s.pwr with lost := setBit s.pwr.lost i true } }.report srcSup 0x38 0 i .grave) ∧
    Runs (.supplyLoss i) (fun s => bit s.pwr.lost i = false ∧ i.val = 6)
      (fun s => { s with pwr := { s.pwr with lost := setBit s.pwr.lost i true } }.restart 0) ∧
    Runs .supplyReturn (fun s => s.pwr.stage ≠ 0 ∧ bits s.pwr.lost 0 5 ≠ 0)
      (fun s => { s with pwr := { s.pwr with lost := 0 } }.restart 3) ∧
    Runs .supplyReturn (fun s => (s.pwr.stage = 0 ∨ bits s.pwr.lost 0 5 = 0) ∧ s.rdT .PAIR_EN = false)
      (fun s => { s with pwr := { s.pwr with lost := 0 } }) ∧
    Runs .supplyReturn (fun s => (s.pwr.stage = 0 ∨ bits s.pwr.lost 0 5 = 0) ∧ s.rdT .PAIR_EN = true)
      (fun s => { s with pwr := { s.pwr with lost := 0 } }.wr .PAIR_LANES 0 0 (s.rdN .PAIR_LANES ||| 12 : Nat)) ∧
    Runs .powerOnReset (fun _ => True) (fun s => s.restart 0) ∧
    Runs .nrst (fun _ => True) (fun s => s.restart 1) ∧
    Runs .hostResetDelayExpiry (fun s => s.pwr.resetAt = some d ∧ d ≤ s.now) (fun s => s.restart 2) ∧
    Runs (.groupPllLock g) (fun s => (s.gr g).powered = true ∧ s.tb g = 0 ∧ s.framesRun = true)
      (fun s => ((s.setTb g 1).modGr g fun r => { r with pwrAns := none }).answer (s.gr g).pwrAns .OK)

/-- Deep sleep and power. The entry goes from ramps to quiesce, to the commit, to power-down, each when its condition holds; SLEEP_UNTIL
and a wake cause end the sleep; VDDC moves by 10 mV up and 5 mV down within its limits and falls back beyond 20 mV; the power accounting
writes PWR_OUT. -/
def Obligations.SleepAndPowerEventsComplete : Prop :=
  ∀ (avpp avnn : Int) (means : List (Nat × Int × Int)) (total meas k n : Nat),
    Runs .sleepRampsDone (fun s => s.pwr.entry = 1 ∧ (s.chan.all fun p => s.rampedDown p.1) = true ∧
        ∀ g ∈ allGroups, (s.gr g).filt = .stopped ∧ (s.gr g).filtStart = none)
      (fun s => { s with pwr := { s.pwr with entry := 2 } }) ∧
    Runs .sleepQuiesceDone (fun s => s.pwr.entry = 2 ∧ s.quiesced = true ∧
        (∀ c ∈ s.chan.map (·.1), (s.ch c).aper.block = []) ∧ ∀ k ∈ List.range 32, s.streamHolds k = false)
      (fun s => { s with pwr := { s.pwr with entry := 3 } }.commitStart []) ∧
    Runs .sleepCommitDone (fun s => s.pwr.entry = 3 ∧ s.mtx.committing = none ∧ s.drn.writes = [] ∧ s.pwr.ans = none)
      (fun s => { s.closeAll with pwr := { s.pwr with entry := 4, ans := none } }) ∧
    (∀ s : State, s.pwr.entry = 4 → s.orphans = [] → s.mtx.cur = none → s.mbox.list = none → ∃ t, exec .sleepPowerDown s = .next t ∧ t.pwr.asleep = true ∧ t.pwr.entry = 0) ∧
    Runs .sleepUntilReached (fun s => (s.pwr.asleep = true ∨ s.pwr.entry ≠ 0) ∧ s.pwr.wake = none ∧ s.sleepOver = true)
      (fun s => { s with pwr := { s.pwr with wake := some (2, 0), wakeAt := s.now } }) ∧
    Runs .wakeComplete (fun s => s.pwr.asleep = true ∧ s.pwr.wake = some (k, n)) (fun s => s.woken) ∧
    Runs .vddcStepUp (fun s => s.vddcOn = true ∧ ∃ g ∈ allGroups, ∃ p, (s.gr g).pace1 = some p ∧ (p : Int) < s.rd .PACE_ALARM)
      (fun s => (s.each allGroups fun s g => s.modGr g fun r => { r with pace1 := none }).wr .VDDC_TARGET 0 0
        (if 900 < s.rd .VDDC_TARGET + 10 then 900 else s.rd .VDDC_TARGET + 10)) ∧
    Runs .vddcStepDown
      (fun s => s.vddcOn = true ∧ (∃ g ∈ allGroups, (s.gr g).pace100.isSome = true) ∧
        ∀ g ∈ allGroups, ∀ p, (s.gr g).pace100 = some p → s.rd .PACE_ALARM + 64 ≤ (p : Int))
      (fun s => (s.each allGroups fun s g => s.modGr g fun r => { r with pace100 := none }).wr .VDDC_TARGET 0 0
        (if s.rd .VDDC_TARGET - 5 < 650 then 650 else s.rd .VDDC_TARGET - 5)) ∧
    Runs (.vddcFallback meas) (fun s => s.vddcOn = true ∧ 20 < ((meas : Int) - s.rd .VDDC_TARGET).natAbs)
      (fun s => { s with pwr := { s.pwr with meas := { s.pwr.meas with vddc := meas }, vddcFell := true } }.report srcSup 0x38 0 3) ∧
    Runs (.powerAccounting avpp avnn means total) (fun s => s.framesRun = true) (fun s => s.account avpp avnn means total)

/-- Mode switches and image commits: the check of a switch applies the target, or turns it away with the status of the check that fails and,
where a range change fails, the channel and reason; a verified image, once its pages are written, takes the half that was idle, counts and
loads its waveforms, and answers OK; a failed one answers NVM_FAULT. Both let the session's later requests go on. -/
def Obligations.ConfigEventsComplete : Prop :=
  ∀ (w : Switch) (st : Status) (at_ : Option (Nat × Nat)) (k q : Nat) (half : Half) (ws : List (Nat × List Int)),
    Runs .modeValidationDone
      (fun s => s.cfg.cur = some w ∧ s.cfg.groupsLeft = [] ∧ s.switchCheck w (s.switchSet w.target) = none)
      (fun s => s.switchApply w.target (s.switchSet w.target)) ∧
    Runs .modeValidationDone
      (fun s => s.cfg.cur = some w ∧ s.cfg.groupsLeft = [] ∧ s.switchCheck w (s.switchSet w.target) = some (st, at_))
      (fun s => s.switchReject w st at_) ∧
    Runs (.imageCommitDone true) (fun s => s.cfg.commit = some (some (k, q), half, ws) ∧ s.imageWaits = false ∧ s.bankDead 12 = false ∧
        (ws = [] ∨ ∀ b ∈ rangeFrom 8 4, s.bankDead b = false))
      (fun s =>
        let u : State := { s.modSe (k % 16) fun x => { x with gated := false } with cfg := { s.cfg with commit := none } }
        let u := u.setIdle half
        let u : State := { u with nvm := { u.nvm with
          active := 1 - s.nvm.active
          imageCommits := if s.nvm.imageCommits < 4294967295 then s.nvm.imageCommits + 1 else s.nvm.imageCommits } }
        ((u.each ws fun s w => s.setWave w.1 w.2).nvmPut (recPages 2)).answer (some (k, q)) .OK) ∧
    Runs (.imageCommitDone false) (fun s => s.cfg.commit = some (some (k, q), half, ws) ∧ s.imageWaits = false)
      (fun s => ({ s.modSe (k % 16) fun x => { x with gated := false } with cfg := { s.cfg with commit := none } } : State).answer
        (some (k, q)) .NVM_FAULT)

/-! ### Rules of the spec -/

/-- Narrowing (R112): round24 and round20 take the nearest representable value, the even one of two that are equally near, and then
saturate; sat24 saturates the exact difference; a law whose DAC code saturates marks its tick, and its code is the rounded
accumulator. -/
def Obligations.NarrowingRule : Prop :=
  (∀ x : Int, (∃ n, Nearest 17 x n) ∧ ∃ n, Nearest 21 x n) ∧
  (∀ x n : Int, Nearest 17 x n → round24 x = if n < -8388608 then -8388608 else if 8388607 < n then 8388607 else n) ∧
  (∀ x n : Int, Nearest 21 x n → round20 x = if n < -524288 then -524288 else if 524287 < n then 524287 else n) ∧
  (∀ a b : Int, sat24 (a - b) = if a - b < -8388608 then -8388608 else if 8388607 < a - b then 8388607 else a - b) ∧
  (∀ (p : LawPar) (v i : Int) (l : Law) (n : Int), Nearest 21 (lawStep p v i l).law.t n →
    (lawStep p v i l).code = round20 (lawStep p v i l).law.t ∧
      ((lawStep p v i l).sat = true ↔ n < -524288 ∨ 524287 < n))

/-- The check nibble of a matrix word (R242): bits [3:0] are the inverted exclusive OR of the seven nibbles above them. Every word that the
controller builds has it, and neither the all-zero nor the all-one word does. -/
def Obligations.MatrixWordCheck : Prop :=
  let checked (w : BitVec 32) : Prop :=
    w.extractLsb' 0 4 = ~~~(w.extractLsb' 4 4 ^^^ w.extractLsb' 8 4 ^^^ w.extractLsb' 12 4 ^^^ w.extractLsb' 16 4 ^^^
      w.extractLsb' 20 4 ^^^ w.extractLsb' 24 4 ^^^ w.extractLsb' 28 4)
  (∀ ep op phase tag : Nat, checked (mtxWord ep op phase tag)) ∧ ¬ checked 0 ∧ ¬ checked (BitVec.allOnes 32)

/-- The leaky bucket of a source of faults (R335): N counted reports within a span shorter than W escalate one of them, counted
reports spaced W or more apart never escalate when N is at least 2, and with N = 1 every counted report escalates. -/
def Obligations.BucketEscalates : Prop :=
  ∀ (s : State) (src n w : Nat) (d : Nat) (ds : List Nat), n = s.rdN .FLT_N ((srcType src).getD 22) →
    w = s.rdN .FLT_W ((srcType src).getD 22) * 1000 → 0 < w →
      (ds.length + 1 = n → ds.sum < w → s.escalates src (d :: ds) = true) ∧
      (2 ≤ n → s.flt.bucket.get (fun _ => 0) src ≤ d → (∀ e ∈ ds, w ≤ e) → s.escalates src (d :: ds) = false) ∧
      (n = 1 → (s.countReport src).2 = true)

/-- A Reed that samples (R282) takes the zone of its signal; it trips HI where the signal is ABOVE and its last zone was not, LO where it
is BELOW and its last zone was not, and else does nothing more. A Reed that starts counts as INSIDE. -/
def Obligations.ReedZonesAndTrips : Prop :=
  ∀ (s : State) (c : ChanNo) (cur : Bool) (x : Int), s.reedSkips c cur = false →
    let hi := s.rd (if cur then .REED_I_HI else .REED_V_HI) c
    let lo := s.rd (if cur then .REED_I_LO else .REED_V_LO) c
    let was := if (if cur then (s.ch c).freshI else (s.ch c).freshV) = true then 0
      else if cur then (s.ch c).zoneI else (s.ch c).zoneV
    let u (z : Nat) := s.modCh c fun h =>
      if cur then { h with zoneI := z, freshI := false } else { h with zoneV := z, freshV := false }
    (hi < x → s.reedTake c cur x = if was = 1 then u 1 else (u 1).reedTrip c cur false) ∧
    (x ≤ hi → x < lo → s.reedTake c cur x = if was = 2 then u 2 else (u 2).reedTrip c cur true) ∧
    (x ≤ hi → lo ≤ x → s.reedTake c cur x = u 0)

/-- What sets the safe latch and asserts nSAFE (R347, R349): an accepted GRAVE report, a SEVERE report of a type whose FLT_SEVERE_ACT is 1
and whose source is not fenced (types 19 and 22 apart), a write of FLT_SAFE, a stop of TBA and a disagreement of the collector's
copies. -/
def Obligations.SafeStateEntries : Prop :=
  ∀ s : State, s.latchAsserts →
    let safe (i : Instr) : Prop := ∃ t, exec i s = .next t ∧ t.latch = true ∧ t.nSafe = true
    (∀ m : FaultMsg, (srcType m.source).isSome = true → knownKind m.kind = true → s.mustWait m = false → m.kind ≠ 0x08 → classOf m = .grave →
      safe (.faultReport (some m))) ∧
    (∀ (m : FaultMsg) (ty : Nat), srcType m.source = some ty → knownKind m.kind = true → ty ≠ 19 → ty ≠ 22 → m.kind ≠ 0x08 → classOf m = .severe →
      s.rdT .FLT_SEVERE_ACT ty = true → s.fencedSrc m.source = false → safe (.faultReport (some m))) ∧
    (∀ h : Hdr, s.takes h (.write (.obj .FLT_SAFE 0 0) (.num 1)) = true →
      (s.taken h (.write (.obj .FLT_SAFE 0 0) (.num 1))).mayWrite h .FLT_SAFE 0 (.num 1) (.num 1) → safe (.fltSafe h)) ∧
    safe .tbaStopDetect ∧ (∀ n, safe (.collectorVote (some n)))

/-- The package. The position of (u, d) in a group's block of each side and the AGND lines of the sides are those of Table "Group block
placement" (R491), and within a block channel g × 32 + p stands in tier p div 11 at u = (p mod 11) + 1, its balls in the order SH, FO, IH,
IL, BG, with SL, GRD, AGND, REFIO, AGND in the place of u = 11 in tier 2 (R492). -/
def Obligations.GroupBallsStandInTheirBlocks : Prop :=
  (∀ k < 4, ∀ u < 12, 1 ≤ u → ∀ d < 16, 1 ≤ d →
    ballAt d (11 * k + u) = some (blockBall k u d) ∧
    ballAt (11 * k + u) (61 - d) = some (blockBall (4 + k) u d) ∧
    ballAt (61 - d) (61 - (11 * k + u)) = some (blockBall (8 + k) u d) ∧
    ballAt (61 - (11 * k + u)) d = some (blockBall (12 + k) u d)) ∧
  (∀ d < 16, 1 ≤ d →
    ballAt d 45 = some (.rail .AGND) ∧ ballAt 45 (61 - d) = some (.rail .AGND) ∧
    ballAt (61 - d) 16 = some (.rail .AGND) ∧ ballAt 16 d = some (.rail .AGND)) ∧
  (∀ (g p : Nat), p < 32 → ∀ x ∈ [(1, ChanBall.SH), (2, .FO), (3, .IH), (4, .IL), (5, .BG)],
    blockBall g (p % 11 + 1) (5 * (p / 11) + x.1) = .chan (g * 32 + p) x.2) ∧
  (∀ (g : Nat), ∀ x ∈ [(1, PackageBall.group g .SL), (2, .group g .GRD), (3, .rail .AGND), (4, .group g .REFIO), (5, .rail .AGND)],
    blockBall g 11 (10 + x.1) = x.2)
end

