-- ==== Sys2Proof/Laws/Word.lean ====
section
/-! SUPPORT. Sparse maps: what a key reads as after a write, and that writing keeps the canonical form. -/
namespace Sys2Proof
variable {α : Type}

theorem SMap.get_drop_same (d : Nat → α) (m : SMap α) (k : Nat) : (m.drop k).get d k = d k := by
  induction m with
  | nil => rfl
  | cons p m ih =>
    obtain ⟨j, v⟩ := p
    by_cases h : j = k <;> simp [SMap.drop, SMap.get, h, ih]

theorem SMap.get_drop_other (d : Nat → α) (m : SMap α) {k j : Nat} (h : j ≠ k) : (m.drop k).get d j = m.get d j := by
  induction m with
  | nil => rfl
  | cons p m ih =>
    obtain ⟨i, v⟩ := p
    by_cases hi : i = k
    · subst hi; simp [SMap.drop, SMap.get, ih, Ne.symm h]
    · rw [SMap.drop, if_neg hi]
      simp [SMap.get, ih]

theorem SMap.get_place_other (d : Nat → α) (m : SMap α) {k j : Nat} (x : α) (h : j ≠ k) :
    (m.place k x).get d j = m.get d j := by
  induction m with
  | nil => simp [SMap.place, SMap.get, Ne.symm h]
  | cons p m ih =>
    obtain ⟨i, v⟩ := p
    by_cases hi : k < i <;> simp [SMap.place, SMap.get, hi, ih, Ne.symm h]

/-- The key is not listed. -/
def SMap.free (m : SMap α) (k : Nat) : Prop := ∀ p ∈ m, p.1 ≠ k

theorem SMap.drop_free (m : SMap α) (k : Nat) : (m.drop k).free k := by
  induction m with
  | nil => intro p hp; cases hp
  | cons p m ih =>
    obtain ⟨j, v⟩ := p
    by_cases h : j = k
    · simpa [SMap.drop, h] using ih
    · intro q hq
      rw [SMap.drop, if_neg h] at hq
      rcases List.mem_cons.1 hq with rfl | hq
      · exact h
      · exact ih q hq

theorem SMap.get_place_same (d : Nat → α) (m : SMap α) (k : Nat) (x : α) (h : m.free k) : (m.place k x).get d k = x := by
  induction m with
  | nil => simp [SMap.place, SMap.get]
  | cons p m ih =>
    obtain ⟨j, v⟩ := p
    have hj : j ≠ k := h (j, v) (by simp)
    have ih := ih fun q hq => h q (by simp [hq])
    by_cases hk : k < j <;> simp [SMap.place, SMap.get, hk, hj, ih]

/-- A write is read back. -/
@[simp] theorem SMap.get_put_same [DecidableEq α] (d : Nat → α) (m : SMap α) (k : Nat) (x : α) :
    (m.put d k x).get d k = x := by
  by_cases h : x = d k
  · simp [SMap.put, h, get_drop_same]
  · simp [SMap.put, h, get_place_same _ _ _ _ (drop_free m k)]

/-- A write leaves every other key. -/
theorem SMap.get_put_other [DecidableEq α] (d : Nat → α) (m : SMap α) {k j : Nat} (x : α) (h : j ≠ k) :
    (m.put d k x).get d j = m.get d j := by
  by_cases hx : x = d k
  · simp [SMap.put, hx, get_drop_other _ _ h]
  · simp [SMap.put, hx, get_place_other _ _ _ h, get_drop_other _ _ h]

/-- What a key reads as after a write. -/
theorem SMap.get_put [DecidableEq α] (d : Nat → α) (m : SMap α) (k j : Nat) (x : α) :
    (m.put d k x).get d j = if j = k then x else m.get d j := by
  split
  · subst_vars; simp
  · exact get_put_other d m x ‹_›

/-- A lower bound below which no key lies may be lowered. -/
theorem SMap.wfFrom_mono [DecidableEq α] (d : Nat → α) {lo lo' : Option Nat} (m : SMap α)
    (h : ∀ k, lo = some k → ∃ l, lo' = some l ∧ k ≤ l) (hm : SMap.wfFrom d lo' m = true) : SMap.wfFrom d lo m = true := by
  cases m with
  | nil => rfl
  | cons p m =>
    obtain ⟨j, v⟩ := p
    simp only [SMap.wfFrom, Bool.and_eq_true] at hm ⊢
    refine ⟨⟨?_, hm.1.2⟩, hm.2⟩
    cases hlo : lo with
    | none => rfl
    | some k =>
      obtain ⟨l, rfl, hkl⟩ := h k hlo
      have : l < j := by simpa using hm.1.1
      simpa using Nat.lt_of_le_of_lt hkl this

theorem SMap.wfFrom_drop [DecidableEq α] (d : Nat → α) (k : Nat) (m : SMap α) :
    ∀ lo, SMap.wfFrom d lo m = true → SMap.wfFrom d lo (m.drop k) = true := by
  induction m with
  | nil => intro lo _; rfl
  | cons p m ih =>
    obtain ⟨j, v⟩ := p
    intro lo h
    simp only [SMap.wfFrom, Bool.and_eq_true] at h
    by_cases hj : j = k
    · rw [SMap.drop, if_pos hj]
      refine SMap.wfFrom_mono d _ ?_ (ih _ h.2)
      intro l hl
      subst hl
      exact ⟨j, rfl, Nat.le_of_lt (by simpa using h.1.1)⟩
    · rw [SMap.drop, if_neg hj]
      simp only [SMap.wfFrom, Bool.and_eq_true]
      exact ⟨h.1, ih _ h.2⟩

theorem SMap.wfFrom_place [DecidableEq α] (d : Nat → α) (k : Nat) (x : α) (hx : x ≠ d k) (m : SMap α) :
    ∀ lo, (∀ l, lo = some l → l < k) → m.free k → SMap.wfFrom d lo m = true → SMap.wfFrom d lo (m.place k x) = true := by
  induction m with
  | nil =>
    intro lo hlo _ _
    cases lo with
    | none => simp [SMap.place, SMap.wfFrom, hx]
    | some l => simp [SMap.place, SMap.wfFrom, hx, hlo l rfl]
  | cons p m ih =>
    obtain ⟨j, v⟩ := p
    intro lo hlo hf h
    simp only [SMap.wfFrom, Bool.and_eq_true] at h
    by_cases hk : k < j
    · rw [SMap.place, if_pos hk]
      simp only [SMap.wfFrom, Bool.and_eq_true]
      refine ⟨⟨?_, by simpa using hx⟩, ⟨by simpa using hk, h.1.2⟩, h.2⟩
      cases lo with
      | none => rfl
      | some l => simpa using hlo l rfl
    · rw [SMap.place, if_neg hk]
      have hj : j ≠ k := hf (j, v) (by simp)
      simp only [SMap.wfFrom, Bool.and_eq_true]
      exact ⟨h.1, ih (some j) (fun l hl => by cases hl; omega) (fun q hq => hf q (by simp [hq])) h.2⟩

/-- Leaving entries out keeps the canonical form. -/
theorem SMap.wfFrom_filter [DecidableEq α] (d : Nat → α) (f : Nat × α → Bool) (m : SMap α) :
    ∀ lo, SMap.wfFrom d lo m = true → SMap.wfFrom d lo (m.filter f) = true := by
  induction m with
  | nil => intro lo _; rfl
  | cons p m ih =>
    obtain ⟨j, v⟩ := p
    intro lo h
    simp only [SMap.wfFrom, Bool.and_eq_true] at h
    cases hf : f (j, v) with
    | false =>
      rw [List.filter_cons_of_neg (by simp [hf])]
      refine SMap.wfFrom_mono d _ ?_ (ih _ h.2)
      intro l hl
      subst hl
      exact ⟨j, rfl, Nat.le_of_lt (by simpa using h.1.1)⟩
    | true =>
      rw [List.filter_cons_of_pos hf]
      simp only [SMap.wfFrom, Bool.and_eq_true]
      exact ⟨h.1, ih _ h.2⟩

/-- A write keeps the canonical form. -/
theorem SMap.wf_put [DecidableEq α] (d : Nat → α) (m : SMap α) (k : Nat) (x : α) (h : m.wf d = true) :
    (m.put d k x).wf d = true := by
  by_cases hx : x = d k
  · rw [SMap.put, if_pos hx]
    exact SMap.wfFrom_drop d k m none h
  · rw [SMap.put, if_neg hx]
    exact SMap.wfFrom_place d k x hx _ none (by simp) (drop_free m k) (SMap.wfFrom_drop d k m none h)

/-- A change of the values that keeps every unlisted value unlisted keeps the canonical form. -/
theorem SMap.wfFrom_map [DecidableEq α] (d : Nat → α) (f : Nat → α → α) (h : ∀ k v, v ≠ d k → f k v ≠ d k) (m : SMap α) :
    ∀ lo, SMap.wfFrom d lo m = true → SMap.wfFrom d lo (m.map fun p => (p.1, f p.1 p.2)) = true := by
  induction m with
  | nil => intro lo _; rfl
  | cons p m ih =>
    obtain ⟨j, v⟩ := p
    intro lo hm
    simp only [List.map_cons, SMap.wfFrom, Bool.and_eq_true, decide_eq_true_eq] at hm ⊢
    exact ⟨⟨hm.1.1, h j v hm.1.2⟩, ih _ hm.2⟩

end Sys2Proof
end

