-- ==== Sys2Proof/Laws/Kept.lean ====
section
/-! SUPPORT. What every operation keeps: the queue, a set safe latch, nSAFE under the latch, and the canonical form of the tables. -/
namespace Sys2Proof.Machine
open Sys2Proof

/-- The canonical tables among the parts of a state. -/
def tablesOk (chan : SMap Chan) (grp : SMap Group) (sess : SMap Session) (sweep : SMap (BitVec 128)) : Prop :=
  SMap.wf (fun _ => ({} : Chan)) chan = true ∧ SMap.wf (fun _ => ({} : Group)) grp = true ∧
    SMap.wf (fun _ => ({} : Session)) sess = true ∧ SMap.wf sweepReset sweep = true

theorem State.tablesWf_iff (s : State) : s.tablesWf = true ↔ tablesOk s.chan s.grp s.sess s.sweep := by
  simp [State.tablesWf, tablesOk, and_assoc]

/-- What a later state keeps of `s₀`, by its parts. -/
structure KeptBits (s₀ : State) (chan : SMap Chan) (grp : SMap Group) (sess : SMap Session) (sweep : SMap (BitVec 128))
    (latch nSafe : Bool) (pending : List Instr) : Prop where
  queue : pending = s₀.pending
  latched : s₀.latch = true → latch = true
  asserts : s₀.latchAsserts → latch = true → nSafe = true
  tables : s₀.tablesWf = true → tablesOk chan grp sess sweep

/-- State `s` keeps what it should of `s₀`. -/
def Kept (s₀ s : State) : Prop := KeptBits s₀ s.chan s.grp s.sess s.sweep s.latch s.nSafe s.pending

theorem Kept.refl (s : State) : Kept s s := ⟨rfl, id, id, (State.tablesWf_iff s).1⟩

theorem Kept.latchAsserts {s₀ s : State} (h : Kept s₀ s) (a : s₀.latchAsserts) : s.latchAsserts := h.asserts a

theorem Kept.tablesWf {s₀ s : State} (h : Kept s₀ s) (a : s₀.tablesWf = true) : s.tablesWf = true :=
  (State.tablesWf_iff s).2 (h.tables a)

theorem kept_bits {s₀ t : State} (h : Kept s₀ t) :
    KeptBits s₀ t.chan t.grp t.sess t.sweep t.latch t.nSafe t.pending := h

theorem kept_mk_eq {s₀ : State} {od chan slice grp sess orphans pend cal sweep flt rtr mtx sp0 sp1 mbox net0 net1 strm clk pair cfg nvm pwr
    drn mtrgo latch cause stopCause safeBreak nSafe tx fresh pending} :
    Kept s₀ (State.mk od chan slice grp sess orphans pend cal sweep flt rtr mtx sp0 sp1 mbox net0 net1 strm clk pair cfg nvm pwr
      drn mtrgo latch cause stopCause safeBreak nSafe tx fresh pending) = KeptBits s₀ chan grp sess sweep latch nSafe pending := rfl

theorem kept_ite {s₀ a b : State} {p : Prop} [Decidable p] (ha : Kept s₀ a) (hb : Kept s₀ b) :
    Kept s₀ (if p then a else b) := by split <;> assumption

theorem kept_ite_fst {α : Type} {s₀ : State} {a b : State × α} {p : Prop} [Decidable p] (ha : Kept s₀ a.1) (hb : Kept s₀ b.1) :
    Kept s₀ (if p then a else b).1 := by split <;> assumption

theorem kept_ite_snd {α : Type} {s₀ : State} {a b : α × State} {p : Prop} [Decidable p] (ha : Kept s₀ a.2) (hb : Kept s₀ b.2) :
    Kept s₀ (if p then a else b).2 := by split <;> assumption

theorem kept_foldl {α : Type} {s₀ : State} {f : State → α → State} (hf : ∀ s a, Kept s₀ s → Kept s₀ (f s a)) (l : List α) :
    ∀ {s : State}, Kept s₀ s → Kept s₀ (l.foldl f s) := by
  induction l with
  | nil => intro s h; exact h
  | cons a l ih => intro s h; exact ih (hf s a h)

theorem kept_each {α : Type} {s₀ s : State} {l : List α} {f : State → α → State} (h : Kept s₀ s)
    (hf : ∀ s a, Kept s₀ s → Kept s₀ (f s a)) : Kept s₀ (s.each l f) := kept_foldl hf l h

theorem kept_of_fst {α : Type} {s₀ s : State} {p : State × α} {a : α} (e : p = (s, a)) (h : Kept s₀ p.1) : Kept s₀ s := by
  rw [e] at h; exact h
theorem kept_of_snd {α : Type} {s₀ s : State} {p : α × State} {a : α} (e : p = (a, s)) (h : Kept s₀ p.2) : Kept s₀ s := by
  rw [e] at h; exact h

theorem kept_getD {s₀ d : State} {o : Option State} (h : ∀ t, o = some t → Kept s₀ t) (hd : Kept s₀ d) : Kept s₀ (o.getD d) := by
  cases o with
  | none => exact hd
  | some t => exact h t rfl

/-! ### Writes of unit records and of the sweep memory keep the canonical form -/

theorem KeptBits.putChan {s₀ : State} {chan grp sess sweep latch nSafe pending} {k : Nat} {x : Chan}
    (h : KeptBits s₀ chan grp sess sweep latch nSafe pending) :
    KeptBits s₀ (chan.put (fun _ => {}) k x) grp sess sweep latch nSafe pending :=
  ⟨h.queue, h.latched, h.asserts, fun a => ⟨SMap.wf_put _ _ _ _ (h.tables a).1, (h.tables a).2⟩⟩

theorem KeptBits.putGrp {s₀ : State} {chan grp sess sweep latch nSafe pending} {k : Nat} {x : Group}
    (h : KeptBits s₀ chan grp sess sweep latch nSafe pending) :
    KeptBits s₀ chan (grp.put (fun _ => {}) k x) sess sweep latch nSafe pending :=
  ⟨h.queue, h.latched, h.asserts, fun a => ⟨(h.tables a).1, SMap.wf_put _ _ _ _ (h.tables a).2.1, (h.tables a).2.2⟩⟩

theorem KeptBits.putSess {s₀ : State} {chan grp sess sweep latch nSafe pending} {k : Nat} {x : Session}
    (h : KeptBits s₀ chan grp sess sweep latch nSafe pending) :
    KeptBits s₀ chan grp (sess.put (fun _ => {}) k x) sweep latch nSafe pending :=
  ⟨h.queue, h.latched, h.asserts, fun a =>
    ⟨(h.tables a).1, (h.tables a).2.1, SMap.wf_put _ _ _ _ (h.tables a).2.2.1, (h.tables a).2.2.2⟩⟩

theorem KeptBits.putSweep {s₀ : State} {chan grp sess sweep latch nSafe pending} {k : Nat} {x : BitVec 128}
    (h : KeptBits s₀ chan grp sess sweep latch nSafe pending) :
    KeptBits s₀ chan grp sess (sweep.put sweepReset k x) latch nSafe pending :=
  ⟨h.queue, h.latched, h.asserts, fun a =>
    ⟨(h.tables a).1, (h.tables a).2.1, (h.tables a).2.2.1, SMap.wf_put _ _ _ _ (h.tables a).2.2.2⟩⟩

theorem KeptBits.filterSweep {s₀ : State} {chan grp sess sweep latch nSafe pending} {f : Nat × BitVec 128 → Bool}
    (h : KeptBits s₀ chan grp sess sweep latch nSafe pending) :
    KeptBits s₀ chan grp sess (sweep.filter f) latch nSafe pending :=
  ⟨h.queue, h.latched, h.asserts, fun a =>
    ⟨(h.tables a).1, (h.tables a).2.1, (h.tables a).2.2.1, SMap.wfFrom_filter _ _ _ none (h.tables a).2.2.2⟩⟩

/-- The latch set with nSAFE. -/
theorem KeptBits.setLatch {s₀ : State} {chan grp sess sweep latch nSafe pending}
    (h : KeptBits s₀ chan grp sess sweep latch nSafe pending) : KeptBits s₀ chan grp sess sweep true true pending :=
  ⟨h.queue, fun _ => rfl, fun _ _ => rfl, h.tables⟩

/-- nSAFE follows the latch. -/
theorem KeptBits.followLatch {s₀ : State} {chan grp sess sweep latch nSafe pending}
    (h : KeptBits s₀ chan grp sess sweep latch nSafe pending) : KeptBits s₀ chan grp sess sweep latch latch pending :=
  ⟨h.queue, h.latched, fun _ => id, h.tables⟩

/-- A Chanter that is idle after an assertion was idle before it. -/
theorem takeTrig_idle {n : Nat} {fr : Bool} {t : Chanter} (h : takeTrig n fr t = {}) : t = {} := by
  have hb : t.begun = false := by
    unfold takeTrig at h
    split at h
    · rw [h]
    · exact congrArg Chanter.begun h
  have hl : t.live = false := by
    unfold takeTrig at h
    split at h
    · rw [h]
    · exact congrArg Chanter.live h
  rw [← h]
  cases t
  simp_all [takeTrig]

end Sys2Proof.Machine
end

