-- ==== Sys2Proof/Laws/OpsKept.lean ====
section
/-! SUPPORT. What the operations of Machine/Ops.lean keep. -/
namespace Sys2Proof.Machine
open Sys2Proof

theorem State.wrV_kept {s₀ s : State} (h : Kept s₀ s) (o : Obj) (i e : Nat) (v : Val) :
    Kept s₀ (State.wrV s o i e v) := by
  unfold State.wrV
  repeat' first
    | with_reducible exact h
    | with_reducible assumption
    | with_reducible intro _
    | with_reducible apply kept_ite
    | with_reducible apply kept_bits
    | simp only [kept_mk_eq]
    | split

theorem State.wr_kept {s₀ s : State} (h : Kept s₀ s) (o : Obj) (i e : Nat) (v : Int) :
    Kept s₀ (State.wr s o i e v) := by
  unfold State.wr
  repeat' first
    | with_reducible exact h
    | with_reducible assumption
    | with_reducible intro _
    | with_reducible apply kept_ite
    | with_reducible apply State.wrV_kept
    | with_reducible apply kept_bits
    | simp only [kept_mk_eq]
    | split

theorem State.inc_kept {s₀ s : State} (h : Kept s₀ s) (o : Obj) (i : Nat) (n : Nat) :
    Kept s₀ (State.inc s o i n) := by
  unfold State.inc
  repeat' first
    | with_reducible exact h
    | with_reducible assumption
    | with_reducible intro _
    | with_reducible apply kept_ite
    | with_reducible apply State.wr_kept
    | with_reducible apply kept_bits
    | simp only [kept_mk_eq]
    | split

theorem State.modCh_kept {s₀ s : State} (h : Kept s₀ s) (c : Nat) (f : Chan → Chan) :
    Kept s₀ (State.modCh s c f) := by
  unfold State.modCh
  repeat' first
    | with_reducible exact h
    | with_reducible assumption
    | with_reducible intro _
    | with_reducible apply kept_ite
    | with_reducible apply KeptBits.putChan
    | with_reducible apply kept_bits
    | simp only [kept_mk_eq]
    | split

theorem State.modGr_kept {s₀ s : State} (h : Kept s₀ s) (g : Nat) (f : Group → Group) :
    Kept s₀ (State.modGr s g f) := by
  unfold State.modGr
  repeat' first
    | with_reducible exact h
    | with_reducible assumption
    | with_reducible intro _
    | with_reducible apply kept_ite
    | with_reducible apply KeptBits.putGrp
    | with_reducible apply kept_bits
    | simp only [kept_mk_eq]
    | split

theorem State.modSl_kept {s₀ s : State} (h : Kept s₀ s) (k : Nat) (f : SliceSt → SliceSt) :
    Kept s₀ (State.modSl s k f) := by
  unfold State.modSl
  repeat' first
    | with_reducible exact h
    | with_reducible assumption
    | with_reducible intro _
    | with_reducible apply kept_ite
    | with_reducible apply kept_bits
    | simp only [kept_mk_eq]
    | split

theorem State.modSe_kept {s₀ s : State} (h : Kept s₀ s) (n : Nat) (f : Session → Session) :
    Kept s₀ (State.modSe s n f) := by
  unfold State.modSe
  repeat' first
    | with_reducible exact h
    | with_reducible assumption
    | with_reducible intro _
    | with_reducible apply kept_ite
    | with_reducible apply KeptBits.putSess
    | with_reducible apply kept_bits
    | simp only [kept_mk_eq]
    | split

theorem State.modSt_kept {s₀ s : State} (h : Kept s₀ s) (n : Nat) (f : Stream → Stream) :
    Kept s₀ (State.modSt s n f) := by
  unfold State.modSt
  repeat' first
    | with_reducible exact h
    | with_reducible assumption
    | with_reducible intro _
    | with_reducible apply kept_ite
    | with_reducible apply kept_bits
    | simp only [kept_mk_eq]
    | split

theorem State.modPort_kept {s₀ s : State} (h : Kept s₀ s) (n : Nat) (f : Port → Port) :
    Kept s₀ (State.modPort s n f) := by
  unfold State.modPort
  repeat' first
    | with_reducible exact h
    | with_reducible assumption
    | with_reducible intro _
    | with_reducible apply kept_ite
    | with_reducible apply kept_bits
    | simp only [kept_mk_eq]
    | split

theorem State.modSp_kept {s₀ s : State} (h : Kept s₀ s) (n : Nat) (f : Serial → Serial) :
    Kept s₀ (State.modSp s n f) := by
  unfold State.modSp
  repeat' first
    | with_reducible exact h
    | with_reducible assumption
    | with_reducible intro _
    | with_reducible apply kept_ite
    | with_reducible apply kept_bits
    | simp only [kept_mk_eq]
    | split

theorem State.modMon_kept {s₀ s : State} (h : Kept s₀ s) (g : Nat) (f : Mon → Mon) :
    Kept s₀ (State.modMon s g f) := by
  unfold State.modMon
  repeat' first
    | with_reducible exact h
    | with_reducible assumption
    | with_reducible intro _
    | with_reducible apply kept_ite
    | with_reducible apply State.modGr_kept
    | with_reducible apply kept_bits
    | simp only [kept_mk_eq]
    | split

theorem State.modCht_kept {s₀ s : State} (h : Kept s₀ s) (c : Nat) (f : Chanter → Chanter) :
    Kept s₀ (State.modCht s c f) := by
  unfold State.modCht
  repeat' first
    | with_reducible exact h
    | with_reducible assumption
    | with_reducible intro _
    | with_reducible apply kept_ite
    | with_reducible apply State.modCh_kept
    | with_reducible apply kept_bits
    | simp only [kept_mk_eq]
    | split

theorem State.modHold_kept {s₀ s : State} (h : Kept s₀ s) (c : Nat) (f : Hold → Hold) :
    Kept s₀ (State.modHold s c f) := by
  unfold State.modHold
  repeat' first
    | with_reducible exact h
    | with_reducible assumption
    | with_reducible intro _
    | with_reducible apply kept_ite
    | with_reducible apply State.modCh_kept
    | with_reducible apply kept_bits
    | simp only [kept_mk_eq]
    | split

theorem State.modSlide_kept {s₀ s : State} (h : Kept s₀ s) (c : Nat) (f : Slide → Slide) :
    Kept s₀ (State.modSlide s c f) := by
  unfold State.modSlide
  repeat' first
    | with_reducible exact h
    | with_reducible assumption
    | with_reducible intro _
    | with_reducible apply kept_ite
    | with_reducible apply State.modCh_kept
    | with_reducible apply kept_bits
    | simp only [kept_mk_eq]
    | split

theorem State.modAper_kept {s₀ s : State} (h : Kept s₀ s) (c : Nat) (f : Aper → Aper) :
    Kept s₀ (State.modAper s c f) := by
  unfold State.modAper
  repeat' first
    | with_reducible exact h
    | with_reducible assumption
    | with_reducible intro _
    | with_reducible apply kept_ite
    | with_reducible apply State.modCh_kept
    | with_reducible apply kept_bits
    | simp only [kept_mk_eq]
    | split

theorem State.setTb_kept {s₀ s : State} (h : Kept s₀ s) (t v : Nat) :
    Kept s₀ (State.setTb s t v) := by
  unfold State.setTb
  repeat' first
    | with_reducible exact h
    | with_reducible assumption
    | with_reducible intro _
    | with_reducible apply kept_ite
    | with_reducible apply kept_bits
    | simp only [kept_mk_eq]
    | split

theorem State.draw_kept {s₀ s : State} (h : Kept s₀ s)  :
    Kept s₀ (State.draw s).2 := by
  unfold State.draw
  repeat' first
    | with_reducible exact h
    | with_reducible assumption
    | with_reducible intro _
    | with_reducible apply kept_ite
    | with_reducible apply kept_ite_snd
    | with_reducible refine kept_of_snd (by assumption) ?_
    | with_reducible apply kept_bits
    | simp only [kept_mk_eq]
    | split

theorem State.report_kept {s₀ s : State} (h : Kept s₀ s) (src kind addr detail : Nat) (cls : FClass) :
    Kept s₀ (State.report s src kind addr detail cls) := by
  unfold State.report
  repeat' first
    | with_reducible exact h
    | with_reducible assumption
    | with_reducible intro _
    | with_reducible apply kept_ite
    | with_reducible apply kept_bits
    | simp only [kept_mk_eq]
    | split

theorem State.runState_kept {s₀ s : State} (h : Kept s₀ s)  :
    Kept s₀ (State.runState s) := by
  unfold State.runState
  repeat' first
    | with_reducible exact h
    | with_reducible assumption
    | with_reducible intro _
    | with_reducible apply kept_ite
    | with_reducible apply State.wr_kept
    | with_reducible apply kept_bits
    | simp only [kept_mk_eq]
    | split

theorem State.spEnd_kept {s₀ s : State} (h : Kept s₀ s) (n : Nat) :
    Kept s₀ (State.spEnd s n) := by
  unfold State.spEnd
  repeat' first
    | with_reducible exact h
    | with_reducible assumption
    | with_reducible intro _
    | with_reducible apply kept_ite
    | with_reducible apply State.modSp_kept
    | with_reducible apply kept_bits
    | simp only [kept_mk_eq]
    | split

theorem State.spPower_kept {s₀ s : State} (h : Kept s₀ s) (on : Bool) :
    Kept s₀ (State.spPower s on) := by
  unfold State.spPower
  repeat' first
    | with_reducible exact h
    | with_reducible assumption
    | with_reducible intro _
    | with_reducible apply kept_ite
    | with_reducible apply kept_each
    | with_reducible apply State.modSp_kept
    | with_reducible apply kept_bits
    | simp only [kept_mk_eq]
    | split

theorem State.spRole_kept {s₀ s : State} (h : Kept s₀ s) (n : Nat) (v : Int) :
    Kept s₀ (State.spRole s n v) := by
  unfold State.spRole
  repeat' first
    | with_reducible exact h
    | with_reducible assumption
    | with_reducible intro _
    | with_reducible apply kept_ite
    | with_reducible apply State.wr_kept
    | with_reducible apply State.modSp_kept
    | with_reducible apply kept_bits
    | simp only [kept_mk_eq]
    | split

theorem State.nvmPut_kept {s₀ s : State} (h : Kept s₀ s) (l : List (Nat × Nat)) :
    Kept s₀ (State.nvmPut s l) := by
  unfold State.nvmPut
  repeat' first
    | with_reducible exact h
    | with_reducible assumption
    | with_reducible intro _
    | with_reducible apply kept_ite
    | with_reducible apply kept_bits
    | simp only [kept_mk_eq]
    | split

theorem State.nvmDrop_kept {s₀ s : State} (h : Kept s₀ s) (l : List (Nat × Nat)) :
    Kept s₀ (State.nvmDrop s l) := by
  unfold State.nvmDrop
  repeat' first
    | with_reducible exact h
    | with_reducible assumption
    | with_reducible intro _
    | with_reducible apply kept_ite
    | with_reducible apply State.inc_kept
    | with_reducible apply kept_bits
    | simp only [kept_mk_eq]
    | split

theorem State.nvmSweep_kept {s₀ s : State} (h : Kept s₀ s)  :
    Kept s₀ (State.nvmSweep s) := by
  unfold State.nvmSweep
  repeat' first
    | with_reducible exact h
    | with_reducible assumption
    | with_reducible intro _
    | with_reducible apply kept_ite
    | with_reducible apply State.nvmDrop_kept
    | with_reducible apply kept_bits
    | simp only [kept_mk_eq]
    | split

theorem State.started_kept {s₀ s : State} (h : Kept s₀ s) (o : Obj) (due delay : Nat) :
    Kept s₀ (State.started s o due delay) := by
  unfold State.started
  repeat' first
    | with_reducible exact h
    | with_reducible assumption
    | with_reducible intro _
    | with_reducible apply kept_ite
    | with_reducible apply State.inc_kept
    | with_reducible apply kept_bits
    | simp only [kept_mk_eq]
    | split

theorem State.wakeBy_kept {s₀ s : State} (h : Kept s₀ s) (cause n : Nat) :
    Kept s₀ (State.wakeBy s cause n) := by
  unfold State.wakeBy
  repeat' first
    | with_reducible exact h
    | with_reducible assumption
    | with_reducible intro _
    | with_reducible apply kept_ite
    | with_reducible apply kept_ite_fst
    | with_reducible refine kept_of_fst (by assumption) ?_
    | with_reducible apply kept_bits
    | simp only [kept_mk_eq]
    | split

theorem State.push_kept {s₀ s : State} (h : Kept s₀ s) (g : Nat) (a : Ans) (w : What) (adm : Option Bool) :
    Kept s₀ (State.push s g a w adm) := by
  unfold State.push
  repeat' first
    | with_reducible exact h
    | with_reducible assumption
    | with_reducible intro _
    | with_reducible apply kept_ite
    | with_reducible apply State.modGr_kept
    | with_reducible apply kept_bits
    | simp only [kept_mk_eq]
    | split

theorem State.send_kept {s₀ s : State} (h : Kept s₀ s) (t : Tx) :
    Kept s₀ (State.send s t) := by
  unfold State.send
  repeat' first
    | with_reducible exact h
    | with_reducible assumption
    | with_reducible intro _
    | with_reducible apply kept_ite
    | with_reducible apply kept_bits
    | simp only [kept_mk_eq]
    | split

theorem State.stateOut_kept {s₀ s : State} (h : Kept s₀ s) (at_ : Nat) (l : List MirrorState) :
    Kept s₀ (State.stateOut s at_ l) := by
  unfold State.stateOut
  repeat' first
    | with_reducible exact h
    | with_reducible assumption
    | with_reducible intro _
    | with_reducible apply kept_ite
    | with_reducible apply kept_bits
    | simp only [kept_mk_eq]
    | split

theorem State.tell_kept {s₀ s : State} (h : Kept s₀ s) (g : Nat) (m : MirrorState) :
    Kept s₀ (State.tell s g m) := by
  unfold State.tell
  repeat' first
    | with_reducible exact h
    | with_reducible assumption
    | with_reducible intro _
    | with_reducible apply kept_ite
    | with_reducible apply State.stateOut_kept
    | with_reducible apply kept_bits
    | simp only [kept_mk_eq]
    | split

theorem State.tellConfig_kept {s₀ s : State} (h : Kept s₀ s) (g : Nat) (m : MirrorConfig) :
    Kept s₀ (State.tellConfig s g m) := by
  unfold State.tellConfig
  repeat' first
    | with_reducible exact h
    | with_reducible assumption
    | with_reducible intro _
    | with_reducible apply kept_ite
    | with_reducible apply kept_bits
    | simp only [kept_mk_eq]
    | split

theorem State.configOut_kept {s₀ s : State} (h : Kept s₀ s) (o : Obj) (i e : Nat) (v : Int) :
    Kept s₀ (State.configOut s o i e v) := by
  unfold State.configOut
  repeat' first
    | with_reducible exact h
    | with_reducible assumption
    | with_reducible intro _
    | with_reducible apply kept_ite
    | with_reducible apply kept_ite_fst
    | with_reducible refine kept_of_fst (by assumption) ?_
    | with_reducible apply State.tellConfig_kept
    | with_reducible apply kept_bits
    | simp only [kept_mk_eq]
    | split

theorem State.refuseBudget_kept {s₀ s : State} (h : Kept s₀ s)  :
    Kept s₀ (State.refuseBudget s) := by
  unfold State.refuseBudget
  repeat' first
    | with_reducible exact h
    | with_reducible assumption
    | with_reducible intro _
    | with_reducible apply kept_ite
    | with_reducible apply State.inc_kept
    | with_reducible apply kept_bits
    | simp only [kept_mk_eq]
    | split

theorem State.setOut_kept {s₀ s : State} (h : Kept s₀ s) (c : Nat) (st : OutState) (transit : Bool) (cause : Nat) :
    Kept s₀ (State.setOut s c st transit cause) := by
  unfold State.setOut
  repeat' first
    | with_reducible exact h
    | with_reducible assumption
    | with_reducible intro _
    | with_reducible apply kept_ite
    | with_reducible apply State.modCh_kept
    | with_reducible apply State.wr_kept
    | with_reducible apply State.inc_kept
    | with_reducible apply kept_bits
    | simp only [kept_mk_eq]
    | split

theorem State.violate_kept {s₀ s : State} (h : Kept s₀ s) (sess op idx sub : Nat) (st : Status) :
    Kept s₀ (State.violate s sess op idx sub st) := by
  unfold State.violate
  repeat' first
    | with_reducible exact h
    | with_reducible assumption
    | with_reducible intro _
    | with_reducible apply kept_ite
    | with_reducible apply State.inc_kept
    | with_reducible apply State.wrV_kept
    | with_reducible apply State.wr_kept
    | with_reducible apply kept_bits
    | simp only [kept_mk_eq]
    | split

end Sys2Proof.Machine
end

