-- ==== Sys2Proof/Laws/KopKept.lean ====
section
/-! SUPPORT. What the operations of Machine/Kop.lean keep. -/
namespace Sys2Proof.Machine
open Sys2Proof

theorem State.emit_kept {s₀ s : State} (h : Kept s₀ s) (n : Nat) (r : Resp) :
    Kept s₀ (State.emit s n r) := by
  unfold State.emit
  repeat' first
    | with_reducible exact h
    | with_reducible assumption
    | with_reducible intro _
    | with_reducible apply kept_ite
    | with_reducible apply kept_ite_fst
    | with_reducible refine kept_of_fst (by assumption) ?_
    | with_reducible apply State.send_kept
    | with_reducible apply State.inc_kept
    | with_reducible apply kept_bits
    | simp only [kept_mk_eq]
    | split

theorem State.respond_kept {s₀ s : State} (h : Kept s₀ s) (n : Nat) (r : Resp) :
    Kept s₀ (State.respond s n r) := by
  unfold State.respond
  repeat' first
    | with_reducible exact h
    | with_reducible assumption
    | with_reducible intro _
    | with_reducible apply kept_ite
    | with_reducible apply State.modSe_kept
    | with_reducible apply State.emit_kept
    | with_reducible apply kept_bits
    | simp only [kept_mk_eq]
    | split

theorem State.transferEnd_kept {s₀ s : State} (h : Kept s₀ s) (b : Option Block) :
    Kept s₀ (State.transferEnd s b) := by
  unfold State.transferEnd
  repeat' first
    | with_reducible exact h
    | with_reducible assumption
    | with_reducible intro _
    | with_reducible apply kept_ite
    | with_reducible apply kept_ite_fst
    | with_reducible refine kept_of_fst (by assumption) ?_
    | with_reducible apply State.wr_kept
    | with_reducible apply kept_bits
    | simp only [kept_mk_eq]
    | split

theorem State.dropSession_kept {s₀ s : State} (h : Kept s₀ s) (n : Nat) :
    Kept s₀ (State.dropSession s n) := by
  unfold State.dropSession
  repeat' first
    | with_reducible exact h
    | with_reducible assumption
    | with_reducible intro _
    | with_reducible apply kept_ite
    | with_reducible apply State.transferEnd_kept
    | with_reducible apply State.modSe_kept
    | with_reducible apply State.inc_kept
    | with_reducible apply kept_bits
    | simp only [kept_mk_eq]
    | split

theorem flushGo_kept {s₀ : State} (n : Nat) (l : List (Req × Option (Status × Val))) :
    ∀ {s : State}, Kept s₀ s → Kept s₀ (flushGo n l s) := by
  induction l with
  | nil => intro s h; exact State.modSe_kept h _ _
  | cons p l ih =>
    obtain ⟨q, r⟩ := p
    intro s h
    cases r with
    | none => exact State.modSe_kept h _ _
    | some r => exact ih (State.respond_kept h _ _)

theorem State.flush_kept {s₀ s : State} (h : Kept s₀ s) (n : Nat) :
    Kept s₀ (State.flush s n) := by
  unfold State.flush
  repeat' first
    | with_reducible exact h
    | with_reducible assumption
    | with_reducible intro _
    | with_reducible apply kept_ite
    | with_reducible apply flushGo_kept
    | with_reducible apply State.dropSession_kept
    | with_reducible apply kept_bits
    | simp only [kept_mk_eq]
    | split

theorem State.answerRaw_kept {s₀ s : State} (h : Kept s₀ s) (a : Ans) (st : Status) (v : Val) :
    Kept s₀ (State.answerRaw s a st v) := by
  unfold State.answerRaw
  repeat' first
    | with_reducible exact h
    | with_reducible assumption
    | with_reducible intro _
    | with_reducible apply kept_ite
    | with_reducible apply kept_ite_fst
    | with_reducible refine kept_of_fst (by assumption) ?_
    | with_reducible apply State.inc_kept
    | with_reducible apply State.modSe_kept
    | with_reducible apply State.flush_kept
    | with_reducible apply kept_bits
    | simp only [kept_mk_eq]
    | split

theorem State.answer_kept {s₀ s : State} (h : Kept s₀ s) (a : Ans) (st : Status) (v : Val) :
    Kept s₀ (State.answer s a st v) := by
  unfold State.answer
  repeat' first
    | with_reducible exact h
    | with_reducible assumption
    | with_reducible intro _
    | with_reducible apply kept_ite
    | with_reducible apply kept_ite_fst
    | with_reducible refine kept_of_fst (by assumption) ?_
    | with_reducible apply State.inc_kept
    | with_reducible apply State.violate_kept
    | with_reducible apply State.answerRaw_kept
    | with_reducible apply kept_bits
    | simp only [kept_mk_eq]
    | split

theorem State.answers_kept {s₀ s : State} (h : Kept s₀ s) (l : List Ans) (st : Status) :
    Kept s₀ (State.answers s l st) := by
  unfold State.answers
  repeat' first
    | with_reducible exact h
    | with_reducible assumption
    | with_reducible intro _
    | with_reducible apply kept_ite
    | with_reducible apply kept_each
    | with_reducible apply State.answer_kept
    | with_reducible apply kept_bits
    | simp only [kept_mk_eq]
    | split

theorem State.pushHost_kept {s₀ s : State} (h : Kept s₀ s) (g : Nat) (a : Ans) (w : What) (adm : Option Bool) :
    Kept s₀ (State.pushHost s g a w adm) := by
  unfold State.pushHost
  repeat' first
    | with_reducible exact h
    | with_reducible assumption
    | with_reducible intro _
    | with_reducible apply kept_ite
    | with_reducible apply State.push_kept
    | with_reducible apply State.answer_kept
    | with_reducible apply kept_bits
    | simp only [kept_mk_eq]
    | split

end Sys2Proof.Machine
end

