-- ==== Sys2Proof/Laws/EventsKept.lean ====
section
/-! SUPPORT. What the operations of Machine/Events.lean keep. -/
namespace Sys2Proof.Machine
open Sys2Proof

theorem State.evLog_kept {s₀ s : State} (h : Kept s₀ s) (a : Asrt) :
    Kept s₀ (State.evLog s a) := by
  unfold State.evLog
  repeat' first
    | with_reducible exact h
    | with_reducible assumption
    | with_reducible intro _
    | with_reducible apply kept_ite
    | with_reducible apply State.intake_kept
    | with_reducible apply State.inc_kept
    | with_reducible apply State.wr_kept
    | with_reducible apply kept_bits
    | simp only [kept_mk_eq]
    | split

theorem State.asrtStep_kept {s₀ s : State} (h : Kept s₀ s) (id slot : Nat) (denied noop : Bool) :
    Kept s₀ (State.asrtStep s id slot denied noop) := by
  unfold State.asrtStep
  repeat' first
    | with_reducible exact h
    | with_reducible assumption
    | with_reducible intro _
    | with_reducible apply kept_ite
    | with_reducible apply kept_ite_fst
    | with_reducible refine kept_of_fst (by assumption) ?_
    | with_reducible apply State.evLog_kept
    | with_reducible apply kept_bits
    | simp only [kept_mk_eq]
    | split

theorem State.deny_kept {s₀ s : State} (h : Kept s₀ s) (n k : Nat) (st : Status) :
    Kept s₀ (State.deny s n k st) := by
  unfold State.deny
  repeat' first
    | with_reducible exact h
    | with_reducible assumption
    | with_reducible intro _
    | with_reducible apply kept_ite
    | with_reducible apply State.report_kept
    | with_reducible apply State.inc_kept
    | with_reducible apply State.violate_kept
    | with_reducible apply kept_bits
    | simp only [kept_mk_eq]
    | split

theorem State.reply_kept {s₀ s : State} (h : Kept s₀ s) (o : Origin) (st : Status) (noop : Bool) :
    Kept s₀ (State.reply s o st noop) := by
  unfold State.reply
  repeat' first
    | with_reducible exact h
    | with_reducible assumption
    | with_reducible intro _
    | with_reducible apply kept_ite
    | with_reducible apply kept_ite_fst
    | with_reducible refine kept_of_fst (by assumption) ?_
    | with_reducible apply State.answer_kept
    | with_reducible apply State.deny_kept
    | with_reducible apply State.inc_kept
    | with_reducible apply State.asrtStep_kept
    | with_reducible apply kept_bits
    | simp only [kept_mk_eq]
    | split

end Sys2Proof.Machine
end

