-- ==== Sys2Proof/Laws/EndpointKept.lean ====
section
/-! SUPPORT. What the operations of Machine/Endpoint.lean keep. -/
namespace Sys2Proof.Machine
open Sys2Proof

theorem State.loadLine_kept {s₀ s : State} (h : Kept s₀ s) (p : Nat) :
    Kept s₀ (State.loadLine s p) := by
  unfold State.loadLine
  repeat' first
    | with_reducible exact h
    | with_reducible assumption
    | with_reducible intro _
    | with_reducible apply kept_ite
    | with_reducible apply kept_bits
    | simp only [kept_mk_eq]
    | split

theorem State.setLedger_kept {s₀ s : State} (h : Kept s₀ s) (p n : Nat) :
    Kept s₀ (State.setLedger s p n) := by
  unfold State.setLedger
  repeat' first
    | with_reducible exact h
    | with_reducible assumption
    | with_reducible intro _
    | with_reducible apply kept_ite
    | with_reducible apply State.loadLine_kept
    | with_reducible apply kept_bits
    | simp only [kept_mk_eq]
    | split

theorem State.shareResv_kept {s₀ s : State} (h : Kept s₀ s) (c : Nat) (m : MirrorState) :
    Kept s₀ (State.shareResv s c m) := by
  unfold State.shareResv
  repeat' first
    | with_reducible exact h
    | with_reducible assumption
    | with_reducible intro _
    | with_reducible apply kept_ite
    | with_reducible apply State.stateOut_kept
    | with_reducible apply kept_bits
    | simp only [kept_mk_eq]
    | split

theorem State.setResv_kept {s₀ s : State} (h : Kept s₀ s) (p : Nat) (c : Option Nat) :
    Kept s₀ (State.setResv s p c) := by
  unfold State.setResv
  repeat' first
    | with_reducible exact h
    | with_reducible assumption
    | with_reducible intro _
    | with_reducible apply kept_ite
    | with_reducible apply kept_ite_fst
    | with_reducible refine kept_of_fst (by assumption) ?_
    | with_reducible apply kept_getD
    | with_reducible apply State.shareResv_kept
    | with_reducible apply State.reserve_kept
    | with_reducible apply kept_bits
    | simp only [kept_mk_eq]
    | split

theorem State.askClaim_kept {s₀ s : State} (h : Kept s₀ s) (c : Nat) (unit : Bool) :
    Kept s₀ (State.askClaim s c unit) := by
  unfold State.askClaim
  repeat' first
    | with_reducible exact h
    | with_reducible assumption
    | with_reducible intro _
    | with_reducible apply kept_ite
    | with_reducible apply kept_bits
    | simp only [kept_mk_eq]
    | split

theorem State.addTxn_kept {s₀ s : State} (h : Kept s₀ s) (t : Txn) :
    Kept s₀ (State.addTxn s t) := by
  unfold State.addTxn
  repeat' first
    | with_reducible exact h
    | with_reducible assumption
    | with_reducible intro _
    | with_reducible apply kept_ite
    | with_reducible apply kept_bits
    | simp only [kept_mk_eq]
    | split

theorem State.biasSecond_kept {s₀ s : State} (h : Kept s₀ s) (p : Nat) :
    Kept s₀ (State.biasSecond s p) := by
  unfold State.biasSecond
  repeat' first
    | with_reducible exact h
    | with_reducible assumption
    | with_reducible intro _
    | with_reducible apply kept_ite
    | with_reducible apply State.setLedger_kept
    | with_reducible apply kept_bits
    | simp only [kept_mk_eq]
    | split

theorem State.biasCount_kept {s₀ s : State} (h : Kept s₀ s) (c p : Nat) :
    Kept s₀ (State.biasCount s c p) := by
  unfold State.biasCount
  repeat' first
    | with_reducible exact h
    | with_reducible assumption
    | with_reducible intro _
    | with_reducible apply kept_ite
    | with_reducible apply State.biasSecond_kept
    | with_reducible apply State.tellConfig_kept
    | with_reducible apply kept_bits
    | simp only [kept_mk_eq]
    | split

theorem State.biasRelease_kept {s₀ s : State} (h : Kept s₀ s) (c p : Nat) :
    Kept s₀ (State.biasRelease s c p) := by
  unfold State.biasRelease
  repeat' first
    | with_reducible exact h
    | with_reducible assumption
    | with_reducible intro _
    | with_reducible apply kept_ite
    | with_reducible apply State.biasCount_kept
    | with_reducible apply State.modHold_kept
    | with_reducible apply kept_bits
    | simp only [kept_mk_eq]
    | split

theorem State.freeResv_kept {s₀ s : State} (h : Kept s₀ s) (c p : Nat) :
    Kept s₀ (State.freeResv s c p) := by
  unfold State.freeResv
  repeat' first
    | with_reducible exact h
    | with_reducible assumption
    | with_reducible intro _
    | with_reducible apply kept_ite
    | with_reducible apply State.setResv_kept
    | with_reducible apply kept_bits
    | simp only [kept_mk_eq]
    | split

theorem State.holdAnswer_kept {s₀ s : State} (h : Kept s₀ s) (c : Nat) :
    Kept s₀ (State.holdAnswer s c) := by
  unfold State.holdAnswer
  repeat' first
    | with_reducible exact h
    | with_reducible assumption
    | with_reducible intro _
    | with_reducible apply kept_ite
    | with_reducible apply State.modHold_kept
    | with_reducible apply State.answers_kept
    | with_reducible apply kept_bits
    | simp only [kept_mk_eq]
    | split

theorem State.releaseEp_kept {s₀ s : State} (h : Kept s₀ s) (c : Nat) (a : Ans) :
    Kept s₀ (State.releaseEp s c a) := by
  unfold State.releaseEp
  repeat' first
    | with_reducible exact h
    | with_reducible assumption
    | with_reducible intro _
    | with_reducible apply kept_ite
    | with_reducible apply kept_ite_fst
    | with_reducible refine kept_of_fst (by assumption) ?_
    | with_reducible apply State.modHold_kept
    | with_reducible apply State.freeResv_kept
    | with_reducible apply State.holdAnswer_kept
    | with_reducible apply State.biasRelease_kept
    | with_reducible apply State.addTxn_kept
    | with_reducible apply kept_bits
    | simp only [kept_mk_eq]
    | split

theorem State.connectEp_kept {s₀ s : State} (h : Kept s₀ s) (c p : Nat) (alt : Bool) (a : Ans) :
    Kept s₀ (State.connectEp s c p alt a) := by
  unfold State.connectEp
  repeat' first
    | with_reducible exact h
    | with_reducible assumption
    | with_reducible intro _
    | with_reducible apply kept_ite
    | with_reducible apply kept_ite_fst
    | with_reducible refine kept_of_fst (by assumption) ?_
    | with_reducible apply State.modHold_kept
    | with_reducible apply State.freeResv_kept
    | with_reducible apply State.addTxn_kept
    | with_reducible apply State.holdAnswer_kept
    | with_reducible apply State.biasRelease_kept
    | with_reducible apply kept_bits
    | simp only [kept_mk_eq]
    | split

theorem State.dropClaim_kept {s₀ s : State} (h : Kept s₀ s) (c : Nat) :
    Kept s₀ (State.dropClaim s c) := by
  unfold State.dropClaim
  repeat' first
    | with_reducible exact h
    | with_reducible assumption
    | with_reducible intro _
    | with_reducible apply kept_ite
    | with_reducible apply kept_ite_fst
    | with_reducible refine kept_of_fst (by assumption) ?_
    | with_reducible apply State.modCht_kept
    | with_reducible apply State.freeResv_kept
    | with_reducible apply kept_bits
    | simp only [kept_mk_eq]
    | split

theorem State.passOver_kept {s₀ s : State} (h : Kept s₀ s) (c : Nat) :
    Kept s₀ (State.passOver s c) := by
  unfold State.passOver
  repeat' first
    | with_reducible exact h
    | with_reducible assumption
    | with_reducible intro _
    | with_reducible apply kept_ite
    | with_reducible apply State.modCht_kept
    | with_reducible apply State.inc_kept
    | with_reducible apply kept_bits
    | simp only [kept_mk_eq]
    | split

theorem State.makeNext_kept {s₀ s : State} (h : Kept s₀ s) (c : Nat) :
    Kept s₀ (State.makeNext s c) := by
  unfold State.makeNext
  repeat' first
    | with_reducible exact h
    | with_reducible assumption
    | with_reducible intro _
    | with_reducible apply kept_ite
    | with_reducible apply kept_ite_fst
    | with_reducible refine kept_of_fst (by assumption) ?_
    | with_reducible apply State.modHold_kept
    | with_reducible apply State.addTxn_kept
    | with_reducible apply State.holdAnswer_kept
    | with_reducible apply kept_bits
    | simp only [kept_mk_eq]
    | split

theorem State.holdLose_kept {s₀ s : State} (h : Kept s₀ s) (c : Nat) (hit : Nat → Bool) (keep : Bool) :
    Kept s₀ (State.holdLose s c hit keep) := by
  unfold State.holdLose
  repeat' first
    | with_reducible exact h
    | with_reducible assumption
    | with_reducible intro _
    | with_reducible apply kept_ite
    | with_reducible apply kept_ite_fst
    | with_reducible refine kept_of_fst (by assumption) ?_
    | with_reducible apply State.modHold_kept
    | with_reducible apply State.freeResv_kept
    | with_reducible apply State.passOver_kept
    | with_reducible apply State.answers_kept
    | with_reducible apply kept_bits
    | simp only [kept_mk_eq]
    | split

theorem State.failChannel_kept {s₀ s : State} (h : Kept s₀ s) (c : Nat) (eps : List Nat) :
    Kept s₀ (State.failChannel s c eps) := by
  unfold State.failChannel
  repeat' first
    | with_reducible exact h
    | with_reducible assumption
    | with_reducible intro _
    | with_reducible apply kept_ite
    | with_reducible apply State.holdLose_kept
    | with_reducible apply kept_bits
    | simp only [kept_mk_eq]
    | split

theorem State.endAll_kept {s₀ s : State} (h : Kept s₀ s)  :
    Kept s₀ (State.endAll s) := by
  unfold State.endAll
  repeat' first
    | with_reducible exact h
    | with_reducible assumption
    | with_reducible intro _
    | with_reducible apply kept_ite
    | with_reducible apply kept_each
    | with_reducible apply State.biasRelease_kept
    | with_reducible apply State.modHold_kept
    | with_reducible apply State.answers_kept
    | with_reducible apply State.setResv_kept
    | with_reducible apply kept_bits
    | simp only [kept_mk_eq]
    | split

theorem State.endLine_kept {s₀ s : State} (h : Kept s₀ s) (line : Nat) :
    Kept s₀ (State.endLine s line) := by
  unfold State.endLine
  repeat' first
    | with_reducible exact h
    | with_reducible assumption
    | with_reducible intro _
    | with_reducible apply kept_ite
    | with_reducible apply kept_ite_fst
    | with_reducible refine kept_of_fst (by assumption) ?_
    | with_reducible apply kept_each
    | with_reducible apply State.biasRelease_kept
    | with_reducible apply State.holdLose_kept
    | with_reducible apply State.makeNext_kept
    | with_reducible apply State.modCht_kept
    | with_reducible apply State.setResv_kept
    | with_reducible apply kept_bits
    | simp only [kept_mk_eq]
    | split

theorem State.breakAllOver_kept {s₀ s : State} (h : Kept s₀ s)  :
    Kept s₀ (State.breakAllOver s) := by
  unfold State.breakAllOver
  repeat' first
    | with_reducible exact h
    | with_reducible assumption
    | with_reducible intro _
    | with_reducible apply kept_ite
    | with_reducible refine State.restart_kept ?_ (by decide)
    | with_reducible apply State.endAll_kept
    | with_reducible apply kept_bits
    | simp only [kept_mk_eq]
    | split

end Sys2Proof.Machine
end

