-- ==== Sys2Proof/Laws/SweepKept.lean ====
section
/-! SUPPORT. What the operations of Machine/Sweep.lean keep. -/
namespace Sys2Proof.Machine
open Sys2Proof

theorem State.chtEdge_kept {s₀ s : State} (h : Kept s₀ s) (c edge : Nat) :
    Kept s₀ (State.chtEdge s c edge) := by
  unfold State.chtEdge
  repeat' first
    | with_reducible exact h
    | with_reducible assumption
    | with_reducible intro _
    | with_reducible apply kept_ite
    | with_reducible apply State.modGr_kept
    | with_reducible apply State.edge_kept
    | with_reducible apply kept_bits
    | simp only [kept_mk_eq]
    | split

theorem State.players_kept {s₀ s : State} (h : Kept s₀ s) (u : SUnit) (d : Int) :
    Kept s₀ (State.players s u d) := by
  unfold State.players
  repeat' first
    | with_reducible exact h
    | with_reducible assumption
    | with_reducible intro _
    | with_reducible apply kept_ite
    | with_reducible apply State.wr_kept
    | with_reducible apply kept_bits
    | simp only [kept_mk_eq]
    | split

theorem State.chtFreeWaves_kept {s₀ s : State} (h : Kept s₀ s) (c : Nat) :
    Kept s₀ (State.chtFreeWaves s c) := by
  unfold State.chtFreeWaves
  repeat' first
    | with_reducible exact h
    | with_reducible assumption
    | with_reducible intro _
    | with_reducible apply kept_ite
    | with_reducible apply State.players_kept
    | with_reducible apply kept_bits
    | simp only [kept_mk_eq]
    | split

theorem State.chtHalt_kept {s₀ s : State} (h : Kept s₀ s) (c reason : Nat) :
    Kept s₀ (State.chtHalt s c reason) := by
  unfold State.chtHalt
  repeat' first
    | with_reducible exact h
    | with_reducible assumption
    | with_reducible intro _
    | with_reducible apply kept_ite
    | with_reducible apply State.chtFreeWaves_kept
    | with_reducible apply State.dropClaim_kept
    | with_reducible apply State.modCht_kept
    | with_reducible apply State.idle_kept
    | with_reducible apply State.wr_kept
    | with_reducible apply State.chtEdge_kept
    | with_reducible apply State.report_kept
    | with_reducible apply kept_bits
    | simp only [kept_mk_eq]
    | split

theorem State.chtStopIf_kept {s₀ s : State} (h : Kept s₀ s) (c reason : Nat) :
    Kept s₀ (State.chtStopIf s c reason) := by
  unfold State.chtStopIf
  repeat' first
    | with_reducible exact h
    | with_reducible assumption
    | with_reducible intro _
    | with_reducible apply kept_ite
    | with_reducible apply State.idle_kept
    | with_reducible apply State.chtHalt_kept
    | with_reducible apply kept_bits
    | simp only [kept_mk_eq]
    | split

end Sys2Proof.Machine
end

