-- ==== Sys2Proof/Laws/SlideKept.lean ====
section
/-! SUPPORT. What the operations of Machine/Slide.lean keep. -/
namespace Sys2Proof.Machine
open Sys2Proof

theorem State.rebind_kept {s₀ s : State} (h : Kept s₀ s) (c : Nat) :
    Kept s₀ (State.rebind s c) := by
  unfold State.rebind
  repeat' first
    | with_reducible exact h
    | with_reducible assumption
    | with_reducible intro _
    | with_reducible apply kept_ite
    | with_reducible apply State.wr_kept
    | with_reducible apply kept_bits
    | simp only [kept_mk_eq]
    | split

theorem State.programLimit_kept {s₀ s : State} (h : Kept s₀ s) (c : Nat) :
    Kept s₀ (State.programLimit s c) := by
  unfold State.programLimit
  repeat' first
    | with_reducible exact h
    | with_reducible assumption
    | with_reducible intro _
    | with_reducible apply kept_ite
    | with_reducible apply State.modCh_kept
    | with_reducible apply kept_bits
    | simp only [kept_mk_eq]
    | split

theorem State.programTev_kept {s₀ s : State} (h : Kept s₀ s) (c : Nat) (o : Obj) :
    Kept s₀ (State.programTev s c o) := by
  unfold State.programTev
  repeat' first
    | with_reducible exact h
    | with_reducible assumption
    | with_reducible intro _
    | with_reducible apply kept_ite
    | with_reducible apply kept_ite_fst
    | with_reducible refine kept_of_fst (by assumption) ?_
    | with_reducible apply State.modCh_kept
    | with_reducible apply kept_bits
    | simp only [kept_mk_eq]
    | split

theorem State.setRanges_kept {s₀ s : State} (h : Kept s₀ s) (c vr ir : Nat) (r : RangeReq) :
    Kept s₀ (State.setRanges s c vr ir r) := by
  unfold State.setRanges
  repeat' first
    | with_reducible exact h
    | with_reducible assumption
    | with_reducible intro _
    | with_reducible apply kept_ite
    | with_reducible apply kept_ite_fst
    | with_reducible refine kept_of_fst (by assumption) ?_
    | with_reducible apply kept_each
    | with_reducible apply State.wr_kept
    | with_reducible apply State.programLimit_kept
    | with_reducible apply State.programTev_kept
    | with_reducible apply State.rebind_kept
    | with_reducible apply State.modCh_kept
    | with_reducible apply kept_bits
    | simp only [kept_mk_eq]
    | split

theorem State.rangeReply_kept {s₀ s : State} (h : Kept s₀ s) (r : RangeReq) (st : Status) :
    Kept s₀ (State.rangeReply s r st) := by
  unfold State.rangeReply
  repeat' first
    | with_reducible exact h
    | with_reducible assumption
    | with_reducible intro _
    | with_reducible apply kept_ite
    | with_reducible apply kept_each
    | with_reducible apply State.reply_kept
    | with_reducible apply kept_bits
    | simp only [kept_mk_eq]
    | split

theorem State.noteRefusal_kept {s₀ s : State} (h : Kept s₀ s) (c reason : Nat) :
    Kept s₀ (State.noteRefusal s c reason) := by
  unfold State.noteRefusal
  repeat' first
    | with_reducible exact h
    | with_reducible assumption
    | with_reducible intro _
    | with_reducible apply kept_ite
    | with_reducible apply State.modCh_kept
    | with_reducible apply State.inc_kept
    | with_reducible apply kept_bits
    | simp only [kept_mk_eq]
    | split

theorem State.rangeRefuse_kept {s₀ s : State} (h : Kept s₀ s) (c : Nat) (r : RangeReq) (st : Status) (reason : Nat) :
    Kept s₀ (State.rangeRefuse s c r st reason) := by
  unfold State.rangeRefuse
  repeat' first
    | with_reducible exact h
    | with_reducible assumption
    | with_reducible intro _
    | with_reducible apply kept_ite
    | with_reducible apply kept_ite_fst
    | with_reducible refine kept_of_fst (by assumption) ?_
    | with_reducible apply State.noteRefusal_kept
    | with_reducible apply State.refuseBudget_kept
    | with_reducible apply State.report_kept
    | with_reducible apply State.chtHalt_kept
    | with_reducible apply State.rangeReply_kept
    | with_reducible apply kept_bits
    | simp only [kept_mk_eq]
    | split

theorem State.rangeCancel_kept {s₀ s : State} (h : Kept s₀ s) (c : Nat) (r : RangeReq) (st : Status) (reason : Nat) :
    Kept s₀ (State.rangeCancel s c r st reason) := by
  unfold State.rangeCancel
  repeat' first
    | with_reducible exact h
    | with_reducible assumption
    | with_reducible intro _
    | with_reducible apply kept_ite
    | with_reducible apply State.modSlide_kept
    | with_reducible apply State.rangeReply_kept
    | with_reducible apply kept_bits
    | simp only [kept_mk_eq]
    | split

theorem State.loadQ_kept {s₀ s : State} (h : Kept s₀ s) (c : Nat) (q : Int) :
    Kept s₀ (State.loadQ s c q) := by
  unfold State.loadQ
  repeat' first
    | with_reducible exact h
    | with_reducible assumption
    | with_reducible intro _
    | with_reducible apply kept_ite
    | with_reducible apply State.modCh_kept
    | with_reducible apply kept_bits
    | simp only [kept_mk_eq]
    | split

theorem State.lawPass_kept {s₀ s : State} (h : Kept s₀ s) (c : Nat) :
    Kept s₀ (State.lawPass s c) := by
  unfold State.lawPass
  repeat' first
    | with_reducible exact h
    | with_reducible assumption
    | with_reducible intro _
    | with_reducible apply kept_ite
    | with_reducible apply kept_ite_fst
    | with_reducible refine kept_of_fst (by assumption) ?_
    | with_reducible apply State.modCh_kept
    | with_reducible apply kept_bits
    | simp only [kept_mk_eq]
    | split

theorem State.slideMake_kept {s₀ s : State} (h : Kept s₀ s) (c : Nat) (r : RangeReq) :
    Kept s₀ (State.slideMake s c r) := by
  unfold State.slideMake
  repeat' first
    | with_reducible exact h
    | with_reducible assumption
    | with_reducible intro _
    | with_reducible apply kept_ite
    | with_reducible apply kept_ite_fst
    | with_reducible refine kept_of_fst (by assumption) ?_
    | with_reducible apply kept_ite_snd
    | with_reducible refine kept_of_snd (by assumption) ?_
    | with_reducible apply kept_getD
    | with_reducible apply State.setRanges_kept
    | with_reducible apply State.loadQ_kept
    | with_reducible apply State.modCh_kept
    | with_reducible apply kept_bits
    | simp only [kept_mk_eq]
    | split

theorem State.slideBreak_kept {s₀ s : State} (h : Kept s₀ s) (c : Nat) :
    Kept s₀ (State.slideBreak s c) := by
  unfold State.slideBreak
  repeat' first
    | with_reducible exact h
    | with_reducible assumption
    | with_reducible intro _
    | with_reducible apply kept_ite
    | with_reducible apply State.loadQ_kept
    | with_reducible apply State.modCh_kept
    | with_reducible apply kept_bits
    | simp only [kept_mk_eq]
    | split

theorem State.slideStart_kept {s₀ s : State} (h : Kept s₀ s) (c : Nat) (r : RangeReq) :
    Kept s₀ (State.slideStart s c r) := by
  unfold State.slideStart
  repeat' first
    | with_reducible exact h
    | with_reducible assumption
    | with_reducible intro _
    | with_reducible apply kept_ite
    | with_reducible apply kept_ite_fst
    | with_reducible refine kept_of_fst (by assumption) ?_
    | with_reducible apply kept_ite_snd
    | with_reducible refine kept_of_snd (by assumption) ?_
    | with_reducible apply State.modSlide_kept
    | with_reducible apply State.modCh_kept
    | with_reducible apply State.slideMake_kept
    | with_reducible apply kept_bits
    | simp only [kept_mk_eq]
    | split

theorem State.rangeDirect_kept {s₀ s : State} (h : Kept s₀ s) (c : Nat) (r : RangeReq) :
    Kept s₀ (State.rangeDirect s c r) := by
  unfold State.rangeDirect
  repeat' first
    | with_reducible exact h
    | with_reducible assumption
    | with_reducible intro _
    | with_reducible apply kept_ite
    | with_reducible apply kept_ite_fst
    | with_reducible refine kept_of_fst (by assumption) ?_
    | with_reducible apply kept_ite_snd
    | with_reducible refine kept_of_snd (by assumption) ?_
    | with_reducible apply State.setRanges_kept
    | with_reducible apply State.rangeReply_kept
    | with_reducible apply kept_bits
    | simp only [kept_mk_eq]
    | split

theorem State.rangeApply_kept {s₀ s : State} (h : Kept s₀ s) (c : Nat) (r : RangeReq) :
    Kept s₀ (State.rangeApply s c r) := by
  unfold State.rangeApply
  repeat' first
    | with_reducible exact h
    | with_reducible assumption
    | with_reducible intro _
    | with_reducible apply kept_ite
    | with_reducible apply kept_ite_fst
    | with_reducible refine kept_of_fst (by assumption) ?_
    | with_reducible apply State.rangeRefuse_kept
    | with_reducible apply State.rangeDirect_kept
    | with_reducible apply State.idle_kept
    | with_reducible apply State.modSlide_kept
    | with_reducible apply State.slideStart_kept
    | with_reducible apply kept_bits
    | simp only [kept_mk_eq]
    | split

theorem State.slideReply_kept {s₀ s : State} (h : Kept s₀ s) (c : Nat) (l : Slide) (st : Status) (reason : Nat) :
    Kept s₀ (State.slideReply s c l st reason) := by
  unfold State.slideReply
  repeat' first
    | with_reducible exact h
    | with_reducible assumption
    | with_reducible intro _
    | with_reducible apply kept_ite
    | with_reducible apply kept_ite_fst
    | with_reducible refine kept_of_fst (by assumption) ?_
    | with_reducible apply State.rangeCancel_kept
    | with_reducible apply State.rangeReply_kept
    | with_reducible apply kept_bits
    | simp only [kept_mk_eq]
    | split

theorem State.pendCancel_kept {s₀ s : State} (h : Kept s₀ s) (c : Nat) (st : Status) (reason : Nat) :
    Kept s₀ (State.pendCancel s c st reason) := by
  unfold State.pendCancel
  repeat' first
    | with_reducible exact h
    | with_reducible assumption
    | with_reducible intro _
    | with_reducible apply kept_ite
    | with_reducible apply kept_ite_fst
    | with_reducible refine kept_of_fst (by assumption) ?_
    | with_reducible apply State.rangeCancel_kept
    | with_reducible apply State.modSlide_kept
    | with_reducible apply kept_bits
    | simp only [kept_mk_eq]
    | split

theorem State.slideDone_kept {s₀ s : State} (h : Kept s₀ s) (c : Nat) :
    Kept s₀ (State.slideDone s c) := by
  unfold State.slideDone
  repeat' first
    | with_reducible exact h
    | with_reducible assumption
    | with_reducible intro _
    | with_reducible apply kept_ite
    | with_reducible apply State.inc_kept
    | with_reducible apply State.modCh_kept
    | with_reducible apply State.idle_kept
    | with_reducible apply State.slideReply_kept
    | with_reducible apply kept_bits
    | simp only [kept_mk_eq]
    | split

theorem State.pathNow_kept {s₀ s : State} (h : Kept s₀ s) (c : Nat) :
    Kept s₀ (State.pathNow s c) := by
  unfold State.pathNow
  repeat' first
    | with_reducible exact h
    | with_reducible assumption
    | with_reducible intro _
    | with_reducible apply kept_ite
    | with_reducible apply State.modCh_kept
    | with_reducible apply kept_bits
    | simp only [kept_mk_eq]
    | split

theorem State.slideEnd_kept {s₀ s : State} (h : Kept s₀ s) (c : Nat) (st : Status) (reason : Nat) :
    Kept s₀ (State.slideEnd s c st reason) := by
  unfold State.slideEnd
  repeat' first
    | with_reducible exact h
    | with_reducible assumption
    | with_reducible intro _
    | with_reducible apply kept_ite
    | with_reducible apply kept_ite_fst
    | with_reducible refine kept_of_fst (by assumption) ?_
    | with_reducible apply State.pendCancel_kept
    | with_reducible apply State.modSlide_kept
    | with_reducible apply State.idle_kept
    | with_reducible apply State.pathNow_kept
    | with_reducible apply State.slideReply_kept
    | with_reducible apply State.rangeCancel_kept
    | with_reducible apply kept_bits
    | simp only [kept_mk_eq]
    | split

theorem State.slideMute_kept {s₀ s : State} (h : Kept s₀ s) (c : Nat) (st : Status) (reason : Nat) :
    Kept s₀ (State.slideMute s c st reason) := by
  unfold State.slideMute
  repeat' first
    | with_reducible exact h
    | with_reducible assumption
    | with_reducible intro _
    | with_reducible apply kept_ite
    | with_reducible apply kept_ite_fst
    | with_reducible refine kept_of_fst (by assumption) ?_
    | with_reducible apply State.pendCancel_kept
    | with_reducible apply State.slideEnd_kept
    | with_reducible apply kept_bits
    | simp only [kept_mk_eq]
    | split

theorem State.slideOff_kept {s₀ s : State} (h : Kept s₀ s) (c : Nat) :
    Kept s₀ (State.slideOff s c) := by
  unfold State.slideOff
  repeat' first
    | with_reducible exact h
    | with_reducible assumption
    | with_reducible intro _
    | with_reducible apply kept_ite
    | with_reducible apply kept_ite_fst
    | with_reducible refine kept_of_fst (by assumption) ?_
    | with_reducible apply State.pendCancel_kept
    | with_reducible apply State.slideDone_kept
    | with_reducible apply State.slideEnd_kept
    | with_reducible apply kept_bits
    | simp only [kept_mk_eq]
    | split

end Sys2Proof.Machine
end

