-- ==== Sys2Proof/Laws/OutputKept.lean ====
section
/-! SUPPORT. What the operations of Machine/Output.lean keep. -/
namespace Sys2Proof.Machine
open Sys2Proof

theorem State.switches_kept {s₀ s : State} (h : Kept s₀ s) (c : Nat) :
    Kept s₀ (State.switches s c) := by
  unfold State.switches
  repeat' first
    | with_reducible exact h
    | with_reducible assumption
    | with_reducible intro _
    | with_reducible apply kept_ite
    | with_reducible apply State.modCh_kept
    | with_reducible apply kept_bits
    | simp only [kept_mk_eq]
    | split

theorem State.loadCode_kept {s₀ s : State} (h : Kept s₀ s) (c : Nat) :
    Kept s₀ (State.loadCode s c) := by
  unfold State.loadCode
  repeat' first
    | with_reducible exact h
    | with_reducible assumption
    | with_reducible intro _
    | with_reducible apply kept_ite
    | with_reducible apply State.modCh_kept
    | with_reducible apply kept_bits
    | simp only [kept_mk_eq]
    | split

theorem State.replies_kept {s₀ s : State} (h : Kept s₀ s) (l : List Origin) (st : Status) :
    Kept s₀ (State.replies s l st) := by
  unfold State.replies
  repeat' first
    | with_reducible exact h
    | with_reducible assumption
    | with_reducible intro _
    | with_reducible apply kept_ite
    | with_reducible apply kept_each
    | with_reducible apply State.reply_kept
    | with_reducible apply kept_bits
    | simp only [kept_mk_eq]
    | split

theorem State.reserve_kept {s₀ s : State} (h : Kept s₀ s) (c n : Nat) :
    Kept s₀ (State.reserve s c n).1 := by
  unfold State.reserve
  repeat' first
    | with_reducible exact h
    | with_reducible assumption
    | with_reducible intro _
    | with_reducible apply kept_ite
    | with_reducible apply kept_ite_fst
    | with_reducible refine kept_of_fst (by assumption) ?_
    | with_reducible apply State.modCh_kept
    | with_reducible apply kept_bits
    | simp only [kept_mk_eq]
    | split

theorem State.armReview_kept {s₀ s : State} (h : Kept s₀ s) (c : Nat) :
    Kept s₀ (State.armReview s c).1 := by
  unfold State.armReview
  repeat' first
    | with_reducible exact h
    | with_reducible assumption
    | with_reducible intro _
    | with_reducible apply kept_ite
    | with_reducible apply kept_ite_fst
    | with_reducible refine kept_of_fst (by assumption) ?_
    | with_reducible apply State.reserve_kept
    | with_reducible apply kept_bits
    | simp only [kept_mk_eq]
    | split

theorem State.declReview_kept {s₀ s : State} (h : Kept s₀ s) (c n : Nat) :
    Kept s₀ (State.declReview s c n).1 := by
  unfold State.declReview
  repeat' first
    | with_reducible exact h
    | with_reducible assumption
    | with_reducible intro _
    | with_reducible apply kept_ite
    | with_reducible apply kept_ite_fst
    | with_reducible refine kept_of_fst (by assumption) ?_
    | with_reducible apply State.reserve_kept
    | with_reducible apply kept_bits
    | simp only [kept_mk_eq]
    | split

theorem State.armAt_kept {s₀ s : State} (h : Kept s₀ s) (c : Nat) (o : Origin) (adm : Option Bool) :
    Kept s₀ (State.armAt s c o adm) := by
  unfold State.armAt
  repeat' first
    | with_reducible exact h
    | with_reducible assumption
    | with_reducible intro _
    | with_reducible apply kept_ite
    | with_reducible apply kept_ite_fst
    | with_reducible refine kept_of_fst (by assumption) ?_
    | with_reducible apply kept_getD
    | with_reducible apply State.reply_kept
    | with_reducible apply State.setOut_kept
    | with_reducible apply State.refuseBudget_kept
    | with_reducible apply State.switches_kept
    | with_reducible apply State.modCh_kept
    | with_reducible apply kept_bits
    | simp only [kept_mk_eq]
    | split

theorem State.enableAt_kept {s₀ s : State} (h : Kept s₀ s) (c : Nat) (o : Origin) :
    Kept s₀ (State.enableAt s c o) := by
  unfold State.enableAt
  repeat' first
    | with_reducible exact h
    | with_reducible assumption
    | with_reducible intro _
    | with_reducible apply kept_ite
    | with_reducible apply kept_ite_fst
    | with_reducible refine kept_of_fst (by assumption) ?_
    | with_reducible apply State.reply_kept
    | with_reducible apply State.setOut_kept
    | with_reducible apply State.switches_kept
    | with_reducible apply State.loadCode_kept
    | with_reducible apply State.modCh_kept
    | with_reducible apply kept_bits
    | simp only [kept_mk_eq]
    | split

theorem State.resumeAt_kept {s₀ s : State} (h : Kept s₀ s) (c : Nat) (o : Origin) :
    Kept s₀ (State.resumeAt s c o) := by
  unfold State.resumeAt
  repeat' first
    | with_reducible exact h
    | with_reducible assumption
    | with_reducible intro _
    | with_reducible apply kept_ite
    | with_reducible apply kept_ite_fst
    | with_reducible refine kept_of_fst (by assumption) ?_
    | with_reducible apply State.reply_kept
    | with_reducible apply State.setOut_kept
    | with_reducible apply State.loadCode_kept
    | with_reducible apply kept_bits
    | simp only [kept_mk_eq]
    | split

theorem State.muteAt_kept {s₀ s : State} (h : Kept s₀ s) (c cause : Nat) : ∀ t, s.muteAt c cause = some t → Kept s₀ t := by
  intro t ht
  unfold State.muteAt at ht
  simp only at ht
  split at ht
  · cases ht
    exact State.slideMute_kept (State.modCh_kept (State.setOut_kept h _ _ _ _) _ _) _ _ _
  · cases ht

theorem State.rampOpen_kept {s₀ s : State} (h : Kept s₀ s) (c : Nat) :
    Kept s₀ (State.rampOpen s c) := by
  unfold State.rampOpen
  repeat' first
    | with_reducible exact h
    | with_reducible assumption
    | with_reducible intro _
    | with_reducible apply kept_ite
    | with_reducible apply State.modCh_kept
    | with_reducible apply kept_bits
    | simp only [kept_mk_eq]
    | split

theorem State.rampHand_kept {s₀ s : State} (h : Kept s₀ s) (c : Nat) :
    Kept s₀ (State.rampHand s c) := by
  unfold State.rampHand
  repeat' first
    | with_reducible exact h
    | with_reducible assumption
    | with_reducible intro _
    | with_reducible apply kept_ite
    | with_reducible apply State.rampOpen_kept
    | with_reducible apply kept_bits
    | simp only [kept_mk_eq]
    | split

theorem State.rampStart_kept {s₀ s : State} (h : Kept s₀ s) (c : Nat) (cause : Nat) (a : List Origin) :
    Kept s₀ (State.rampStart s c cause a) := by
  unfold State.rampStart
  repeat' first
    | with_reducible exact h
    | with_reducible assumption
    | with_reducible intro _
    | with_reducible apply kept_ite
    | with_reducible apply State.slideOff_kept
    | with_reducible apply State.chtStopIf_kept
    | with_reducible apply State.modCh_kept
    | with_reducible apply State.loadCode_kept
    | with_reducible apply State.rampOpen_kept
    | with_reducible apply kept_bits
    | simp only [kept_mk_eq]
    | split

theorem State.offDone_kept {s₀ s : State} (h : Kept s₀ s) (c : Nat) :
    Kept s₀ (State.offDone s c) := by
  unfold State.offDone
  repeat' first
    | with_reducible exact h
    | with_reducible assumption
    | with_reducible intro _
    | with_reducible apply kept_ite
    | with_reducible apply State.setOut_kept
    | with_reducible apply State.switches_kept
    | with_reducible apply State.modCh_kept
    | with_reducible apply State.replies_kept
    | with_reducible apply kept_bits
    | simp only [kept_mk_eq]
    | split

theorem State.offAt_kept {s₀ s : State} (h : Kept s₀ s) (c : Nat) (o : Origin) :
    Kept s₀ (State.offAt s c o) := by
  unfold State.offAt
  repeat' first
    | with_reducible exact h
    | with_reducible assumption
    | with_reducible intro _
    | with_reducible apply kept_ite
    | with_reducible apply kept_ite_fst
    | with_reducible refine kept_of_fst (by assumption) ?_
    | with_reducible apply State.reply_kept
    | with_reducible apply State.setOut_kept
    | with_reducible apply State.switches_kept
    | with_reducible apply State.chtStopIf_kept
    | with_reducible apply State.modCh_kept
    | with_reducible apply State.answers_kept
    | with_reducible apply State.rampStart_kept
    | with_reducible apply kept_bits
    | simp only [kept_mk_eq]
    | split

theorem State.outAt_kept {s₀ s : State} (h : Kept s₀ s) (c k : Nat) (o : Origin) (adm : Option Bool) :
    Kept s₀ (State.outAt s c k o adm) := by
  unfold State.outAt
  repeat' first
    | with_reducible exact h
    | with_reducible assumption
    | with_reducible intro _
    | with_reducible apply kept_ite
    | with_reducible apply kept_ite_fst
    | with_reducible refine kept_of_fst (by assumption) ?_
    | with_reducible refine State.muteAt_kept ?_ _ _ _ (by assumption)
    | with_reducible apply State.offAt_kept
    | with_reducible apply State.armAt_kept
    | with_reducible apply State.enableAt_kept
    | with_reducible apply State.resumeAt_kept
    | with_reducible apply State.reply_kept
    | with_reducible apply kept_bits
    | simp only [kept_mk_eq]
    | split

theorem State.safeEnter_kept {s₀ s : State} (h : Kept s₀ s) (c : Nat) :
    Kept s₀ (State.safeEnter s c) := by
  unfold State.safeEnter
  repeat' first
    | with_reducible exact h
    | with_reducible assumption
    | with_reducible intro _
    | with_reducible apply kept_ite
    | with_reducible apply State.chtStopIf_kept
    | with_reducible apply State.slideEnd_kept
    | with_reducible apply State.setOut_kept
    | with_reducible apply State.modCh_kept
    | with_reducible apply State.switches_kept
    | with_reducible apply State.answers_kept
    | with_reducible apply State.replies_kept
    | with_reducible apply kept_bits
    | simp only [kept_mk_eq]
    | split

theorem State.retire_kept {s₀ s : State} (h : Kept s₀ s) (c : Nat) :
    Kept s₀ (State.retire s c) := by
  unfold State.retire
  repeat' first
    | with_reducible exact h
    | with_reducible assumption
    | with_reducible intro _
    | with_reducible apply kept_ite
    | with_reducible apply State.chtStopIf_kept
    | with_reducible apply State.slideEnd_kept
    | with_reducible apply State.setOut_kept
    | with_reducible apply State.switches_kept
    | with_reducible apply State.modCh_kept
    | with_reducible apply State.answers_kept
    | with_reducible apply State.replies_kept
    | with_reducible apply State.releaseEp_kept
    | with_reducible apply kept_bits
    | simp only [kept_mk_eq]
    | split

theorem State.countHeld_kept {s₀ s : State} (h : Kept s₀ s) (c : Nat) :
    Kept s₀ (State.countHeld s c) := by
  unfold State.countHeld
  repeat' first
    | with_reducible exact h
    | with_reducible assumption
    | with_reducible intro _
    | with_reducible apply kept_ite
    | with_reducible apply State.inc_kept
    | with_reducible apply State.modCh_kept
    | with_reducible apply kept_bits
    | simp only [kept_mk_eq]
    | split

theorem State.undo_kept {s₀ s : State} (h : Kept s₀ s) (c : Nat) :
    Kept s₀ (State.undo s c) := by
  unfold State.undo
  repeat' first
    | with_reducible exact h
    | with_reducible assumption
    | with_reducible intro _
    | with_reducible apply kept_ite
    | with_reducible apply State.modCh_kept
    | with_reducible apply kept_bits
    | simp only [kept_mk_eq]
    | split

theorem State.discard_kept {s₀ s : State} (h : Kept s₀ s) (c : Nat) :
    Kept s₀ (State.discard s c) := by
  unfold State.discard
  repeat' first
    | with_reducible exact h
    | with_reducible assumption
    | with_reducible intro _
    | with_reducible apply kept_ite
    | with_reducible apply State.undo_kept
    | with_reducible apply State.countHeld_kept
    | with_reducible apply kept_bits
    | simp only [kept_mk_eq]
    | split

theorem State.takeover_kept {s₀ s : State} (h : Kept s₀ s) (c : Nat) :
    Kept s₀ (State.takeover s c) := by
  unfold State.takeover
  repeat' first
    | with_reducible exact h
    | with_reducible assumption
    | with_reducible intro _
    | with_reducible apply kept_ite
    | with_reducible apply State.slideEnd_kept
    | with_reducible apply State.modGr_kept
    | with_reducible apply State.inc_kept
    | with_reducible apply State.countHeld_kept
    | with_reducible apply State.modCh_kept
    | with_reducible apply kept_bits
    | simp only [kept_mk_eq]
    | split

theorem State.calEvict_kept {s₀ s : State} (h : Kept s₀ s) (g : Nat) :
    Kept s₀ (State.calEvict s g) := by
  unfold State.calEvict
  repeat' first
    | with_reducible exact h
    | with_reducible assumption
    | with_reducible intro _
    | with_reducible apply kept_ite
    | with_reducible apply kept_getD
    | with_reducible refine State.muteAt_kept ?_ _ _ _ (by assumption)
    | with_reducible apply State.inc_kept
    | with_reducible apply State.modCh_kept
    | with_reducible apply State.modGr_kept
    | with_reducible apply State.push_kept
    | with_reducible apply State.calReturn_kept
    | with_reducible apply kept_bits
    | simp only [kept_mk_eq]
    | split

theorem State.sliceFenceAt_kept {s₀ s : State} (h : Kept s₀ s) (g p : Nat) :
    Kept s₀ (State.sliceFenceAt s g p) := by
  unfold State.sliceFenceAt
  repeat' first
    | with_reducible exact h
    | with_reducible assumption
    | with_reducible intro _
    | with_reducible apply kept_ite
    | with_reducible apply kept_getD
    | with_reducible refine State.muteAt_kept ?_ _ _ _ (by assumption)
    | with_reducible apply State.retire_kept
    | with_reducible apply State.modGr_kept
    | with_reducible apply State.calEvict_kept
    | with_reducible apply State.modCh_kept
    | with_reducible apply State.takeover_kept
    | with_reducible apply kept_bits
    | simp only [kept_mk_eq]
    | split

end Sys2Proof.Machine
end

