-- ==== Sys2Proof/Laws/SafeKept.lean ====
section
/-! SUPPORT. What the operations of Machine/Safe.lean keep. -/
namespace Sys2Proof.Machine
open Sys2Proof

theorem State.calActivate_kept {s₀ s : State} (h : Kept s₀ s) (copy : SMap (Option CalElem)) :
    Kept s₀ (State.calActivate s copy) := by
  unfold State.calActivate
  repeat' first
    | with_reducible exact h
    | with_reducible assumption
    | with_reducible intro _
    | with_reducible apply kept_ite
    | with_reducible apply State.wr_kept
    | with_reducible apply kept_bits
    | simp only [kept_mk_eq]
    | split

theorem State.calUndo_kept {s₀ s : State} (h : Kept s₀ s) (g : Nat) :
    Kept s₀ (State.calUndo s g) := by
  unfold State.calUndo
  repeat' first
    | with_reducible exact h
    | with_reducible assumption
    | with_reducible intro _
    | with_reducible apply kept_ite
    | with_reducible apply State.modGr_kept
    | with_reducible apply State.calActivate_kept
    | with_reducible apply kept_bits
    | simp only [kept_mk_eq]
    | split

theorem State.calRelease_kept {s₀ s : State} (h : Kept s₀ s) (g : Nat) :
    Kept s₀ (State.calRelease s g) := by
  unfold State.calRelease
  repeat' first
    | with_reducible exact h
    | with_reducible assumption
    | with_reducible intro _
    | with_reducible apply kept_ite
    | with_reducible apply kept_each
    | with_reducible apply State.modCh_kept
    | with_reducible apply State.switches_kept
    | with_reducible apply kept_bits
    | simp only [kept_mk_eq]
    | split

theorem State.calEnd_kept {s₀ s : State} (h : Kept s₀ s) (g result : Nat) (st : Status) :
    Kept s₀ (State.calEnd s g result st) := by
  unfold State.calEnd
  repeat' first
    | with_reducible exact h
    | with_reducible assumption
    | with_reducible intro _
    | with_reducible apply kept_ite
    | with_reducible apply kept_ite_fst
    | with_reducible refine kept_of_fst (by assumption) ?_
    | with_reducible apply State.modGr_kept
    | with_reducible apply State.answer_kept
    | with_reducible apply State.report_kept
    | with_reducible apply State.calUndo_kept
    | with_reducible apply State.wr_kept
    | with_reducible apply State.calRelease_kept
    | with_reducible apply State.push_kept
    | with_reducible apply State.calReturn_kept
    | with_reducible apply kept_bits
    | simp only [kept_mk_eq]
    | split

theorem State.copyLogs_kept {s₀ s : State} (h : Kept s₀ s)  :
    Kept s₀ (State.copyLogs s) := by
  unfold State.copyLogs
  repeat' first
    | with_reducible exact h
    | with_reducible assumption
    | with_reducible intro _
    | with_reducible apply kept_ite
    | with_reducible apply State.nvmDrop_kept
    | with_reducible apply State.nvmPut_kept
    | with_reducible apply kept_bits
    | simp only [kept_mk_eq]
    | split

theorem State.pageDone_kept {s₀ s : State} (h : Kept s₀ s) (p : Nat × Nat) :
    Kept s₀ (State.pageDone s p) := by
  unfold State.pageDone
  repeat' first
    | with_reducible exact h
    | with_reducible assumption
    | with_reducible intro _
    | with_reducible apply kept_ite
    | with_reducible apply kept_ite_fst
    | with_reducible refine kept_of_fst (by assumption) ?_
    | with_reducible apply kept_foldl
    | with_reducible apply kept_bits
    | simp only [kept_mk_eq]
    | split

theorem State.commitStart_kept {s₀ s : State} (h : Kept s₀ s) (a : List Ans) :
    Kept s₀ (State.commitStart s a) := by
  unfold State.commitStart
  repeat' first
    | with_reducible exact h
    | with_reducible assumption
    | with_reducible intro _
    | with_reducible apply kept_ite
    | with_reducible apply kept_ite_fst
    | with_reducible refine kept_of_fst (by assumption) ?_
    | with_reducible apply State.nvmDrop_kept
    | with_reducible apply State.nvmPut_kept
    | with_reducible apply kept_bits
    | simp only [kept_mk_eq]
    | split

theorem State.safeIsolated_kept {s₀ s : State} (h : Kept s₀ s)  :
    Kept s₀ (State.safeIsolated s) := by
  unfold State.safeIsolated
  repeat' first
    | with_reducible exact h
    | with_reducible assumption
    | with_reducible intro _
    | with_reducible apply kept_ite
    | with_reducible apply kept_each
    | with_reducible refine State.restart_kept ?_ (by decide)
    | with_reducible apply State.modHold_kept
    | with_reducible apply State.answers_kept
    | with_reducible apply State.endAll_kept
    | with_reducible apply State.addTxn_kept
    | with_reducible apply kept_bits
    | simp only [kept_mk_eq]
    | split

theorem State.safeAtOnce_kept {s₀ s : State} (h : Kept s₀ s) (c : Nat) :
    Kept s₀ (State.safeAtOnce s c) := by
  unfold State.safeAtOnce
  repeat' first
    | with_reducible exact h
    | with_reducible assumption
    | with_reducible intro _
    | with_reducible apply kept_ite
    | with_reducible apply State.safeEnter_kept
    | with_reducible apply State.modCh_kept
    | with_reducible apply State.switches_kept
    | with_reducible apply kept_bits
    | simp only [kept_mk_eq]
    | split

theorem State.laneSend_kept {s₀ s : State} (h : Kept s₀ s) (lane : Nat) (c : PairCell) :
    Kept s₀ (State.laneSend s lane c) := by
  unfold State.laneSend
  repeat' first
    | with_reducible exact h
    | with_reducible assumption
    | with_reducible intro _
    | with_reducible apply kept_ite
    | with_reducible apply kept_ite_fst
    | with_reducible refine kept_of_fst (by assumption) ?_
    | with_reducible apply State.send_kept
    | with_reducible apply kept_bits
    | simp only [kept_mk_eq]
    | split

theorem State.sendCell_kept {s₀ s : State} (h : Kept s₀ s) (c : PairCell) :
    Kept s₀ (State.sendCell s c) := by
  unfold State.sendCell
  repeat' first
    | with_reducible exact h
    | with_reducible assumption
    | with_reducible intro _
    | with_reducible apply kept_ite
    | with_reducible apply State.laneSend_kept
    | with_reducible apply kept_bits
    | simp only [kept_mk_eq]
    | split

theorem State.giveEnd_kept {s₀ s : State} (h : Kept s₀ s) (g : Nat) :
    Kept s₀ (State.giveEnd s g) := by
  unfold State.giveEnd
  repeat' first
    | with_reducible exact h
    | with_reducible assumption
    | with_reducible intro _
    | with_reducible apply kept_ite
    | with_reducible apply kept_ite_fst
    | with_reducible refine kept_of_fst (by assumption) ?_
    | with_reducible apply State.modGr_kept
    | with_reducible apply State.answer_kept
    | with_reducible apply kept_bits
    | simp only [kept_mk_eq]
    | split

theorem State.pushAt_kept {s₀ s : State} (h : Kept s₀ s) (g ns : Nat) (w : What) :
    Kept s₀ (State.pushAt s g ns w) := by
  unfold State.pushAt
  repeat' first
    | with_reducible exact h
    | with_reducible assumption
    | with_reducible intro _
    | with_reducible apply kept_ite
    | with_reducible apply State.modGr_kept
    | with_reducible apply State.push_kept
    | with_reducible apply kept_bits
    | simp only [kept_mk_eq]
    | split

theorem State.failCellOut_kept {s₀ s : State} (h : Kept s₀ s) (peer : List Nat) :
    Kept s₀ (State.failCellOut s peer) := by
  unfold State.failCellOut
  repeat' first
    | with_reducible exact h
    | with_reducible assumption
    | with_reducible intro _
    | with_reducible apply kept_ite
    | with_reducible apply State.sendCell_kept
    | with_reducible apply kept_bits
    | simp only [kept_mk_eq]
    | split

theorem State.sleepStop_kept {s₀ s : State} (h : Kept s₀ s)  :
    Kept s₀ (State.sleepStop s) := by
  unfold State.sleepStop
  repeat' first
    | with_reducible exact h
    | with_reducible assumption
    | with_reducible intro _
    | with_reducible apply kept_ite
    | with_reducible apply State.wr_kept
    | with_reducible apply State.runState_kept
    | with_reducible apply State.answer_kept
    | with_reducible apply kept_bits
    | simp only [kept_mk_eq]
    | split

theorem State.safeWake_kept {s₀ s : State} (h : Kept s₀ s)  :
    Kept s₀ (State.safeWake s) := by
  unfold State.safeWake
  repeat' first
    | with_reducible exact h
    | with_reducible assumption
    | with_reducible intro _
    | with_reducible apply kept_ite
    | with_reducible apply State.wakeBy_kept
    | with_reducible apply kept_bits
    | simp only [kept_mk_eq]
    | split

theorem State.safeTrip_kept {s₀ s : State} (h : Kept s₀ s)  :
    Kept s₀ (State.safeTrip s) := by
  unfold State.safeTrip
  repeat' first
    | with_reducible exact h
    | with_reducible assumption
    | with_reducible intro _
    | with_reducible apply kept_ite
    | with_reducible apply kept_each
    | with_reducible apply State.failCellOut_kept
    | with_reducible apply State.giveEnd_kept
    | with_reducible apply State.calEnd_kept
    | with_reducible apply State.chtStopIf_kept
    | with_reducible apply State.safeAtOnce_kept
    | with_reducible apply State.safeEnter_kept
    | with_reducible apply State.modGr_kept
    | with_reducible apply State.sleepStop_kept
    | with_reducible apply State.safeWake_kept
    | with_reducible apply State.commitStart_kept
    | with_reducible apply State.safeIsolated_kept
    | with_reducible apply kept_bits
    | with_reducible apply KeptBits.setLatch
    | simp only [kept_mk_eq]
    | split

theorem State.safeEntry_kept {s₀ s : State} (h : Kept s₀ s) (r : Report) :
    Kept s₀ (State.safeEntry s r) := by
  unfold State.safeEntry
  repeat' first
    | with_reducible exact h
    | with_reducible assumption
    | with_reducible intro _
    | with_reducible apply kept_ite
    | with_reducible apply State.safeTrip_kept
    | with_reducible apply kept_bits
    | simp only [kept_mk_eq]
    | split

theorem State.safeReq_kept {s₀ s : State} (h : Kept s₀ s) (src addr detail : Nat) :
    Kept s₀ (State.safeReq s src addr detail) := by
  unfold State.safeReq
  repeat' first
    | with_reducible exact h
    | with_reducible assumption
    | with_reducible intro _
    | with_reducible apply kept_ite
    | with_reducible apply State.report_kept
    | with_reducible apply State.safeEntry_kept
    | with_reducible apply kept_bits
    | simp only [kept_mk_eq]
    | split

end Sys2Proof.Machine
end

