-- ==== Sys2Proof/Laws/RouterKept.lean ====
section
/-! SUPPORT. What the operations of Machine/Router.lean keep. -/
namespace Sys2Proof.Machine
open Sys2Proof

theorem State.trigTake_kept {s₀ s : State} (h : Kept s₀ s) (n : Nat) : Kept s₀ (s.trigTake n) := by
  refine ⟨h.queue, h.latched, h.asserts, fun a => ⟨?_, (h.tables a).2⟩⟩
  refine SMap.wfFrom_map (fun _ => ({} : Chan)) (fun k v => { v with cht := takeTrig n (s.frozen k) v.cht }) ?_ s.chan none (h.tables a).1
  intro k v hv he
  have hc : takeTrig n (s.frozen k) v.cht = {} := congrArg Chan.cht he
  exact hv (Eq.trans (congrArg (fun x => { v with cht := x }) ((takeTrig_idle hc).trans hc.symm)) he)

theorem State.startSwitch_kept {s₀ s : State} (h : Kept s₀ s) (w : Switch) :
    Kept s₀ (State.startSwitch s w) := by
  unfold State.startSwitch
  repeat' first
    | with_reducible exact h
    | with_reducible assumption
    | with_reducible intro _
    | with_reducible apply kept_ite
    | with_reducible apply kept_ite_fst
    | with_reducible refine kept_of_fst (by assumption) ?_
    | with_reducible apply kept_bits
    | simp only [kept_mk_eq]
    | split

theorem State.mtrgoRise_kept {s₀ s : State} (h : Kept s₀ s)  :
    Kept s₀ (State.mtrgoRise s) := by
  unfold State.mtrgoRise
  repeat' first
    | with_reducible exact h
    | with_reducible assumption
    | with_reducible intro _
    | with_reducible apply kept_ite
    | with_reducible apply State.inc_kept
    | with_reducible apply kept_bits
    | simp only [kept_mk_eq]
    | split

theorem State.evoAct_kept {s₀ s : State} (h : Kept s₀ s) (ball k : Nat) :
    Kept s₀ (State.evoAct s ball k) := by
  unfold State.evoAct
  repeat' first
    | with_reducible exact h
    | with_reducible assumption
    | with_reducible intro _
    | with_reducible apply kept_ite
    | with_reducible apply kept_bits
    | simp only [kept_mk_eq]
    | split

theorem State.sleepDrop_kept {s₀ s : State} (h : Kept s₀ s) (o : Origin) :
    Kept s₀ (State.sleepDrop s o) := by
  unfold State.sleepDrop
  repeat' first
    | with_reducible exact h
    | with_reducible assumption
    | with_reducible intro _
    | with_reducible apply kept_ite
    | with_reducible apply kept_ite_fst
    | with_reducible refine kept_of_fst (by assumption) ?_
    | with_reducible apply State.inc_kept
    | with_reducible apply State.asrtStep_kept
    | with_reducible apply kept_bits
    | simp only [kept_mk_eq]
    | split

theorem State.rangeHeld_kept {s₀ s : State} (h : Kept s₀ s) (c : Nat) (r : RangeReq) :
    Kept s₀ (State.rangeHeld s c r) := by
  unfold State.rangeHeld
  repeat' first
    | with_reducible exact h
    | with_reducible assumption
    | with_reducible intro _
    | with_reducible apply kept_ite
    | with_reducible apply kept_ite_fst
    | with_reducible refine kept_of_fst (by assumption) ?_
    | with_reducible apply kept_ite_snd
    | with_reducible refine kept_of_snd (by assumption) ?_
    | with_reducible apply kept_getD
    | with_reducible apply State.rangeRefuse_kept
    | with_reducible apply kept_bits
    | simp only [kept_mk_eq]
    | split

theorem State.actOut_kept {s₀ s : State} (h : Kept s₀ s) (k : Nat) (o : Origin) (c : Nat) :
    Kept s₀ (State.actOut s k o c) := by
  unfold State.actOut
  repeat' first
    | with_reducible exact h
    | with_reducible assumption
    | with_reducible intro _
    | with_reducible apply kept_ite
    | with_reducible apply kept_ite_fst
    | with_reducible refine kept_of_fst (by assumption) ?_
    | with_reducible apply kept_ite_snd
    | with_reducible refine kept_of_snd (by assumption) ?_
    | with_reducible apply State.reply_kept
    | with_reducible apply State.armReview_kept
    | with_reducible apply State.push_kept
    | with_reducible apply kept_bits
    | simp only [kept_mk_eq]
    | split

theorem State.actCht_kept {s₀ s : State} (h : Kept s₀ s) (k : Nat) (o : Origin) (c : Nat) :
    Kept s₀ (State.actCht s k o c) := by
  unfold State.actCht
  repeat' first
    | with_reducible exact h
    | with_reducible assumption
    | with_reducible intro _
    | with_reducible apply kept_ite
    | with_reducible apply kept_ite_fst
    | with_reducible refine kept_of_fst (by assumption) ?_
    | with_reducible apply State.reply_kept
    | with_reducible apply State.push_kept
    | with_reducible apply State.idle_kept
    | with_reducible apply kept_bits
    | simp only [kept_mk_eq]
    | split

theorem State.actRange_kept {s₀ s : State} (h : Kept s₀ s) (arg : Nat) (o : Origin) (c : Nat) :
    Kept s₀ (State.actRange s arg o c) := by
  unfold State.actRange
  repeat' first
    | with_reducible exact h
    | with_reducible assumption
    | with_reducible intro _
    | with_reducible apply kept_ite
    | with_reducible apply State.push_kept
    | with_reducible apply State.rangeHeld_kept
    | with_reducible apply kept_bits
    | simp only [kept_mk_eq]
    | split

theorem State.actChannel_kept {s₀ s : State} (h : Kept s₀ s) (op arg : Nat) (owner : Nat) (secure : Bool) (o : Origin) (c : Nat) :
    Kept s₀ (State.actChannel s op arg owner secure o c) := by
  unfold State.actChannel
  repeat' first
    | with_reducible exact h
    | with_reducible assumption
    | with_reducible intro _
    | with_reducible apply kept_ite
    | with_reducible apply kept_ite_fst
    | with_reducible refine kept_of_fst (by assumption) ?_
    | with_reducible apply State.sleepDrop_kept
    | with_reducible apply State.reply_kept
    | with_reducible apply State.actOut_kept
    | with_reducible apply State.actCht_kept
    | with_reducible apply State.actRange_kept
    | with_reducible apply kept_bits
    | simp only [kept_mk_eq]
    | split

theorem State.actSlot_kept {s₀ s : State} (h : Kept s₀ s) (n id k w owner : Nat) (secure : Bool) :
    Kept s₀ (State.actSlot s n id k w owner secure) := by
  unfold State.actSlot
  repeat' first
    | with_reducible exact h
    | with_reducible assumption
    | with_reducible intro _
    | with_reducible apply kept_ite
    | with_reducible apply kept_ite_fst
    | with_reducible refine kept_of_fst (by assumption) ?_
    | with_reducible apply kept_each
    | with_reducible apply State.actChannel_kept
    | with_reducible apply State.sleepDrop_kept
    | with_reducible apply State.reply_kept
    | with_reducible apply State.startSwitch_kept
    | with_reducible apply State.safeReq_kept
    | with_reducible apply State.wr_kept
    | with_reducible apply State.evoAct_kept
    | with_reducible apply State.mtrgoRise_kept
    | with_reducible apply kept_bits
    | simp only [kept_mk_eq]
    | split

theorem State.assertEv_kept {s₀ s : State} (h : Kept s₀ s) (n cause : Nat) (at_ : Nat) :
    Kept s₀ (State.assertEv s n cause at_) := by
  unfold State.assertEv
  repeat' first
    | with_reducible exact h
    | with_reducible assumption
    | with_reducible intro _
    | with_reducible apply kept_ite
    | with_reducible apply kept_each
    | with_reducible apply State.inc_kept
    | with_reducible apply State.wr_kept
    | with_reducible apply State.started_kept
    | with_reducible apply State.wakeBy_kept
    | with_reducible apply State.trigTake_kept
    | with_reducible apply State.actSlot_kept
    | with_reducible apply State.asrtStep_kept
    | with_reducible apply kept_bits
    | simp only [kept_mk_eq]
    | split

theorem State.merge_kept {s₀ s : State} (h : Kept s₀ s) (n : Nat) :
    Kept s₀ (State.merge s n) := by
  unfold State.merge
  repeat' first
    | with_reducible exact h
    | with_reducible assumption
    | with_reducible intro _
    | with_reducible apply kept_ite
    | with_reducible apply kept_ite_fst
    | with_reducible refine kept_of_fst (by assumption) ?_
    | with_reducible apply State.inc_kept
    | with_reducible apply kept_bits
    | simp only [kept_mk_eq]
    | split

theorem State.edgeAt_kept {s₀ s : State} (h : Kept s₀ s) (n sel : Nat) (at_ : Nat) :
    Kept s₀ (State.edgeAt s n sel at_) := by
  unfold State.edgeAt
  repeat' first
    | with_reducible exact h
    | with_reducible assumption
    | with_reducible intro _
    | with_reducible apply kept_ite
    | with_reducible apply State.inc_kept
    | with_reducible apply State.started_kept
    | with_reducible apply State.merge_kept
    | with_reducible apply State.assertEv_kept
    | with_reducible apply kept_bits
    | simp only [kept_mk_eq]
    | split

theorem State.edge_kept {s₀ s : State} (h : Kept s₀ s) (sel : Nat) (at_ : Nat) :
    Kept s₀ (State.edge s sel at_) := by
  unfold State.edge
  repeat' first
    | with_reducible exact h
    | with_reducible assumption
    | with_reducible intro _
    | with_reducible apply kept_ite
    | with_reducible apply kept_each
    | with_reducible apply State.edgeAt_kept
    | with_reducible apply kept_bits
    | simp only [kept_mk_eq]
    | split

end Sys2Proof.Machine
end

