-- ==== Sys2Proof/Laws/MeasureKept.lean ====
section
/-! SUPPORT. What the operations of Machine/Measure.lean keep. -/
namespace Sys2Proof.Machine
open Sys2Proof

theorem State.holdCtx_kept {s₀ s : State} (h : Kept s₀ s) (g : Nat) :
    Kept s₀ (State.holdCtx s g) := by
  unfold State.holdCtx
  repeat' first
    | with_reducible exact h
    | with_reducible assumption
    | with_reducible intro _
    | with_reducible apply kept_ite
    | with_reducible apply kept_each
    | with_reducible apply State.modCh_kept
    | with_reducible apply State.tevHold_kept
    | with_reducible apply State.modAper_kept
    | with_reducible apply kept_bits
    | simp only [kept_mk_eq]
    | split

theorem State.sample_kept {s₀ s : State} (h : Kept s₀ s) (c us : Nat) (x : SampCtx) (v i : Int) (sub got act miss : Bool) :
    Kept s₀ (State.sample s c us x v i sub got act miss) := by
  unfold State.sample
  repeat' first
    | with_reducible exact h
    | with_reducible assumption
    | with_reducible intro _
    | with_reducible apply kept_ite
    | with_reducible apply kept_ite_fst
    | with_reducible refine kept_of_fst (by assumption) ?_
    | with_reducible apply kept_ite_snd
    | with_reducible refine kept_of_snd (by assumption) ?_
    | with_reducible apply State.modAper_kept
    | with_reducible apply kept_bits
    | simp only [kept_mk_eq]
    | split

theorem State.markAgg_kept {s₀ s : State} (h : Kept s₀ s) (c us : Nat) (f : AggMarks → AggMarks) :
    Kept s₀ (State.markAgg s c us f) := by
  unfold State.markAgg
  repeat' first
    | with_reducible exact h
    | with_reducible assumption
    | with_reducible intro _
    | with_reducible apply kept_ite
    | with_reducible apply State.modAper_kept
    | with_reducible apply kept_bits
    | simp only [kept_mk_eq]
    | split

theorem State.tevEval_kept {s₀ s : State} (h : Kept s₀ s) (c us : Nat) (cur : Bool) (x : Int) :
    Kept s₀ (State.tevEval s c us cur x) := by
  unfold State.tevEval
  repeat' first
    | with_reducible exact h
    | with_reducible assumption
    | with_reducible intro _
    | with_reducible apply kept_ite
    | with_reducible apply State.wr_kept
    | with_reducible apply State.configOut_kept
    | with_reducible apply State.modAper_kept
    | with_reducible apply State.inc_kept
    | with_reducible apply State.markAgg_kept
    | with_reducible apply State.edge_kept
    | with_reducible apply kept_bits
    | simp only [kept_mk_eq]
    | split

theorem State.tevHold_kept {s₀ s : State} (h : Kept s₀ s) (c : Nat) (cur : Bool) :
    Kept s₀ (State.tevHold s c cur) := by
  unfold State.tevHold
  repeat' first
    | with_reducible exact h
    | with_reducible assumption
    | with_reducible intro _
    | with_reducible apply kept_ite
    | with_reducible apply State.modAper_kept
    | with_reducible apply kept_bits
    | simp only [kept_mk_eq]
    | split

theorem State.tevBoth_kept {s₀ s : State} (h : Kept s₀ s) (c us : Nat) (rec_ miss : Bool) (v i : Int) :
    Kept s₀ (State.tevBoth s c us rec_ miss v i) := by
  unfold State.tevBoth
  repeat' first
    | with_reducible exact h
    | with_reducible assumption
    | with_reducible intro _
    | with_reducible apply kept_ite
    | with_reducible apply State.tevHold_kept
    | with_reducible apply State.tevEval_kept
    | with_reducible apply kept_bits
    | simp only [kept_mk_eq]
    | split

theorem State.closeBlock_kept {s₀ s : State} (h : Kept s₀ s) (c : Nat) :
    Kept s₀ (State.closeBlock s c) := by
  unfold State.closeBlock
  repeat' first
    | with_reducible exact h
    | with_reducible assumption
    | with_reducible intro _
    | with_reducible apply kept_ite
    | with_reducible apply kept_ite_fst
    | with_reducible refine kept_of_fst (by assumption) ?_
    | with_reducible apply State.modAper_kept
    | with_reducible apply kept_bits
    | simp only [kept_mk_eq]
    | split

theorem State.bufferRecord_kept {s₀ s : State} (h : Kept s₀ s) (c : Nat) (rec_ : BRec) :
    Kept s₀ (State.bufferRecord s c rec_).1 := by
  unfold State.bufferRecord
  repeat' first
    | with_reducible exact h
    | with_reducible assumption
    | with_reducible intro _
    | with_reducible apply kept_ite
    | with_reducible apply kept_ite_fst
    | with_reducible refine kept_of_fst (by assumption) ?_
    | with_reducible apply State.inc_kept
    | with_reducible apply State.modAper_kept
    | with_reducible apply State.closeBlock_kept
    | with_reducible apply kept_bits
    | simp only [kept_mk_eq]
    | split

theorem State.tevStale_kept {s₀ s : State} (h : Kept s₀ s) (c : Nat) :
    Kept s₀ (State.tevStale s c) := by
  unfold State.tevStale
  repeat' first
    | with_reducible exact h
    | with_reducible assumption
    | with_reducible intro _
    | with_reducible apply kept_ite
    | with_reducible apply kept_each
    | with_reducible apply State.tevHold_kept
    | with_reducible apply kept_bits
    | simp only [kept_mk_eq]
    | split

theorem State.clampCount_kept {s₀ s : State} (h : Kept s₀ s) (c : Nat) (l : List Samp) :
    Kept s₀ (State.clampCount s c l) := by
  unfold State.clampCount
  repeat' first
    | with_reducible exact h
    | with_reducible assumption
    | with_reducible intro _
    | with_reducible apply kept_ite
    | with_reducible apply kept_ite_fst
    | with_reducible refine kept_of_fst (by assumption) ?_
    | with_reducible apply kept_getD
    | with_reducible apply State.inc_kept
    | with_reducible apply kept_bits
    | simp only [kept_mk_eq]
    | split

theorem State.mkRecord_kept {s₀ s : State} (h : Kept s₀ s) (c len : Nat) (l : List Samp) :
    Kept s₀ (State.mkRecord s c len l) := by
  unfold State.mkRecord
  repeat' first
    | with_reducible exact h
    | with_reducible assumption
    | with_reducible intro _
    | with_reducible apply kept_ite
    | with_reducible apply kept_ite_fst
    | with_reducible refine kept_of_fst (by assumption) ?_
    | with_reducible apply kept_foldl
    | with_reducible apply kept_getD
    | with_reducible apply State.inc_kept
    | with_reducible apply State.modAper_kept
    | with_reducible apply State.tell_kept
    | with_reducible apply State.wrV_kept
    | with_reducible apply State.wr_kept
    | with_reducible apply State.markAgg_kept
    | with_reducible apply State.tevStale_kept
    | with_reducible apply State.tevBoth_kept
    | with_reducible apply State.bufferRecord_kept
    | with_reducible apply kept_bits
    | simp only [kept_mk_eq]
    | split

theorem State.fullAper_kept {s₀ s : State} (h : Kept s₀ s) (c n : Nat) :
    Kept s₀ (State.fullAper s c n) := by
  unfold State.fullAper
  repeat' first
    | with_reducible exact h
    | with_reducible assumption
    | with_reducible intro _
    | with_reducible apply kept_ite
    | with_reducible apply kept_ite_fst
    | with_reducible refine kept_of_fst (by assumption) ?_
    | with_reducible apply kept_ite_snd
    | with_reducible refine kept_of_snd (by assumption) ?_
    | with_reducible apply State.clampCount_kept
    | with_reducible apply State.mkRecord_kept
    | with_reducible apply State.modAper_kept
    | with_reducible apply kept_bits
    | simp only [kept_mk_eq]
    | split

theorem State.closeAper_kept {s₀ s : State} (h : Kept s₀ s) (c : Nat) :
    Kept s₀ (State.closeAper s c) := by
  unfold State.closeAper
  repeat' first
    | with_reducible exact h
    | with_reducible assumption
    | with_reducible intro _
    | with_reducible apply kept_ite
    | with_reducible apply kept_getD
    | with_reducible apply State.fullAper_kept
    | with_reducible apply kept_bits
    | simp only [kept_mk_eq]
    | split

theorem State.endGrid_kept {s₀ s : State} (h : Kept s₀ s) (c n : Nat) :
    Kept s₀ (State.endGrid s c n) := by
  unfold State.endGrid
  repeat' first
    | with_reducible exact h
    | with_reducible assumption
    | with_reducible intro _
    | with_reducible apply kept_ite
    | with_reducible apply kept_ite_fst
    | with_reducible refine kept_of_fst (by assumption) ?_
    | with_reducible apply State.fullAper_kept
    | with_reducible apply State.clampCount_kept
    | with_reducible apply State.mkRecord_kept
    | with_reducible apply State.modAper_kept
    | with_reducible apply kept_bits
    | simp only [kept_mk_eq]
    | split

theorem State.rebase_kept {s₀ s : State} (h : Kept s₀ s) (c : Nat) :
    Kept s₀ (State.rebase s c) := by
  unfold State.rebase
  repeat' first
    | with_reducible exact h
    | with_reducible assumption
    | with_reducible intro _
    | with_reducible apply kept_ite
    | with_reducible apply State.modAper_kept
    | with_reducible apply State.endGrid_kept
    | with_reducible apply kept_bits
    | simp only [kept_mk_eq]
    | split

theorem State.autoRange_kept {s₀ s : State} (h : Kept s₀ s) (c : Nat) :
    Kept s₀ (State.autoRange s c) := by
  unfold State.autoRange
  repeat' first
    | with_reducible exact h
    | with_reducible assumption
    | with_reducible intro _
    | with_reducible apply kept_ite
    | with_reducible apply kept_ite_fst
    | with_reducible refine kept_of_fst (by assumption) ?_
    | with_reducible apply kept_ite_snd
    | with_reducible refine kept_of_snd (by assumption) ?_
    | with_reducible apply State.modAper_kept
    | with_reducible apply State.idle_kept
    | with_reducible apply kept_bits
    | simp only [kept_mk_eq]
    | split

theorem State.aggOpen_kept {s₀ s : State} (h : Kept s₀ s) (g : Nat) :
    Kept s₀ (State.aggOpen s g) := by
  unfold State.aggOpen
  repeat' first
    | with_reducible exact h
    | with_reducible assumption
    | with_reducible intro _
    | with_reducible apply kept_ite
    | with_reducible apply State.modGr_kept
    | with_reducible apply kept_bits
    | simp only [kept_mk_eq]
    | split

theorem State.closeAgg_kept {s₀ s : State} (h : Kept s₀ s) (c b : Nat) :
    Kept s₀ (State.closeAgg s c b) := by
  unfold State.closeAgg
  repeat' first
    | with_reducible exact h
    | with_reducible assumption
    | with_reducible intro _
    | with_reducible apply kept_ite
    | with_reducible apply kept_ite_fst
    | with_reducible refine kept_of_fst (by assumption) ?_
    | with_reducible apply kept_ite_snd
    | with_reducible refine kept_of_snd (by assumption) ?_
    | with_reducible apply kept_foldl
    | with_reducible apply State.wrV_kept
    | with_reducible apply State.modAper_kept
    | with_reducible apply kept_bits
    | simp only [kept_mk_eq]
    | split

end Sys2Proof.Machine
end

