-- ==== Sys2Proof/Laws/ParamKept.lean ====
section
/-! SUPPORT. What the operations of Machine/Param.lean keep. -/
namespace Sys2Proof.Machine
open Sys2Proof

theorem State.notchReset_kept {s₀ s : State} (h : Kept s₀ s) (c : Nat) :
    Kept s₀ (State.notchReset s c) := by
  unfold State.notchReset
  repeat' first
    | with_reducible exact h
    | with_reducible assumption
    | with_reducible intro _
    | with_reducible apply kept_ite
    | with_reducible apply State.modCh_kept
    | with_reducible apply kept_bits
    | simp only [kept_mk_eq]
    | split

theorem State.setForceMode_kept {s₀ s : State} (h : Kept s₀ s) (c : Nat) (v : Int) :
    Kept s₀ (State.setForceMode s c v) := by
  unfold State.setForceMode
  repeat' first
    | with_reducible exact h
    | with_reducible assumption
    | with_reducible intro _
    | with_reducible apply kept_ite
    | with_reducible apply State.wr_kept
    | with_reducible apply State.programLimit_kept
    | with_reducible apply State.modAper_kept
    | with_reducible apply State.loadCode_kept
    | with_reducible apply kept_bits
    | simp only [kept_mk_eq]
    | split

theorem State.putParam_kept {s₀ s : State} (h : Kept s₀ s) (o : Obj) (i e : Nat) (v : Int) :
    Kept s₀ (State.putParam s o i e v) := by
  unfold State.putParam
  repeat' first
    | with_reducible exact h
    | with_reducible assumption
    | with_reducible intro _
    | with_reducible apply kept_ite
    | with_reducible apply kept_ite_fst
    | with_reducible refine kept_of_fst (by assumption) ?_
    | with_reducible apply State.modCh_kept
    | with_reducible apply State.setForceMode_kept
    | with_reducible apply State.wr_kept
    | with_reducible apply State.programLimit_kept
    | with_reducible apply State.programTev_kept
    | with_reducible apply State.modGr_kept
    | with_reducible apply State.rebase_kept
    | with_reducible apply State.notchReset_kept
    | with_reducible apply kept_bits
    | simp only [kept_mk_eq]
    | split

theorem State.setParam_kept {s₀ s : State} (h : Kept s₀ s) (o : Obj) (i e : Nat) (v : Int) :
    Kept s₀ (State.setParam s o i e v) := by
  unfold State.setParam
  repeat' first
    | with_reducible exact h
    | with_reducible assumption
    | with_reducible intro _
    | with_reducible apply kept_ite
    | with_reducible apply State.putParam_kept
    | with_reducible apply State.configOut_kept
    | with_reducible apply kept_bits
    | simp only [kept_mk_eq]
    | split

end Sys2Proof.Machine
end

