-- ==== Sys2Proof/Laws/ChantKept.lean ====
section
/-! SUPPORT. What the operations of Machine/Chant.lean keep. -/
namespace Sys2Proof.Machine
open Sys2Proof

theorem State.playPoint_kept {s₀ s : State} (h : Kept s₀ s) (c : Nat) (u : SUnit) (j : Nat) :
    Kept s₀ (State.playPoint s c u j) := by
  unfold State.playPoint
  repeat' first
    | with_reducible exact h
    | with_reducible assumption
    | with_reducible intro _
    | with_reducible apply kept_ite
    | with_reducible apply State.inc_kept
    | with_reducible apply State.wr_kept
    | with_reducible apply State.modCh_kept
    | with_reducible apply kept_bits
    | simp only [kept_mk_eq]
    | split

theorem State.missPoint_kept {s₀ s : State} (h : Kept s₀ s) (c : Nat) (u : SUnit) (j bank : Nat) :
    Kept s₀ (State.missPoint s c u j bank) := by
  unfold State.missPoint
  repeat' first
    | with_reducible exact h
    | with_reducible assumption
    | with_reducible intro _
    | with_reducible apply kept_ite
    | with_reducible apply State.report_kept
    | with_reducible apply State.wr_kept
    | with_reducible apply kept_bits
    | simp only [kept_mk_eq]
    | split

theorem State.showPoint_kept {s₀ s : State} (h : Kept s₀ s) (c : Nat) (u : SUnit) (j : Nat) (ue : Option Nat) :
    Kept s₀ (State.showPoint s c u j ue) := by
  unfold State.showPoint
  repeat' first
    | with_reducible exact h
    | with_reducible assumption
    | with_reducible intro _
    | with_reducible apply kept_ite
    | with_reducible apply kept_ite_fst
    | with_reducible refine kept_of_fst (by assumption) ?_
    | with_reducible apply State.missPoint_kept
    | with_reducible apply State.playPoint_kept
    | with_reducible apply kept_bits
    | simp only [kept_mk_eq]
    | split

theorem State.unitStart_kept {s₀ s : State} (h : Kept s₀ s) (c : Nat) (u : SUnit) :
    Kept s₀ (State.unitStart s c u) := by
  unfold State.unitStart
  repeat' first
    | with_reducible exact h
    | with_reducible assumption
    | with_reducible intro _
    | with_reducible apply kept_ite
    | with_reducible apply State.wr_kept
    | with_reducible apply State.modCht_kept
    | with_reducible apply State.askClaim_kept
    | with_reducible apply kept_bits
    | simp only [kept_mk_eq]
    | split

theorem State.fetchUnit_kept {s₀ s : State} (h : Kept s₀ s) (c a : Nat) (bad : Bool) :
    Kept s₀ (State.fetchUnit s c a bad) := by
  unfold State.fetchUnit
  repeat' first
    | with_reducible exact h
    | with_reducible assumption
    | with_reducible intro _
    | with_reducible apply kept_ite
    | with_reducible apply State.modCht_kept
    | with_reducible apply State.wr_kept
    | with_reducible apply State.chtHalt_kept
    | with_reducible apply State.players_kept
    | with_reducible apply State.unitStart_kept
    | with_reducible apply kept_bits
    | simp only [kept_mk_eq]
    | split

theorem State.unitBegin_kept {s₀ s : State} (h : Kept s₀ s) (c : Nat) (bad : Bool) :
    Kept s₀ (State.unitBegin s c bad) := by
  unfold State.unitBegin
  repeat' first
    | with_reducible exact h
    | with_reducible assumption
    | with_reducible intro _
    | with_reducible apply kept_ite
    | with_reducible apply kept_ite_fst
    | with_reducible refine kept_of_fst (by assumption) ?_
    | with_reducible apply State.fetchUnit_kept
    | with_reducible apply State.unitStart_kept
    | with_reducible apply kept_bits
    | simp only [kept_mk_eq]
    | split

theorem State.unitAper_kept {s₀ s : State} (h : Kept s₀ s) (c : Nat) (u : SUnit) :
    Kept s₀ (State.unitAper s c u) := by
  unfold State.unitAper
  repeat' first
    | with_reducible exact h
    | with_reducible assumption
    | with_reducible intro _
    | with_reducible apply kept_ite
    | with_reducible apply kept_getD
    | with_reducible apply State.rebase_kept
    | with_reducible apply State.wr_kept
    | with_reducible apply kept_bits
    | simp only [kept_mk_eq]
    | split

theorem State.unitSettle_kept {s₀ s : State} (h : Kept s₀ s) (c : Nat) :
    Kept s₀ (State.unitSettle s c) := by
  unfold State.unitSettle
  repeat' first
    | with_reducible exact h
    | with_reducible assumption
    | with_reducible intro _
    | with_reducible apply kept_ite
    | with_reducible apply State.unitAper_kept
    | with_reducible apply State.modCht_kept
    | with_reducible apply kept_bits
    | simp only [kept_mk_eq]
    | split

theorem State.applyLevel_kept {s₀ s : State} (h : Kept s₀ s) (c : Nat) (u : SUnit) (ue : Option Nat) :
    Kept s₀ (State.applyLevel s c u ue) := by
  unfold State.applyLevel
  repeat' first
    | with_reducible exact h
    | with_reducible assumption
    | with_reducible intro _
    | with_reducible apply kept_ite
    | with_reducible apply State.showPoint_kept
    | with_reducible apply State.setParam_kept
    | with_reducible apply kept_bits
    | simp only [kept_mk_eq]
    | split

theorem State.applyRange_kept {s₀ s : State} (h : Kept s₀ s) (c : Nat) (u : SUnit) (ue : Option Nat) :
    Kept s₀ (State.applyRange s c u ue) := by
  unfold State.applyRange
  repeat' first
    | with_reducible exact h
    | with_reducible assumption
    | with_reducible intro _
    | with_reducible apply kept_ite
    | with_reducible apply kept_ite_fst
    | with_reducible refine kept_of_fst (by assumption) ?_
    | with_reducible apply State.rangeApply_kept
    | with_reducible apply State.missPoint_kept
    | with_reducible apply State.inc_kept
    | with_reducible apply State.wr_kept
    | with_reducible apply kept_bits
    | simp only [kept_mk_eq]
    | split

theorem State.applyFull_kept {s₀ s : State} (h : Kept s₀ s) (c : Nat) (u : SUnit) (ue : Option Nat) :
    Kept s₀ (State.applyFull s c u ue).1 := by
  unfold State.applyFull
  repeat' first
    | with_reducible exact h
    | with_reducible assumption
    | with_reducible intro _
    | with_reducible apply kept_ite
    | with_reducible apply kept_ite_fst
    | with_reducible refine kept_of_fst (by assumption) ?_
    | with_reducible apply State.rangeRefuse_kept
    | with_reducible apply State.applyRange_kept
    | with_reducible apply State.setParam_kept
    | with_reducible apply State.applyLevel_kept
    | with_reducible apply kept_bits
    | simp only [kept_mk_eq]
    | split

theorem State.unitLive_kept {s₀ s : State} (h : Kept s₀ s) (c : Nat) (u : SUnit) (slides joins : Bool) :
    Kept s₀ (State.unitLive s c u slides joins) := by
  unfold State.unitLive
  repeat' first
    | with_reducible exact h
    | with_reducible assumption
    | with_reducible intro _
    | with_reducible apply kept_ite
    | with_reducible apply State.modCht_kept
    | with_reducible apply State.unitSettle_kept
    | with_reducible apply kept_bits
    | simp only [kept_mk_eq]
    | split

theorem State.unitApply_kept {s₀ s : State} (h : Kept s₀ s) (c : Nat) (ue : Option Nat) :
    Kept s₀ (State.unitApply s c ue) := by
  unfold State.unitApply
  repeat' first
    | with_reducible exact h
    | with_reducible assumption
    | with_reducible intro _
    | with_reducible apply kept_ite
    | with_reducible apply kept_ite_fst
    | with_reducible refine kept_of_fst (by assumption) ?_
    | with_reducible apply kept_ite_snd
    | with_reducible refine kept_of_snd (by assumption) ?_
    | with_reducible apply State.inc_kept
    | with_reducible apply State.unitLive_kept
    | with_reducible apply State.idle_kept
    | with_reducible apply State.applyFull_kept
    | with_reducible apply State.applyLevel_kept
    | with_reducible apply State.connectEp_kept
    | with_reducible apply kept_bits
    | simp only [kept_mk_eq]
    | split

theorem State.entryEnd_kept {s₀ s : State} (h : Kept s₀ s) (c : Nat) (u : SUnit) :
    Kept s₀ (State.entryEnd s c u) := by
  unfold State.entryEnd
  repeat' first
    | with_reducible exact h
    | with_reducible assumption
    | with_reducible intro _
    | with_reducible apply kept_ite
    | with_reducible apply kept_ite_fst
    | with_reducible refine kept_of_fst (by assumption) ?_
    | with_reducible apply State.players_kept
    | with_reducible apply State.modCht_kept
    | with_reducible apply State.chtEdge_kept
    | with_reducible apply State.releaseEp_kept
    | with_reducible apply State.chtHalt_kept
    | with_reducible apply State.wr_kept
    | with_reducible apply kept_bits
    | simp only [kept_mk_eq]
    | split

theorem State.endRebase_kept {s₀ s : State} (h : Kept s₀ s) (c : Nat) (u : SUnit) :
    Kept s₀ (State.endRebase s c u) := by
  unfold State.endRebase
  repeat' first
    | with_reducible exact h
    | with_reducible assumption
    | with_reducible intro _
    | with_reducible apply kept_ite
    | with_reducible apply State.rebase_kept
    | with_reducible apply kept_bits
    | simp only [kept_mk_eq]
    | split

theorem State.unitEnd_kept {s₀ s : State} (h : Kept s₀ s) (c : Nat) :
    Kept s₀ (State.unitEnd s c) := by
  unfold State.unitEnd
  repeat' first
    | with_reducible exact h
    | with_reducible assumption
    | with_reducible intro _
    | with_reducible apply kept_ite
    | with_reducible apply State.endRebase_kept
    | with_reducible apply State.entryEnd_kept
    | with_reducible apply State.modCht_kept
    | with_reducible apply kept_bits
    | simp only [kept_mk_eq]
    | split

theorem State.chtStart_kept {s₀ s : State} (h : Kept s₀ s) (c : Nat) (o : Origin) :
    Kept s₀ (State.chtStart s c o) := by
  unfold State.chtStart
  repeat' first
    | with_reducible exact h
    | with_reducible assumption
    | with_reducible intro _
    | with_reducible apply kept_ite
    | with_reducible apply kept_ite_fst
    | with_reducible refine kept_of_fst (by assumption) ?_
    | with_reducible apply State.reply_kept
    | with_reducible apply State.idle_kept
    | with_reducible apply State.wr_kept
    | with_reducible apply State.modCht_kept
    | with_reducible apply kept_bits
    | simp only [kept_mk_eq]
    | split

theorem State.chtCmd_kept {s₀ s : State} (h : Kept s₀ s) (c k : Nat) (o : Origin) :
    Kept s₀ (State.chtCmd s c k o) := by
  unfold State.chtCmd
  repeat' first
    | with_reducible exact h
    | with_reducible assumption
    | with_reducible intro _
    | with_reducible apply kept_ite
    | with_reducible apply State.idle_kept
    | with_reducible apply State.reply_kept
    | with_reducible apply State.chtHalt_kept
    | with_reducible apply State.chtStart_kept
    | with_reducible apply State.modCht_kept
    | with_reducible apply State.endRebase_kept
    | with_reducible apply State.entryEnd_kept
    | with_reducible apply kept_bits
    | simp only [kept_mk_eq]
    | split

theorem State.pulseFall_kept {s₀ s : State} (h : Kept s₀ s) (c : Nat) :
    Kept s₀ (State.pulseFall s c) := by
  unfold State.pulseFall
  repeat' first
    | with_reducible exact h
    | with_reducible assumption
    | with_reducible intro _
    | with_reducible apply kept_ite
    | with_reducible apply State.setParam_kept
    | with_reducible apply State.rebase_kept
    | with_reducible apply State.modCht_kept
    | with_reducible apply kept_bits
    | simp only [kept_mk_eq]
    | split

theorem State.chtTick_kept {s₀ s : State} (h : Kept s₀ s) (c : Nat) (fresh_ : Bool) :
    Kept s₀ (State.chtTick s c fresh_) := by
  unfold State.chtTick
  repeat' first
    | with_reducible exact h
    | with_reducible assumption
    | with_reducible intro _
    | with_reducible apply kept_ite
    | with_reducible apply kept_ite_fst
    | with_reducible refine kept_of_fst (by assumption) ?_
    | with_reducible apply State.idle_kept
    | with_reducible apply State.modCht_kept
    | with_reducible apply kept_bits
    | simp only [kept_mk_eq]
    | split

theorem State.reExecute_kept {s₀ s : State} (h : Kept s₀ s) (c : Nat) :
    Kept s₀ (State.reExecute s c) := by
  unfold State.reExecute
  repeat' first
    | with_reducible exact h
    | with_reducible assumption
    | with_reducible intro _
    | with_reducible apply kept_ite
    | with_reducible apply State.dropClaim_kept
    | with_reducible apply State.players_kept
    | with_reducible apply State.wr_kept
    | with_reducible apply State.modCht_kept
    | with_reducible apply kept_bits
    | simp only [kept_mk_eq]
    | split

theorem State.waveStep_kept {s₀ s : State} (h : Kept s₀ s) (c : Nat) (ue : Option Nat) :
    Kept s₀ (State.waveStep s c ue) := by
  unfold State.waveStep
  repeat' first
    | with_reducible exact h
    | with_reducible assumption
    | with_reducible intro _
    | with_reducible apply kept_ite
    | with_reducible apply State.showPoint_kept
    | with_reducible apply kept_bits
    | simp only [kept_mk_eq]
    | split

end Sys2Proof.Machine
end

