-- ==== Sys2Proof/Laws/CollectKept.lean ====
section
/-! SUPPORT. What the operations of Machine/Collect.lean keep. -/
namespace Sys2Proof.Machine
open Sys2Proof

theorem State.countReport_kept {s₀ s : State} (h : Kept s₀ s) (src : Nat) :
    Kept s₀ (State.countReport s src).1 := by
  unfold State.countReport
  repeat' first
    | with_reducible exact h
    | with_reducible assumption
    | with_reducible intro _
    | with_reducible apply kept_ite
    | with_reducible apply kept_ite_fst
    | with_reducible refine kept_of_fst (by assumption) ?_
    | with_reducible apply kept_getD
    | with_reducible apply kept_bits
    | simp only [kept_mk_eq]
    | split

theorem State.classify_kept {s₀ s : State} (h : Kept s₀ s) (m : FaultMsg) :
    Kept s₀ (State.classify s m).1 := by
  unfold State.classify
  repeat' first
    | with_reducible exact h
    | with_reducible assumption
    | with_reducible intro _
    | with_reducible apply kept_ite
    | with_reducible apply kept_ite_fst
    | with_reducible refine kept_of_fst (by assumption) ?_
    | with_reducible apply kept_ite_snd
    | with_reducible refine kept_of_snd (by assumption) ?_
    | with_reducible apply State.countReport_kept
    | with_reducible apply kept_bits
    | simp only [kept_mk_eq]
    | split

theorem State.closeAll_kept {s₀ s : State} (h : Kept s₀ s)  :
    Kept s₀ (State.closeAll s) := by
  unfold State.closeAll
  repeat' first
    | with_reducible exact h
    | with_reducible assumption
    | with_reducible intro _
    | with_reducible apply kept_ite
    | with_reducible apply kept_each
    | with_reducible apply State.dropSession_kept
    | with_reducible apply kept_bits
    | simp only [kept_mk_eq]
    | split

theorem State.netRestart_kept {s₀ s : State} (h : Kept s₀ s)  :
    Kept s₀ (State.netRestart s) := by
  unfold State.netRestart
  repeat' first
    | with_reducible exact h
    | with_reducible assumption
    | with_reducible intro _
    | with_reducible apply kept_ite
    | with_reducible apply kept_each
    | with_reducible apply State.closeAll_kept
    | with_reducible apply State.modAper_kept
    | with_reducible apply kept_bits
    | simp only [kept_mk_eq]
    | split

theorem State.moveBlocks_kept {s₀ s : State} (h : Kept s₀ s) (k p : Nat) :
    Kept s₀ (State.moveBlocks s k p) := by
  unfold State.moveBlocks
  repeat' first
    | with_reducible exact h
    | with_reducible assumption
    | with_reducible intro _
    | with_reducible apply kept_ite
    | with_reducible apply kept_each
    | with_reducible apply State.modAper_kept
    | with_reducible apply State.modSt_kept
    | with_reducible apply kept_bits
    | simp only [kept_mk_eq]
    | split

theorem State.moveStream_kept {s₀ s : State} (h : Kept s₀ s) (k p : Nat) :
    Kept s₀ (State.moveStream s k p) := by
  unfold State.moveStream
  repeat' first
    | with_reducible exact h
    | with_reducible assumption
    | with_reducible intro _
    | with_reducible apply kept_ite
    | with_reducible apply State.modSt_kept
    | with_reducible apply State.moveBlocks_kept
    | with_reducible apply kept_bits
    | simp only [kept_mk_eq]
    | split

theorem State.moveFrom_kept {s₀ s : State} (h : Kept s₀ s) (k p : Nat) :
    Kept s₀ (State.moveFrom s k p) := by
  unfold State.moveFrom
  repeat' first
    | with_reducible exact h
    | with_reducible assumption
    | with_reducible intro _
    | with_reducible apply kept_ite
    | with_reducible apply State.moveStream_kept
    | with_reducible apply kept_bits
    | simp only [kept_mk_eq]
    | split

theorem State.moveStreams_kept {s₀ s : State} (h : Kept s₀ s) (p : Nat) :
    Kept s₀ (State.moveStreams s p) := by
  unfold State.moveStreams
  repeat' first
    | with_reducible exact h
    | with_reducible assumption
    | with_reducible intro _
    | with_reducible apply kept_ite
    | with_reducible apply kept_each
    | with_reducible apply State.moveFrom_kept
    | with_reducible apply kept_bits
    | simp only [kept_mk_eq]
    | split

theorem State.moveIfLost_kept {s₀ s : State} (h : Kept s₀ s) (k : Nat) :
    Kept s₀ (State.moveIfLost s k) := by
  unfold State.moveIfLost
  repeat' first
    | with_reducible exact h
    | with_reducible assumption
    | with_reducible intro _
    | with_reducible apply kept_ite
    | with_reducible apply State.moveFrom_kept
    | with_reducible apply kept_bits
    | simp only [kept_mk_eq]
    | split

theorem State.dropPort_kept {s₀ s : State} (h : Kept s₀ s) (k p : Nat) :
    Kept s₀ (State.dropPort s k p) := by
  unfold State.dropPort
  repeat' first
    | with_reducible exact h
    | with_reducible assumption
    | with_reducible intro _
    | with_reducible apply kept_ite
    | with_reducible apply kept_each
    | with_reducible apply State.modAper_kept
    | with_reducible apply State.modSt_kept
    | with_reducible apply kept_bits
    | simp only [kept_mk_eq]
    | split

theorem State.loseBlocks_kept {s₀ s : State} (h : Kept s₀ s) (k : Nat) :
    Kept s₀ (State.loseBlocks s k) := by
  unfold State.loseBlocks
  repeat' first
    | with_reducible exact h
    | with_reducible assumption
    | with_reducible intro _
    | with_reducible apply kept_ite
    | with_reducible apply kept_each
    | with_reducible apply State.inc_kept
    | with_reducible apply State.modAper_kept
    | with_reducible apply State.modSt_kept
    | with_reducible apply kept_bits
    | simp only [kept_mk_eq]
    | split

theorem State.streamEnd_kept {s₀ s : State} (h : Kept s₀ s) (k : Nat) :
    Kept s₀ (State.streamEnd s k) := by
  unfold State.streamEnd
  repeat' first
    | with_reducible exact h
    | with_reducible assumption
    | with_reducible intro _
    | with_reducible apply kept_ite
    | with_reducible apply State.wr_kept
    | with_reducible apply State.modSt_kept
    | with_reducible apply State.answers_kept
    | with_reducible apply kept_bits
    | simp only [kept_mk_eq]
    | split

theorem State.drainCheck_kept {s₀ s : State} (h : Kept s₀ s) (k : Nat) :
    Kept s₀ (State.drainCheck s k) := by
  unfold State.drainCheck
  repeat' first
    | with_reducible exact h
    | with_reducible assumption
    | with_reducible intro _
    | with_reducible apply kept_ite
    | with_reducible apply kept_ite_fst
    | with_reducible refine kept_of_fst (by assumption) ?_
    | with_reducible apply State.streamEnd_kept
    | with_reducible apply State.loseBlocks_kept
    | with_reducible apply kept_bits
    | simp only [kept_mk_eq]
    | split

theorem State.portLost_kept {s₀ s : State} (h : Kept s₀ s) (p : Nat) :
    Kept s₀ (State.portLost s p) := by
  unfold State.portLost
  repeat' first
    | with_reducible exact h
    | with_reducible assumption
    | with_reducible intro _
    | with_reducible apply kept_ite
    | with_reducible apply kept_each
    | with_reducible apply State.moveStreams_kept
    | with_reducible apply State.dropPort_kept
    | with_reducible apply State.drainCheck_kept
    | with_reducible apply kept_bits
    | simp only [kept_mk_eq]
    | split

theorem State.setFence_kept {s₀ s : State} (h : Kept s₀ s) (l : List Nat) (by_ : Nat) (dead : Bool) :
    Kept s₀ (State.setFence s l by_ dead) := by
  unfold State.setFence
  repeat' first
    | with_reducible exact h
    | with_reducible assumption
    | with_reducible intro _
    | with_reducible apply kept_ite
    | with_reducible apply kept_each
    | with_reducible apply kept_bits
    | simp only [kept_mk_eq]
    | split

theorem State.sp1Drop_kept {s₀ s : State} (h : Kept s₀ s)  :
    Kept s₀ (State.sp1Drop s) := by
  unfold State.sp1Drop
  repeat' first
    | with_reducible exact h
    | with_reducible assumption
    | with_reducible intro _
    | with_reducible apply kept_ite
    | with_reducible apply State.reply_kept
    | with_reducible apply State.spEnd_kept
    | with_reducible apply State.modSp_kept
    | with_reducible apply State.answers_kept
    | with_reducible apply kept_bits
    | simp only [kept_mk_eq]
    | split

theorem State.txnFail_kept {s₀ s : State} (h : Kept s₀ s) (p : Nat) :
    Kept s₀ (State.txnFail s p) := by
  unfold State.txnFail
  repeat' first
    | with_reducible exact h
    | with_reducible assumption
    | with_reducible intro _
    | with_reducible apply kept_ite
    | with_reducible apply kept_ite_fst
    | with_reducible refine kept_of_fst (by assumption) ?_
    | with_reducible refine State.restart_kept ?_ (by decide)
    | with_reducible apply State.spEnd_kept
    | with_reducible apply State.setFence_kept
    | with_reducible apply State.wr_kept
    | with_reducible apply State.report_kept
    | with_reducible apply State.answer_kept
    | with_reducible apply State.failChannel_kept
    | with_reducible apply State.breakAllOver_kept
    | with_reducible apply kept_bits
    | simp only [kept_mk_eq]
    | split

theorem State.sp0Drop_kept {s₀ s : State} (h : Kept s₀ s)  :
    Kept s₀ (State.sp0Drop s) := by
  unfold State.sp0Drop
  repeat' first
    | with_reducible exact h
    | with_reducible assumption
    | with_reducible intro _
    | with_reducible apply kept_ite
    | with_reducible apply kept_each
    | with_reducible apply kept_getD
    | with_reducible apply State.txnFail_kept
    | with_reducible apply State.modSp_kept
    | with_reducible apply State.setFence_kept
    | with_reducible apply State.wr_kept
    | with_reducible apply kept_bits
    | simp only [kept_mk_eq]
    | split

theorem State.fenceNow_kept {s₀ s : State} (h : Kept s₀ s) (src : Nat) :
    Kept s₀ (State.fenceNow s src) := by
  unfold State.fenceNow
  repeat' first
    | with_reducible exact h
    | with_reducible assumption
    | with_reducible intro _
    | with_reducible apply kept_ite
    | with_reducible apply kept_ite_fst
    | with_reducible refine kept_of_fst (by assumption) ?_
    | with_reducible apply kept_each
    | with_reducible apply State.wr_kept
    | with_reducible apply State.calEnd_kept
    | with_reducible apply State.netRestart_kept
    | with_reducible apply State.sp1Drop_kept
    | with_reducible apply State.sp0Drop_kept
    | with_reducible apply State.portLost_kept
    | with_reducible apply State.report_kept
    | with_reducible apply State.nvmSweep_kept
    | with_reducible apply State.modAper_kept
    | with_reducible apply kept_bits
    | simp only [kept_mk_eq]
    | split

theorem State.monFence_kept {s₀ s : State} (h : Kept s₀ s) (g : Nat) :
    Kept s₀ (State.monFence s g) := by
  unfold State.monFence
  repeat' first
    | with_reducible exact h
    | with_reducible assumption
    | with_reducible intro _
    | with_reducible apply kept_ite
    | with_reducible apply State.modMon_kept
    | with_reducible apply kept_bits
    | simp only [kept_mk_eq]
    | split

theorem State.fence_kept {s₀ s : State} (h : Kept s₀ s) (m : FaultMsg) :
    Kept s₀ (State.fence s m) := by
  unfold State.fence
  repeat' first
    | with_reducible exact h
    | with_reducible assumption
    | with_reducible intro _
    | with_reducible apply kept_ite
    | with_reducible apply kept_ite_fst
    | with_reducible refine kept_of_fst (by assumption) ?_
    | with_reducible apply kept_getD
    | with_reducible apply State.netRestart_kept
    | with_reducible apply State.setFence_kept
    | with_reducible apply State.fenceNow_kept
    | with_reducible apply State.answer_kept
    | with_reducible apply State.monFence_kept
    | with_reducible apply State.calEnd_kept
    | with_reducible apply kept_bits
    | simp only [kept_mk_eq]
    | split

theorem State.respond__kept {s₀ s : State} (h : Kept s₀ s) (r : Report) :
    Kept s₀ (State.respond_ s r) := by
  unfold State.respond_
  repeat' first
    | with_reducible exact h
    | with_reducible assumption
    | with_reducible intro _
    | with_reducible apply kept_ite
    | with_reducible apply kept_ite_fst
    | with_reducible refine kept_of_fst (by assumption) ?_
    | with_reducible apply kept_getD
    | with_reducible apply State.safeEntry_kept
    | with_reducible apply State.fence_kept
    | with_reducible apply kept_bits
    | simp only [kept_mk_eq]
    | split

theorem State.faultLog_kept {s₀ s : State} (h : Kept s₀ s) (n : Nat) :
    Kept s₀ (State.faultLog s n) := by
  unfold State.faultLog
  repeat' first
    | with_reducible exact h
    | with_reducible assumption
    | with_reducible intro _
    | with_reducible apply kept_ite
    | with_reducible apply State.wr_kept
    | with_reducible apply State.inc_kept
    | with_reducible apply kept_bits
    | simp only [kept_mk_eq]
    | split

theorem State.stopLogged_kept {s₀ s : State} (h : Kept s₀ s)  :
    Kept s₀ (State.stopLogged s) := by
  unfold State.stopLogged
  repeat' first
    | with_reducible exact h
    | with_reducible assumption
    | with_reducible intro _
    | with_reducible apply kept_ite
    | with_reducible apply kept_ite_fst
    | with_reducible refine kept_of_fst (by assumption) ?_
    | with_reducible apply kept_getD
    | with_reducible apply State.faultLog_kept
    | with_reducible apply kept_bits
    | simp only [kept_mk_eq]
    | split

theorem State.intake_kept {s₀ s : State} (h : Kept s₀ s) (r : Report) :
    Kept s₀ (State.intake s r) := by
  unfold State.intake
  repeat' first
    | with_reducible exact h
    | with_reducible assumption
    | with_reducible intro _
    | with_reducible apply kept_ite
    | with_reducible apply kept_ite_fst
    | with_reducible refine kept_of_fst (by assumption) ?_
    | with_reducible apply kept_getD
    | with_reducible apply State.inc_kept
    | with_reducible apply State.wr_kept
    | with_reducible apply kept_bits
    | simp only [kept_mk_eq]
    | split

theorem State.countClass_kept {s₀ s : State} (h : Kept s₀ s) (r : Report) :
    Kept s₀ (State.countClass s r) := by
  unfold State.countClass
  repeat' first
    | with_reducible exact h
    | with_reducible assumption
    | with_reducible intro _
    | with_reducible apply kept_ite
    | with_reducible apply kept_ite_fst
    | with_reducible refine kept_of_fst (by assumption) ?_
    | with_reducible apply State.inc_kept
    | with_reducible apply State.wrV_kept
    | with_reducible apply kept_bits
    | simp only [kept_mk_eq]
    | split

theorem State.lineHeard_kept {s₀ s : State} (h : Kept s₀ s) (src : Nat) :
    Kept s₀ (State.lineHeard s src) := by
  unfold State.lineHeard
  repeat' first
    | with_reducible exact h
    | with_reducible assumption
    | with_reducible intro _
    | with_reducible apply kept_ite
    | with_reducible apply kept_ite_fst
    | with_reducible refine kept_of_fst (by assumption) ?_
    | with_reducible apply kept_bits
    | simp only [kept_mk_eq]
    | split

theorem State.takeReport_kept {s₀ s : State} (h : Kept s₀ s) (m : FaultMsg) :
    Kept s₀ (State.takeReport s m) := by
  unfold State.takeReport
  repeat' first
    | with_reducible exact h
    | with_reducible assumption
    | with_reducible intro _
    | with_reducible apply kept_ite
    | with_reducible apply kept_ite_fst
    | with_reducible refine kept_of_fst (by assumption) ?_
    | with_reducible apply kept_ite_snd
    | with_reducible refine kept_of_snd (by assumption) ?_
    | with_reducible apply State.faultLog_kept
    | with_reducible apply State.lineHeard_kept
    | with_reducible apply State.classify_kept
    | with_reducible apply State.countClass_kept
    | with_reducible apply State.intake_kept
    | with_reducible apply State.respond__kept
    | with_reducible apply State.edge_kept
    | with_reducible apply kept_bits
    | simp only [kept_mk_eq]
    | split

theorem State.drain_kept {s₀ s : State} (h : Kept s₀ s)  :
    Kept s₀ (State.drain s) := by
  unfold State.drain
  repeat' first
    | with_reducible exact h
    | with_reducible assumption
    | with_reducible intro _
    | with_reducible apply kept_ite
    | with_reducible apply kept_ite_fst
    | with_reducible refine kept_of_fst (by assumption) ?_
    | with_reducible apply kept_ite_snd
    | with_reducible refine kept_of_snd (by assumption) ?_
    | with_reducible apply kept_each
    | with_reducible apply State.faultLog_kept
    | with_reducible apply kept_bits
    | simp only [kept_mk_eq]
    | split

theorem State.engineFenceAt_kept {s₀ s : State} (h : Kept s₀ s) (g : Nat) :
    Kept s₀ (State.engineFenceAt s g) := by
  unfold State.engineFenceAt
  repeat' first
    | with_reducible exact h
    | with_reducible assumption
    | with_reducible intro _
    | with_reducible apply kept_ite
    | with_reducible apply kept_each
    | with_reducible apply kept_getD
    | with_reducible refine State.muteAt_kept ?_ _ _ _ (by assumption)
    | with_reducible apply State.rampHand_kept
    | with_reducible apply kept_bits
    | simp only [kept_mk_eq]
    | split

theorem State.slideFenceAt_kept {s₀ s : State} (h : Kept s₀ s) (g : Nat) :
    Kept s₀ (State.slideFenceAt s g) := by
  unfold State.slideFenceAt
  repeat' first
    | with_reducible exact h
    | with_reducible assumption
    | with_reducible intro _
    | with_reducible apply kept_ite
    | with_reducible apply kept_ite_fst
    | with_reducible refine kept_of_fst (by assumption) ?_
    | with_reducible apply kept_each
    | with_reducible apply kept_getD
    | with_reducible refine State.muteAt_kept ?_ _ _ _ (by assumption)
    | with_reducible apply State.pendCancel_kept
    | with_reducible apply State.slideEnd_kept
    | with_reducible apply kept_bits
    | simp only [kept_mk_eq]
    | split

end Sys2Proof.Machine
end

