-- ==== Sys2Proof/Laws/MonitorKept.lean ====
section
/-! SUPPORT. What the operations of Machine/Monitor.lean keep. -/
namespace Sys2Proof.Machine
open Sys2Proof

theorem State.seqStart_kept {s₀ s : State} (h : Kept s₀ s) (g : Nat) (cold : Bool) :
    Kept s₀ (State.seqStart s g cold) := by
  unfold State.seqStart
  repeat' first
    | with_reducible exact h
    | with_reducible assumption
    | with_reducible intro _
    | with_reducible apply kept_ite
    | with_reducible apply kept_foldl
    | with_reducible apply State.modMon_kept
    | with_reducible apply kept_bits
    | simp only [kept_mk_eq]
    | split

theorem State.monFinish_kept {s₀ s : State} (h : Kept s₀ s) (g : Nat) :
    Kept s₀ (State.monFinish s g) := by
  unfold State.monFinish
  repeat' first
    | with_reducible exact h
    | with_reducible assumption
    | with_reducible intro _
    | with_reducible apply kept_ite
    | with_reducible apply kept_ite_fst
    | with_reducible refine kept_of_fst (by assumption) ?_
    | with_reducible apply State.modMon_kept
    | with_reducible apply State.answer_kept
    | with_reducible apply State.seqStart_kept
    | with_reducible apply State.inc_kept
    | with_reducible apply State.edge_kept
    | with_reducible apply kept_bits
    | simp only [kept_mk_eq]
    | split

theorem State.monTrigger_kept {s₀ s : State} (h : Kept s₀ s) (g : Nat) :
    Kept s₀ (State.monTrigger s g) := by
  unfold State.monTrigger
  repeat' first
    | with_reducible exact h
    | with_reducible assumption
    | with_reducible intro _
    | with_reducible apply kept_ite
    | with_reducible apply State.seqStart_kept
    | with_reducible apply State.modMon_kept
    | with_reducible apply State.inc_kept
    | with_reducible apply kept_bits
    | simp only [kept_mk_eq]
    | split

theorem State.pairCompare_kept {s₀ s : State} (h : Kept s₀ s) (g e v : Nat) (a b : Int) :
    Kept s₀ (State.pairCompare s g e v a b) := by
  unfold State.pairCompare
  repeat' first
    | with_reducible exact h
    | with_reducible assumption
    | with_reducible intro _
    | with_reducible apply kept_ite
    | with_reducible apply State.inc_kept
    | with_reducible apply State.modMon_kept
    | with_reducible apply State.report_kept
    | with_reducible apply State.edge_kept
    | with_reducible apply kept_bits
    | simp only [kept_mk_eq]
    | split

theorem State.monDecided_kept {s₀ s : State} (h : Kept s₀ s) (g e v : Nat) (a b : Int) :
    Kept s₀ (State.monDecided s g e v a b) := by
  unfold State.monDecided
  repeat' first
    | with_reducible exact h
    | with_reducible assumption
    | with_reducible intro _
    | with_reducible apply kept_ite
    | with_reducible apply State.modMon_kept
    | with_reducible apply State.pairCompare_kept
    | with_reducible apply State.monFinish_kept
    | with_reducible apply kept_bits
    | simp only [kept_mk_eq]
    | split

theorem State.monUrgentReq_kept {s₀ s : State} (h : Kept s₀ s) (g e : Nat) (a : Ans) :
    Kept s₀ (State.monUrgentReq s g e a).1 := by
  unfold State.monUrgentReq
  repeat' first
    | with_reducible exact h
    | with_reducible assumption
    | with_reducible intro _
    | with_reducible apply kept_ite
    | with_reducible apply kept_ite_fst
    | with_reducible refine kept_of_fst (by assumption) ?_
    | with_reducible apply State.inc_kept
    | with_reducible apply State.modMon_kept
    | with_reducible apply kept_bits
    | simp only [kept_mk_eq]
    | split

theorem State.monFreeze_kept {s₀ s : State} (h : Kept s₀ s) (g : Nat) :
    Kept s₀ (State.monFreeze s g) := by
  unfold State.monFreeze
  repeat' first
    | with_reducible exact h
    | with_reducible assumption
    | with_reducible intro _
    | with_reducible apply kept_ite
    | with_reducible apply State.answer_kept
    | with_reducible apply State.setFence_kept
    | with_reducible apply State.monFence_kept
    | with_reducible apply kept_bits
    | simp only [kept_mk_eq]
    | split

theorem State.monThaw_kept {s₀ s : State} (h : Kept s₀ s) (g : Nat) :
    Kept s₀ (State.monThaw s g) := by
  unfold State.monThaw
  repeat' first
    | with_reducible exact h
    | with_reducible assumption
    | with_reducible intro _
    | with_reducible apply kept_ite
    | with_reducible apply State.modMon_kept
    | with_reducible apply kept_bits
    | simp only [kept_mk_eq]
    | split

theorem State.monSliceFail_kept {s₀ s : State} (h : Kept s₀ s) (g : Nat) (b : Bool) (k : Nat) :
    Kept s₀ (State.monSliceFail s g b k) := by
  unfold State.monSliceFail
  repeat' first
    | with_reducible exact h
    | with_reducible assumption
    | with_reducible intro _
    | with_reducible apply kept_ite
    | with_reducible apply State.modMon_kept
    | with_reducible apply State.report_kept
    | with_reducible apply kept_bits
    | simp only [kept_mk_eq]
    | split

theorem State.monSwap_kept {s₀ s : State} (h : Kept s₀ s) (g : Nat) (b : Bool) (offset ppm : Int) :
    Kept s₀ (State.monSwap s g b offset ppm) := by
  unfold State.monSwap
  repeat' first
    | with_reducible exact h
    | with_reducible assumption
    | with_reducible intro _
    | with_reducible apply kept_ite
    | with_reducible apply State.monSliceFail_kept
    | with_reducible apply State.modMon_kept
    | with_reducible apply kept_bits
    | simp only [kept_mk_eq]
    | split

theorem State.monRestored_kept {s₀ s : State} (h : Kept s₀ s) (g fa fb : Nat) :
    Kept s₀ (State.monRestored s g fa fb) := by
  unfold State.monRestored
  repeat' first
    | with_reducible exact h
    | with_reducible assumption
    | with_reducible intro _
    | with_reducible apply kept_ite
    | with_reducible apply kept_each
    | with_reducible apply State.modMon_kept
    | with_reducible apply State.monSliceFail_kept
    | with_reducible apply kept_bits
    | simp only [kept_mk_eq]
    | split

theorem State.accClear_kept {s₀ s : State} (h : Kept s₀ s) (g k : Nat) :
    Kept s₀ (State.accClear s g k) := by
  unfold State.accClear
  repeat' first
    | with_reducible exact h
    | with_reducible assumption
    | with_reducible intro _
    | with_reducible apply kept_ite
    | with_reducible apply State.modMon_kept
    | with_reducible apply kept_bits
    | simp only [kept_mk_eq]
    | split

end Sys2Proof.Machine
end

