-- ==== Sys2Proof/Laws/ReedKept.lean ====
section
/-! SUPPORT. What the operations of Machine/Reed.lean keep. -/
namespace Sys2Proof.Machine
open Sys2Proof

theorem State.reedPush_kept {s₀ s : State} (h : Kept s₀ s) (c act : Nat) :
    Kept s₀ (State.reedPush s c act) := by
  unfold State.reedPush
  repeat' first
    | with_reducible exact h
    | with_reducible assumption
    | with_reducible intro _
    | with_reducible apply kept_ite
    | with_reducible apply State.modGr_kept
    | with_reducible apply kept_bits
    | simp only [kept_mk_eq]
    | split

theorem State.reedAct_kept {s₀ s : State} (h : Kept s₀ s) (c act : Nat) :
    Kept s₀ (State.reedAct s c act) := by
  unfold State.reedAct
  repeat' first
    | with_reducible exact h
    | with_reducible assumption
    | with_reducible intro _
    | with_reducible apply kept_ite
    | with_reducible apply kept_ite_fst
    | with_reducible refine kept_of_fst (by assumption) ?_
    | with_reducible refine State.muteAt_kept ?_ _ _ _ (by assumption)
    | with_reducible apply State.inc_kept
    | with_reducible apply State.offAt_kept
    | with_reducible apply kept_bits
    | simp only [kept_mk_eq]
    | split

theorem State.reedTrip_kept {s₀ s : State} (h : Kept s₀ s) (c : Nat) (cur low : Bool) :
    Kept s₀ (State.reedTrip s c cur low) := by
  unfold State.reedTrip
  repeat' first
    | with_reducible exact h
    | with_reducible assumption
    | with_reducible intro _
    | with_reducible apply kept_ite
    | with_reducible apply State.modCh_kept
    | with_reducible apply State.inc_kept
    | with_reducible apply State.reedAct_kept
    | with_reducible apply State.reedPush_kept
    | with_reducible apply State.edge_kept
    | with_reducible apply kept_bits
    | simp only [kept_mk_eq]
    | split

theorem State.reedTake_kept {s₀ s : State} (h : Kept s₀ s) (c : Nat) (cur : Bool) (x : Int) :
    Kept s₀ (State.reedTake s c cur x) := by
  unfold State.reedTake
  repeat' first
    | with_reducible exact h
    | with_reducible assumption
    | with_reducible intro _
    | with_reducible apply kept_ite
    | with_reducible apply State.modCh_kept
    | with_reducible apply State.reedTrip_kept
    | with_reducible apply kept_bits
    | simp only [kept_mk_eq]
    | split

theorem State.reedAll_kept {s₀ s : State} (h : Kept s₀ s) (l : List ReedIn) :
    Kept s₀ (State.reedAll s l) := by
  unfold State.reedAll
  repeat' first
    | with_reducible exact h
    | with_reducible assumption
    | with_reducible intro _
    | with_reducible apply kept_ite
    | with_reducible apply kept_each
    | with_reducible apply State.reedTake_kept
    | with_reducible apply kept_bits
    | simp only [kept_mk_eq]
    | split

theorem State.testStart_kept {s₀ s : State} (h : Kept s₀ s) (g : Nat) :
    Kept s₀ (State.testStart s g) := by
  unfold State.testStart
  repeat' first
    | with_reducible exact h
    | with_reducible assumption
    | with_reducible intro _
    | with_reducible apply kept_ite
    | with_reducible apply State.modGr_kept
    | with_reducible apply kept_bits
    | simp only [kept_mk_eq]
    | split

theorem State.testNextSlice_kept {s₀ s : State} (h : Kept s₀ s) (g n p : Nat) : Kept s₀ (s.testNextSlice g n p) := by
  induction n generalizing p with
  | zero => exact h
  | succ n ih =>
    unfold State.testNextSlice
    split
    · exact State.modGr_kept (State.inc_kept h _ _ _) _ _
    · split
      · exact ih _
      · exact State.modGr_kept h _ _

theorem State.testOne_kept {s₀ s : State} (h : Kept s₀ s) (g p k : Nat) (cur : Bool) (r : TestOut) :
    Kept s₀ (State.testOne s g p k cur r) := by
  unfold State.testOne
  repeat' first
    | with_reducible exact h
    | with_reducible assumption
    | with_reducible intro _
    | with_reducible apply kept_ite
    | with_reducible apply kept_getD
    | with_reducible apply State.inc_kept
    | with_reducible apply State.modGr_kept
    | with_reducible apply State.wr_kept
    | with_reducible apply State.report_kept
    | with_reducible apply kept_bits
    | simp only [kept_mk_eq]
    | split

theorem State.testTick_kept {s₀ s : State} (h : Kept s₀ s) (g : Nat) (v i : TestOut) :
    Kept s₀ (State.testTick s g v i) := by
  unfold State.testTick
  repeat' first
    | with_reducible exact h
    | with_reducible assumption
    | with_reducible intro _
    | with_reducible apply kept_ite
    | with_reducible apply kept_ite_fst
    | with_reducible refine kept_of_fst (by assumption) ?_
    | with_reducible apply State.testNextSlice_kept
    | with_reducible apply State.testOne_kept
    | with_reducible apply State.modGr_kept
    | with_reducible apply State.wr_kept
    | with_reducible apply kept_bits
    | simp only [kept_mk_eq]
    | split

end Sys2Proof.Machine
end

