-- ==== Sys2Proof/Laws/CalKept.lean ====
section
/-! SUPPORT. What the operations of Machine/Cal.lean keep. -/
namespace Sys2Proof.Machine
open Sys2Proof

theorem State.calStore_kept {s₀ s : State} (h : Kept s₀ s)  :
    Kept s₀ (State.calStore s) := by
  unfold State.calStore
  repeat' first
    | with_reducible exact h
    | with_reducible assumption
    | with_reducible intro _
    | with_reducible apply kept_ite
    | with_reducible apply State.nvmPut_kept
    | with_reducible apply kept_bits
    | simp only [kept_mk_eq]
    | split

theorem State.calNext_kept {s₀ s : State} (h : Kept s₀ s) (g : Nat) :
    Kept s₀ (State.calNext s g) := by
  unfold State.calNext
  repeat' first
    | with_reducible exact h
    | with_reducible assumption
    | with_reducible intro _
    | with_reducible apply kept_ite
    | with_reducible apply kept_ite_fst
    | with_reducible refine kept_of_fst (by assumption) ?_
    | with_reducible apply State.calStore_kept
    | with_reducible apply State.modGr_kept
    | with_reducible apply State.push_kept
    | with_reducible apply State.calBegin_kept
    | with_reducible apply kept_bits
    | simp only [kept_mk_eq]
    | split

theorem State.calRun_kept {s₀ s : State} (h : Kept s₀ s) (g : Nat) :
    Kept s₀ (State.calRun s g) := by
  unfold State.calRun
  repeat' first
    | with_reducible exact h
    | with_reducible assumption
    | with_reducible intro _
    | with_reducible apply kept_ite
    | with_reducible apply kept_each
    | with_reducible apply State.wr_kept
    | with_reducible apply State.modCh_kept
    | with_reducible apply State.calStore_kept
    | with_reducible apply State.modGr_kept
    | with_reducible apply State.calNext_kept
    | with_reducible apply kept_bits
    | simp only [kept_mk_eq]
    | split

theorem State.calStartReq_kept {s₀ s : State} (h : Kept s₀ s) (g owner : Nat) (secure : Bool) (a : Ans) :
    Kept s₀ (State.calStartReq s g owner secure a).1 := by
  unfold State.calStartReq
  repeat' first
    | with_reducible exact h
    | with_reducible assumption
    | with_reducible intro _
    | with_reducible apply kept_ite
    | with_reducible apply kept_ite_fst
    | with_reducible refine kept_of_fst (by assumption) ?_
    | with_reducible apply kept_getD
    | with_reducible apply State.idle_kept
    | with_reducible apply State.modGr_kept
    | with_reducible apply State.calRun_kept
    | with_reducible apply kept_bits
    | simp only [kept_mk_eq]
    | split

theorem State.capTemp_kept {s₀ s : State} (h : Kept s₀ s) (k : Nat) :
    Kept s₀ (State.capTemp s k) := by
  unfold State.capTemp
  repeat' first
    | with_reducible exact h
    | with_reducible assumption
    | with_reducible intro _
    | with_reducible apply kept_ite
    | with_reducible apply State.modSl_kept
    | with_reducible apply kept_bits
    | simp only [kept_mk_eq]
    | split

theorem State.calBegin_kept {s₀ s : State} (h : Kept s₀ s) (g : Nat) :
    Kept s₀ (State.calBegin s g) := by
  unfold State.calBegin
  repeat' first
    | with_reducible exact h
    | with_reducible assumption
    | with_reducible intro _
    | with_reducible apply kept_ite
    | with_reducible apply kept_ite_fst
    | with_reducible refine kept_of_fst (by assumption) ?_
    | with_reducible apply kept_getD
    | with_reducible refine State.muteAt_kept ?_ _ _ _ (by assumption)
    | with_reducible apply State.capTemp_kept
    | with_reducible apply State.modCh_kept
    | with_reducible apply State.modGr_kept
    | with_reducible apply kept_bits
    | simp only [kept_mk_eq]
    | split

theorem State.calSliceDone_kept {s₀ s : State} (h : Kept s₀ s) (g : Nat) :
    Kept s₀ (State.calSliceDone s g) := by
  unfold State.calSliceDone
  repeat' first
    | with_reducible exact h
    | with_reducible assumption
    | with_reducible intro _
    | with_reducible apply kept_ite
    | with_reducible apply kept_ite_fst
    | with_reducible refine kept_of_fst (by assumption) ?_
    | with_reducible apply State.modCh_kept
    | with_reducible apply State.switches_kept
    | with_reducible apply State.modGr_kept
    | with_reducible apply State.calNext_kept
    | with_reducible apply kept_bits
    | simp only [kept_mk_eq]
    | split

theorem State.calReturn_kept {s₀ s : State} (h : Kept s₀ s) (g : Nat) :
    Kept s₀ (State.calReturn s g) := by
  unfold State.calReturn
  repeat' first
    | with_reducible exact h
    | with_reducible assumption
    | with_reducible intro _
    | with_reducible apply kept_ite
    | with_reducible apply State.modGr_kept
    | with_reducible apply State.modCh_kept
    | with_reducible apply State.calSliceDone_kept
    | with_reducible apply kept_bits
    | simp only [kept_mk_eq]
    | split

theorem State.handTick_kept {s₀ s : State} (h : Kept s₀ s) (g : Nat) :
    Kept s₀ (State.handTick s g) := by
  unfold State.handTick
  repeat' first
    | with_reducible exact h
    | with_reducible assumption
    | with_reducible intro _
    | with_reducible apply kept_ite
    | with_reducible apply State.modGr_kept
    | with_reducible apply State.inc_kept
    | with_reducible apply State.modCh_kept
    | with_reducible apply State.calSliceDone_kept
    | with_reducible apply State.capTemp_kept
    | with_reducible apply kept_bits
    | simp only [kept_mk_eq]
    | split

theorem State.capBegin_kept {s₀ s : State} (h : Kept s₀ s) (c : Nat) :
    Kept s₀ (State.capBegin s c) := by
  unfold State.capBegin
  repeat' first
    | with_reducible exact h
    | with_reducible assumption
    | with_reducible intro _
    | with_reducible apply kept_ite
    | with_reducible apply State.modAper_kept
    | with_reducible apply kept_bits
    | simp only [kept_mk_eq]
    | split

theorem State.calMeasured_kept {s₀ s : State} (h : Kept s₀ s) (g : Nat) :
    Kept s₀ (State.calMeasured s g) := by
  unfold State.calMeasured
  repeat' first
    | with_reducible exact h
    | with_reducible assumption
    | with_reducible intro _
    | with_reducible apply kept_ite
    | with_reducible apply State.modGr_kept
    | with_reducible apply State.push_kept
    | with_reducible apply State.calReturn_kept
    | with_reducible apply kept_bits
    | simp only [kept_mk_eq]
    | split

theorem State.closeStd_kept {s₀ s : State} (h : Kept s₀ s) (c kind : Nat) :
    Kept s₀ (State.closeStd s c kind) := by
  unfold State.closeStd
  repeat' first
    | with_reducible exact h
    | with_reducible assumption
    | with_reducible intro _
    | with_reducible apply kept_ite
    | with_reducible apply State.modCh_kept
    | with_reducible apply kept_bits
    | simp only [kept_mk_eq]
    | split

theorem State.calPoint_kept {s₀ s : State} (h : Kept s₀ s) (g : Nat) (x : Int) :
    Kept s₀ (State.calPoint s g x) := by
  unfold State.calPoint
  repeat' first
    | with_reducible exact h
    | with_reducible assumption
    | with_reducible intro _
    | with_reducible apply kept_ite
    | with_reducible apply kept_ite_fst
    | with_reducible refine kept_of_fst (by assumption) ?_
    | with_reducible apply kept_ite_snd
    | with_reducible refine kept_of_snd (by assumption) ?_
    | with_reducible apply State.capBegin_kept
    | with_reducible apply State.closeStd_kept
    | with_reducible apply State.modGr_kept
    | with_reducible apply State.calEnd_kept
    | with_reducible apply State.report_kept
    | with_reducible apply State.capTemp_kept
    | with_reducible apply State.calMeasured_kept
    | with_reducible apply kept_bits
    | simp only [kept_mk_eq]
    | split

theorem State.calWritten_kept {s₀ s : State} (h : Kept s₀ s) (g : Nat) (ok : Bool) :
    Kept s₀ (State.calWritten s g ok) := by
  unfold State.calWritten
  repeat' first
    | with_reducible exact h
    | with_reducible assumption
    | with_reducible intro _
    | with_reducible apply kept_ite
    | with_reducible apply State.calEnd_kept
    | with_reducible apply State.calActivate_kept
    | with_reducible apply State.modGr_kept
    | with_reducible apply State.push_kept
    | with_reducible apply kept_bits
    | simp only [kept_mk_eq]
    | split

theorem State.calCommitAt_kept {s₀ s : State} (h : Kept s₀ s) (g : Nat) :
    Kept s₀ (State.calCommitAt s g) := by
  unfold State.calCommitAt
  repeat' first
    | with_reducible exact h
    | with_reducible assumption
    | with_reducible intro _
    | with_reducible apply kept_ite
    | with_reducible apply State.nvmPut_kept
    | with_reducible apply State.wr_kept
    | with_reducible apply State.calRelease_kept
    | with_reducible apply State.modGr_kept
    | with_reducible apply kept_bits
    | simp only [kept_mk_eq]
    | split

theorem State.thermPass_kept {s₀ s : State} (h : Kept s₀ s) (g : Nat) :
    Kept s₀ (State.thermPass s g) := by
  unfold State.thermPass
  repeat' first
    | with_reducible exact h
    | with_reducible assumption
    | with_reducible intro _
    | with_reducible apply kept_ite
    | with_reducible apply kept_ite_fst
    | with_reducible refine kept_of_fst (by assumption) ?_
    | with_reducible apply kept_each
    | with_reducible apply State.modSl_kept
    | with_reducible apply kept_bits
    | simp only [kept_mk_eq]
    | split

theorem State.thermal_kept {s₀ s : State} (h : Kept s₀ s) (c : Nat) :
    Kept s₀ (State.thermal s c) := by
  unfold State.thermal
  repeat' first
    | with_reducible exact h
    | with_reducible assumption
    | with_reducible intro _
    | with_reducible apply kept_ite
    | with_reducible apply kept_ite_fst
    | with_reducible refine kept_of_fst (by assumption) ?_
    | with_reducible apply kept_ite_snd
    | with_reducible refine kept_of_snd (by assumption) ?_
    | with_reducible apply State.wr_kept
    | with_reducible apply State.modAper_kept
    | with_reducible apply State.modSl_kept
    | with_reducible apply State.report_kept
    | with_reducible apply State.modCh_kept
    | with_reducible apply kept_bits
    | simp only [kept_mk_eq]
    | split

theorem State.thermalLimit_kept {s₀ s : State} (h : Kept s₀ s) (k : Nat) (old new : Int) :
    Kept s₀ (State.thermalLimit s k old new) := by
  unfold State.thermalLimit
  repeat' first
    | with_reducible exact h
    | with_reducible assumption
    | with_reducible intro _
    | with_reducible apply kept_ite
    | with_reducible apply State.report_kept
    | with_reducible apply kept_bits
    | simp only [kept_mk_eq]
    | split

end Sys2Proof.Machine
end

