-- ==== Sys2Proof/Laws/NetKept.lean ====
section
/-! SUPPORT. What the operations of Machine/Net.lean keep. -/
namespace Sys2Proof.Machine
open Sys2Proof

theorem State.sendFrame_kept {s₀ s : State} (h : Kept s₀ s) (p kind : Nat) (frame : List Byte) :
    Kept s₀ (State.sendFrame s p kind frame) := by
  unfold State.sendFrame
  repeat' first
    | with_reducible exact h
    | with_reducible assumption
    | with_reducible intro _
    | with_reducible apply kept_ite
    | with_reducible apply State.send_kept
    | with_reducible apply State.frame_kept
    | with_reducible apply State.inc_kept
    | with_reducible apply kept_bits
    | simp only [kept_mk_eq]
    | split

theorem State.sendArp_kept {s₀ s : State} (h : Kept s₀ s) (p kind dst op tmac tip : Nat) :
    Kept s₀ (State.sendArp s p kind dst op tmac tip) := by
  unfold State.sendArp
  repeat' first
    | with_reducible exact h
    | with_reducible assumption
    | with_reducible intro _
    | with_reducible apply kept_ite
    | with_reducible apply State.sendFrame_kept
    | with_reducible apply kept_bits
    | simp only [kept_mk_eq]
    | split

theorem State.arpLearn_kept {s₀ s : State} (h : Kept s₀ s) (p ip mac : Nat) :
    Kept s₀ (State.arpLearn s p ip mac) := by
  unfold State.arpLearn
  repeat' first
    | with_reducible exact h
    | with_reducible assumption
    | with_reducible intro _
    | with_reducible apply kept_ite
    | with_reducible apply State.modPort_kept
    | with_reducible apply kept_bits
    | simp only [kept_mk_eq]
    | split

theorem State.arpAsk_kept {s₀ s : State} (h : Kept s₀ s) (p ip : Nat) :
    Kept s₀ (State.arpAsk s p ip) := by
  unfold State.arpAsk
  repeat' first
    | with_reducible exact h
    | with_reducible assumption
    | with_reducible intro _
    | with_reducible apply kept_ite
    | with_reducible apply State.modPort_kept
    | with_reducible apply State.sendArp_kept
    | with_reducible apply kept_bits
    | simp only [kept_mk_eq]
    | split

theorem State.streamAsk_kept {s₀ s : State} (h : Kept s₀ s) (k : Nat) :
    Kept s₀ (State.streamAsk s k) := by
  unfold State.streamAsk
  repeat' first
    | with_reducible exact h
    | with_reducible assumption
    | with_reducible intro _
    | with_reducible apply kept_ite
    | with_reducible apply kept_each
    | with_reducible apply State.arpAsk_kept
    | with_reducible apply kept_bits
    | simp only [kept_mk_eq]
    | split

theorem State.streamRun_kept {s₀ s : State} (h : Kept s₀ s) (k : Nat) :
    Kept s₀ (State.streamRun s k) := by
  unfold State.streamRun
  repeat' first
    | with_reducible exact h
    | with_reducible assumption
    | with_reducible intro _
    | with_reducible apply kept_ite
    | with_reducible apply kept_each
    | with_reducible apply State.wr_kept
    | with_reducible apply State.modAper_kept
    | with_reducible apply kept_bits
    | simp only [kept_mk_eq]
    | split

theorem State.streamTry_kept {s₀ s : State} (h : Kept s₀ s) (k : Nat) :
    Kept s₀ (State.streamTry s k) := by
  unfold State.streamTry
  repeat' first
    | with_reducible exact h
    | with_reducible assumption
    | with_reducible intro _
    | with_reducible apply kept_ite
    | with_reducible apply State.streamRun_kept
    | with_reducible apply kept_bits
    | simp only [kept_mk_eq]
    | split

theorem State.streamStart_kept {s₀ s : State} (h : Kept s₀ s) (k : Nat) :
    Kept s₀ (State.streamStart s k) := by
  unfold State.streamStart
  repeat' first
    | with_reducible exact h
    | with_reducible assumption
    | with_reducible intro _
    | with_reducible apply kept_ite
    | with_reducible apply State.wr_kept
    | with_reducible apply State.modSt_kept
    | with_reducible apply State.answers_kept
    | with_reducible apply State.moveIfLost_kept
    | with_reducible apply State.streamRun_kept
    | with_reducible apply State.streamAsk_kept
    | with_reducible apply kept_bits
    | simp only [kept_mk_eq]
    | split

theorem State.streamStop_kept {s₀ s : State} (h : Kept s₀ s) (k : Nat) (a : Ans) :
    Kept s₀ (State.streamStop s k a) := by
  unfold State.streamStop
  repeat' first
    | with_reducible exact h
    | with_reducible assumption
    | with_reducible intro _
    | with_reducible apply kept_ite
    | with_reducible apply kept_each
    | with_reducible apply State.loseBlocks_kept
    | with_reducible apply State.wr_kept
    | with_reducible apply State.modSt_kept
    | with_reducible apply State.answer_kept
    | with_reducible apply State.closeBlock_kept
    | with_reducible apply State.drainCheck_kept
    | with_reducible apply kept_bits
    | simp only [kept_mk_eq]
    | split

theorem State.streamsAsk_kept {s₀ s : State} (h : Kept s₀ s)  :
    Kept s₀ (State.streamsAsk s) := by
  unfold State.streamsAsk
  repeat' first
    | with_reducible exact h
    | with_reducible assumption
    | with_reducible intro _
    | with_reducible apply kept_ite
    | with_reducible apply kept_each
    | with_reducible apply State.streamAsk_kept
    | with_reducible apply State.streamTry_kept
    | with_reducible apply kept_bits
    | simp only [kept_mk_eq]
    | split

theorem State.portGained_kept {s₀ s : State} (h : Kept s₀ s) (p : Nat) :
    Kept s₀ (State.portGained s p) := by
  unfold State.portGained
  repeat' first
    | with_reducible exact h
    | with_reducible assumption
    | with_reducible intro _
    | with_reducible apply kept_ite
    | with_reducible apply kept_each
    | with_reducible apply State.moveStreams_kept
    | with_reducible apply State.dropPort_kept
    | with_reducible apply State.streamsAsk_kept
    | with_reducible apply kept_bits
    | simp only [kept_mk_eq]
    | split

theorem State.holdFrom_kept {s₀ s : State} (h : Kept s₀ s) (p : Nat) :
    Kept s₀ (State.holdFrom s p) := by
  unfold State.holdFrom
  repeat' first
    | with_reducible exact h
    | with_reducible assumption
    | with_reducible intro _
    | with_reducible apply kept_ite
    | with_reducible apply State.modPort_kept
    | with_reducible apply kept_bits
    | simp only [kept_mk_eq]
    | split

theorem State.gratuitous_kept {s₀ s : State} (h : Kept s₀ s) (p : Nat) :
    Kept s₀ (State.gratuitous s p) := by
  unfold State.gratuitous
  repeat' first
    | with_reducible exact h
    | with_reducible assumption
    | with_reducible intro _
    | with_reducible apply kept_ite
    | with_reducible apply State.modPort_kept
    | with_reducible apply State.sendArp_kept
    | with_reducible apply kept_bits
    | simp only [kept_mk_eq]
    | split

theorem State.setAddr_kept {s₀ s : State} (h : Kept s₀ s) (p ip mask router : Nat) :
    Kept s₀ (State.setAddr s p ip mask router) := by
  unfold State.setAddr
  repeat' first
    | with_reducible exact h
    | with_reducible assumption
    | with_reducible intro _
    | with_reducible apply kept_ite
    | with_reducible apply State.wr_kept
    | with_reducible apply State.modPort_kept
    | with_reducible apply State.holdFrom_kept
    | with_reducible apply State.streamsAsk_kept
    | with_reducible apply State.portLost_kept
    | with_reducible apply State.gratuitous_kept
    | with_reducible apply State.portGained_kept
    | with_reducible apply kept_bits
    | simp only [kept_mk_eq]
    | split

theorem State.staticAddr_kept {s₀ s : State} (h : Kept s₀ s) (p : Nat) :
    Kept s₀ (State.staticAddr s p) := by
  unfold State.staticAddr
  repeat' first
    | with_reducible exact h
    | with_reducible assumption
    | with_reducible intro _
    | with_reducible apply kept_ite
    | with_reducible apply State.setAddr_kept
    | with_reducible apply kept_bits
    | simp only [kept_mk_eq]
    | split

theorem State.dhcpSend_kept {s₀ s : State} (h : Kept s₀ s) (p type ask : Nat) (alone : Bool) :
    Kept s₀ (State.dhcpSend s p type ask alone) := by
  unfold State.dhcpSend
  repeat' first
    | with_reducible exact h
    | with_reducible assumption
    | with_reducible intro _
    | with_reducible apply kept_ite
    | with_reducible apply State.modPort_kept
    | with_reducible apply State.sendFrame_kept
    | with_reducible apply kept_bits
    | simp only [kept_mk_eq]
    | split

theorem State.dhcpStart_kept {s₀ s : State} (h : Kept s₀ s) (p : Nat) :
    Kept s₀ (State.dhcpStart s p) := by
  unfold State.dhcpStart
  repeat' first
    | with_reducible exact h
    | with_reducible assumption
    | with_reducible intro _
    | with_reducible apply kept_ite
    | with_reducible apply State.modPort_kept
    | with_reducible apply State.dhcpSend_kept
    | with_reducible apply kept_bits
    | simp only [kept_mk_eq]
    | split

theorem State.addrMode_kept {s₀ s : State} (h : Kept s₀ s) (p : Nat) :
    Kept s₀ (State.addrMode s p) := by
  unfold State.addrMode
  repeat' first
    | with_reducible exact h
    | with_reducible assumption
    | with_reducible intro _
    | with_reducible apply kept_ite
    | with_reducible apply State.modPort_kept
    | with_reducible apply State.staticAddr_kept
    | with_reducible apply State.setAddr_kept
    | with_reducible apply State.dhcpStart_kept
    | with_reducible apply kept_bits
    | simp only [kept_mk_eq]
    | split

theorem State.dhcpTake_kept {s₀ s : State} (h : Kept s₀ s) (p : Nat) (m : DhcpIn) :
    Kept s₀ (State.dhcpTake s p m) := by
  unfold State.dhcpTake
  repeat' first
    | with_reducible exact h
    | with_reducible assumption
    | with_reducible intro _
    | with_reducible apply kept_ite
    | with_reducible apply kept_ite_fst
    | with_reducible refine kept_of_fst (by assumption) ?_
    | with_reducible apply kept_getD
    | with_reducible apply State.modPort_kept
    | with_reducible apply State.dhcpSend_kept
    | with_reducible apply State.setAddr_kept
    | with_reducible apply State.dhcpStart_kept
    | with_reducible apply kept_bits
    | simp only [kept_mk_eq]
    | split

theorem State.linkOff_kept {s₀ s : State} (h : Kept s₀ s) (p : Nat) :
    Kept s₀ (State.linkOff s p) := by
  unfold State.linkOff
  repeat' first
    | with_reducible exact h
    | with_reducible assumption
    | with_reducible intro _
    | with_reducible apply kept_ite
    | with_reducible apply State.modPort_kept
    | with_reducible apply State.holdFrom_kept
    | with_reducible apply State.portLost_kept
    | with_reducible apply kept_bits
    | simp only [kept_mk_eq]
    | split

theorem State.linkOn_kept {s₀ s : State} (h : Kept s₀ s) (p : Nat) :
    Kept s₀ (State.linkOn s p) := by
  unfold State.linkOn
  repeat' first
    | with_reducible exact h
    | with_reducible assumption
    | with_reducible intro _
    | with_reducible apply kept_ite
    | with_reducible apply State.modPort_kept
    | with_reducible apply State.holdFrom_kept
    | with_reducible apply State.dhcpStart_kept
    | with_reducible apply State.gratuitous_kept
    | with_reducible apply State.portGained_kept
    | with_reducible apply kept_bits
    | simp only [kept_mk_eq]
    | split

theorem State.servoTo_kept {s₀ s : State} (h : Kept s₀ s) (st : Nat) :
    Kept s₀ (State.servoTo s st) := by
  unfold State.servoTo
  repeat' first
    | with_reducible exact h
    | with_reducible assumption
    | with_reducible intro _
    | with_reducible apply kept_ite
    | with_reducible apply State.wr_kept
    | with_reducible apply State.report_kept
    | with_reducible apply kept_bits
    | simp only [kept_mk_eq]
    | split

theorem State.stepTime_kept {s₀ s : State} (h : Kept s₀ s) (d : Int) :
    Kept s₀ (State.stepTime s d) := by
  unfold State.stepTime
  repeat' first
    | with_reducible exact h
    | with_reducible assumption
    | with_reducible intro _
    | with_reducible apply kept_ite
    | with_reducible apply State.inc_kept
    | with_reducible apply kept_bits
    | simp only [kept_mk_eq]
    | split

theorem State.calibrate_kept {s₀ s : State} (h : Kept s₀ s) (d : Int) :
    Kept s₀ (State.calibrate s d) := by
  unfold State.calibrate
  repeat' first
    | with_reducible exact h
    | with_reducible assumption
    | with_reducible intro _
    | with_reducible apply kept_ite
    | with_reducible apply State.stepTime_kept
    | with_reducible apply State.servoTo_kept
    | with_reducible apply kept_bits
    | simp only [kept_mk_eq]
    | split

theorem State.trim_kept {s₀ s : State} (h : Kept s₀ s)  :
    Kept s₀ (State.trim s) := by
  unfold State.trim
  repeat' first
    | with_reducible exact h
    | with_reducible assumption
    | with_reducible intro _
    | with_reducible apply kept_ite
    | with_reducible apply kept_bits
    | simp only [kept_mk_eq]
    | split

theorem State.servo_kept {s₀ s : State} (h : Kept s₀ s) (d : Int) :
    Kept s₀ (State.servo s d) := by
  unfold State.servo
  repeat' first
    | with_reducible exact h
    | with_reducible assumption
    | with_reducible intro _
    | with_reducible apply kept_ite
    | with_reducible apply kept_ite_fst
    | with_reducible refine kept_of_fst (by assumption) ?_
    | with_reducible apply State.wr_kept
    | with_reducible apply State.calibrate_kept
    | with_reducible apply State.trim_kept
    | with_reducible apply State.servoTo_kept
    | with_reducible apply kept_bits
    | simp only [kept_mk_eq]
    | split

theorem State.ptpMoved_kept {s₀ s : State} (h : Kept s₀ s) (old : Nat) :
    Kept s₀ (State.ptpMoved s old) := by
  unfold State.ptpMoved
  repeat' first
    | with_reducible exact h
    | with_reducible assumption
    | with_reducible intro _
    | with_reducible apply kept_ite
    | with_reducible apply State.servoTo_kept
    | with_reducible apply kept_bits
    | simp only [kept_mk_eq]
    | split

theorem State.ptpSelect_kept {s₀ s : State} (h : Kept s₀ s)  :
    Kept s₀ (State.ptpSelect s) := by
  unfold State.ptpSelect
  repeat' first
    | with_reducible exact h
    | with_reducible assumption
    | with_reducible intro _
    | with_reducible apply kept_ite
    | with_reducible apply kept_bits
    | simp only [kept_mk_eq]
    | split

theorem State.servoTimeout_kept {s₀ s : State} (h : Kept s₀ s)  :
    Kept s₀ (State.servoTimeout s) := by
  unfold State.servoTimeout
  repeat' first
    | with_reducible exact h
    | with_reducible assumption
    | with_reducible intro _
    | with_reducible apply kept_ite
    | with_reducible apply kept_ite_fst
    | with_reducible refine kept_of_fst (by assumption) ?_
    | with_reducible apply State.quiet_kept
    | with_reducible apply State.ptpSelect_kept
    | with_reducible apply State.servoTo_kept
    | with_reducible apply State.ptpMoved_kept
    | with_reducible apply kept_bits
    | simp only [kept_mk_eq]
    | split

theorem State.setTimeSrc_kept {s₀ s : State} (h : Kept s₀ s) (v : Int) :
    Kept s₀ (State.setTimeSrc s v) := by
  unfold State.setTimeSrc
  repeat' first
    | with_reducible exact h
    | with_reducible assumption
    | with_reducible intro _
    | with_reducible apply kept_ite
    | with_reducible apply State.wr_kept
    | with_reducible apply State.servoTo_kept
    | with_reducible apply kept_bits
    | simp only [kept_mk_eq]
    | split

theorem State.ppsEdge_kept {s₀ s : State} (h : Kept s₀ s)  :
    Kept s₀ (State.ppsEdge s) := by
  unfold State.ppsEdge
  repeat' first
    | with_reducible exact h
    | with_reducible assumption
    | with_reducible intro _
    | with_reducible apply kept_ite
    | with_reducible apply State.wr_kept
    | with_reducible apply State.servo_kept
    | with_reducible apply State.edge_kept
    | with_reducible apply kept_bits
    | simp only [kept_mk_eq]
    | split

theorem State.setPpsOffset_kept {s₀ s : State} (h : Kept s₀ s) (v : Int) :
    Kept s₀ (State.setPpsOffset s v) := by
  unfold State.setPpsOffset
  repeat' first
    | with_reducible exact h
    | with_reducible assumption
    | with_reducible intro _
    | with_reducible apply kept_ite
    | with_reducible apply State.wr_kept
    | with_reducible apply kept_bits
    | simp only [kept_mk_eq]
    | split

theorem State.setPpsWidth_kept {s₀ s : State} (h : Kept s₀ s) (v : Int) :
    Kept s₀ (State.setPpsWidth s v) := by
  unfold State.setPpsWidth
  repeat' first
    | with_reducible exact h
    | with_reducible assumption
    | with_reducible intro _
    | with_reducible apply kept_ite
    | with_reducible apply State.wr_kept
    | with_reducible apply kept_bits
    | simp only [kept_mk_eq]
    | split

theorem State.packetFlags_kept {s₀ s : State} (h : Kept s₀ s) (k p key : Nat) (locked : Bool) (cut : Option Bool) :
    Kept s₀ (State.packetFlags s k p key locked cut).2 := by
  unfold State.packetFlags
  repeat' first
    | with_reducible exact h
    | with_reducible assumption
    | with_reducible intro _
    | with_reducible apply kept_ite
    | with_reducible apply kept_ite_snd
    | with_reducible refine kept_of_snd (by assumption) ?_
    | with_reducible apply kept_getD
    | with_reducible apply kept_bits
    | simp only [kept_mk_eq]
    | split

theorem State.sendRecords_kept {s₀ s : State} (h : Kept s₀ s) (c p : Nat) :
    Kept s₀ (State.sendRecords s c p) := by
  unfold State.sendRecords
  repeat' first
    | with_reducible exact h
    | with_reducible assumption
    | with_reducible intro _
    | with_reducible apply kept_ite
    | with_reducible apply kept_ite_fst
    | with_reducible refine kept_of_fst (by assumption) ?_
    | with_reducible apply kept_ite_snd
    | with_reducible refine kept_of_snd (by assumption) ?_
    | with_reducible apply kept_getD
    | with_reducible apply State.packetFlags_kept
    | with_reducible apply State.send_kept
    | with_reducible apply State.modAper_kept
    | with_reducible apply State.inc_kept
    | with_reducible apply State.drainCheck_kept
    | with_reducible apply kept_bits
    | simp only [kept_mk_eq]
    | split

theorem State.sendAggs_kept {s₀ s : State} (h : Kept s₀ s) (k p : Nat) :
    Kept s₀ (State.sendAggs s k p) := by
  unfold State.sendAggs
  repeat' first
    | with_reducible exact h
    | with_reducible assumption
    | with_reducible intro _
    | with_reducible apply kept_ite
    | with_reducible apply kept_ite_fst
    | with_reducible refine kept_of_fst (by assumption) ?_
    | with_reducible apply kept_ite_snd
    | with_reducible refine kept_of_snd (by assumption) ?_
    | with_reducible apply kept_getD
    | with_reducible apply State.packetFlags_kept
    | with_reducible apply State.send_kept
    | with_reducible apply State.modSt_kept
    | with_reducible apply State.inc_kept
    | with_reducible apply State.drainCheck_kept
    | with_reducible apply kept_bits
    | simp only [kept_mk_eq]
    | split

theorem State.discardBlock_kept {s₀ s : State} (h : Kept s₀ s) (c : Nat) (b : Blk) :
    Kept s₀ (State.discardBlock s c b) := by
  unfold State.discardBlock
  repeat' first
    | with_reducible exact h
    | with_reducible assumption
    | with_reducible intro _
    | with_reducible apply kept_ite
    | with_reducible apply State.inc_kept
    | with_reducible apply State.modAper_kept
    | with_reducible apply State.report_kept
    | with_reducible apply State.drainCheck_kept
    | with_reducible apply kept_bits
    | simp only [kept_mk_eq]
    | split

theorem State.sendPacket_kept {s₀ s : State} (h : Kept s₀ s) (p : Nat) (bad : List Nat) :
    Kept s₀ (State.sendPacket s p bad) := by
  unfold State.sendPacket
  repeat' first
    | with_reducible exact h
    | with_reducible assumption
    | with_reducible intro _
    | with_reducible apply kept_ite
    | with_reducible apply kept_ite_fst
    | with_reducible refine kept_of_fst (by assumption) ?_
    | with_reducible apply kept_each
    | with_reducible apply State.discardBlock_kept
    | with_reducible apply State.sendRecords_kept
    | with_reducible apply State.sendAggs_kept
    | with_reducible apply kept_bits
    | simp only [kept_mk_eq]
    | split

theorem State.streamReturn_kept {s₀ s : State} (h : Kept s₀ s) (k : Nat) :
    Kept s₀ (State.streamReturn s k) := by
  unfold State.streamReturn
  repeat' first
    | with_reducible exact h
    | with_reducible assumption
    | with_reducible intro _
    | with_reducible apply kept_ite
    | with_reducible apply kept_ite_fst
    | with_reducible refine kept_of_fst (by assumption) ?_
    | with_reducible apply State.moveStream_kept
    | with_reducible apply State.streamAsk_kept
    | with_reducible apply kept_bits
    | simp only [kept_mk_eq]
    | split

theorem State.arpTake_kept {s₀ s : State} (h : Kept s₀ s) (n senderIp senderMac targetIp : Nat) :
    Kept s₀ (State.arpTake s n senderIp senderMac targetIp) := by
  unfold State.arpTake
  repeat' first
    | with_reducible exact h
    | with_reducible assumption
    | with_reducible intro _
    | with_reducible apply kept_ite
    | with_reducible apply State.arpLearn_kept
    | with_reducible apply State.sendArp_kept
    | with_reducible apply kept_bits
    | simp only [kept_mk_eq]
    | split

theorem State.icmpTake_kept {s₀ s : State} (h : Kept s₀ s) (n srcIp srcMac : Nat) (data : List Byte) :
    Kept s₀ (State.icmpTake s n srcIp srcMac data) := by
  unfold State.icmpTake
  repeat' first
    | with_reducible exact h
    | with_reducible assumption
    | with_reducible intro _
    | with_reducible apply kept_ite
    | with_reducible apply State.sendFrame_kept
    | with_reducible apply kept_bits
    | simp only [kept_mk_eq]
    | split

theorem State.syncDone_kept {s₀ s : State} (h : Kept s₀ s) (x : Int) :
    Kept s₀ (State.syncDone s x) := by
  unfold State.syncDone
  repeat' first
    | with_reducible exact h
    | with_reducible assumption
    | with_reducible intro _
    | with_reducible apply kept_ite
    | with_reducible apply State.servo_kept
    | with_reducible apply kept_bits
    | simp only [kept_mk_eq]
    | split

theorem State.delayDone_kept {s₀ s : State} (h : Kept s₀ s) (x : Int) :
    Kept s₀ (State.delayDone s x) := by
  unfold State.delayDone
  repeat' first
    | with_reducible exact h
    | with_reducible assumption
    | with_reducible intro _
    | with_reducible apply kept_ite
    | with_reducible apply State.wr_kept
    | with_reducible apply kept_bits
    | simp only [kept_mk_eq]
    | split

theorem State.ptpTake_kept {s₀ s : State} (h : Kept s₀ s) (n : Nat) (m : PtpMsg) :
    Kept s₀ (State.ptpTake s n m) := by
  unfold State.ptpTake
  repeat' first
    | with_reducible exact h
    | with_reducible assumption
    | with_reducible intro _
    | with_reducible apply kept_ite
    | with_reducible apply kept_ite_fst
    | with_reducible refine kept_of_fst (by assumption) ?_
    | with_reducible apply State.ptpSelect_kept
    | with_reducible apply State.ptpMoved_kept
    | with_reducible apply State.wr_kept
    | with_reducible apply State.servoTo_kept
    | with_reducible apply State.syncDone_kept
    | with_reducible apply State.delayDone_kept
    | with_reducible apply State.sendFrame_kept
    | with_reducible apply kept_bits
    | simp only [kept_mk_eq]
    | split

end Sys2Proof.Machine
end

