-- ==== Sys2Proof/Laws/RecoverKept.lean ====
section
/-! SUPPORT. What the operations of Machine/Recover.lean keep. -/
namespace Sys2Proof.Machine
open Sys2Proof

theorem State.acceptReport_kept {s₀ s : State} (h : Kept s₀ s) (m : Option FaultMsg) :
    Kept s₀ (State.acceptReport s m) := by
  unfold State.acceptReport
  repeat' first
    | with_reducible exact h
    | with_reducible assumption
    | with_reducible intro _
    | with_reducible apply kept_ite
    | with_reducible apply kept_ite_fst
    | with_reducible refine kept_of_fst (by assumption) ?_
    | with_reducible apply State.takeReport_kept
    | with_reducible apply kept_bits
    | simp only [kept_mk_eq]
    | split

theorem State.groupFailOut_kept {s₀ s : State} (h : Kept s₀ s) (g : Nat) :
    Kept s₀ (State.groupFailOut s g) := by
  unfold State.groupFailOut
  repeat' first
    | with_reducible exact h
    | with_reducible assumption
    | with_reducible intro _
    | with_reducible apply kept_ite
    | with_reducible apply State.giveEnd_kept
    | with_reducible apply State.push_kept
    | with_reducible apply State.sendCell_kept
    | with_reducible apply State.pushAt_kept
    | with_reducible apply kept_bits
    | simp only [kept_mk_eq]
    | split

theorem State.arriveFence_kept {s₀ s : State} (h : Kept s₀ s) (us src : Nat) :
    Kept s₀ (State.arriveFence s us src) := by
  unfold State.arriveFence
  repeat' first
    | with_reducible exact h
    | with_reducible assumption
    | with_reducible intro _
    | with_reducible apply kept_ite
    | with_reducible apply kept_ite_fst
    | with_reducible refine kept_of_fst (by assumption) ?_
    | with_reducible apply State.push_kept
    | with_reducible apply State.groupFailOut_kept
    | with_reducible apply kept_bits
    | simp only [kept_mk_eq]
    | split

theorem State.askRelease_kept {s₀ s : State} (h : Kept s₀ s) (l : List Nat) (a : Ans) (mon : Option Nat) :
    Kept s₀ (State.askRelease s l a mon) := by
  unfold State.askRelease
  repeat' first
    | with_reducible exact h
    | with_reducible assumption
    | with_reducible intro _
    | with_reducible apply kept_ite
    | with_reducible apply kept_bits
    | simp only [kept_mk_eq]
    | split

theorem State.clearFence_kept {s₀ s : State} (h : Kept s₀ s) (k : Nat) :
    Kept s₀ (State.clearFence s k) := by
  unfold State.clearFence
  repeat' first
    | with_reducible exact h
    | with_reducible assumption
    | with_reducible intro _
    | with_reducible apply kept_ite
    | with_reducible apply kept_bits
    | simp only [kept_mk_eq]
    | split

theorem State.restartFilt_kept {s₀ s : State} (h : Kept s₀ s) (g : Nat) :
    Kept s₀ (State.restartFilt s g) := by
  unfold State.restartFilt
  repeat' first
    | with_reducible exact h
    | with_reducible assumption
    | with_reducible intro _
    | with_reducible apply kept_ite
    | with_reducible apply kept_each
    | with_reducible apply State.modGr_kept
    | with_reducible apply State.modAper_kept
    | with_reducible apply kept_bits
    | simp only [kept_mk_eq]
    | split

theorem State.afterRelease_kept {s₀ s : State} (h : Kept s₀ s) (k : Nat) :
    Kept s₀ (State.afterRelease s k) := by
  unfold State.afterRelease
  repeat' first
    | with_reducible exact h
    | with_reducible assumption
    | with_reducible intro _
    | with_reducible apply kept_ite
    | with_reducible apply kept_ite_fst
    | with_reducible refine kept_of_fst (by assumption) ?_
    | with_reducible apply State.restartFilt_kept
    | with_reducible apply State.holdFrom_kept
    | with_reducible apply State.gratuitous_kept
    | with_reducible apply State.portGained_kept
    | with_reducible apply State.wr_kept
    | with_reducible apply kept_bits
    | simp only [kept_mk_eq]
    | split

theorem State.releaseDone_kept {s₀ s : State} (h : Kept s₀ s) (pass : Bool) (fa fb : Nat) :
    Kept s₀ (State.releaseDone s pass fa fb) := by
  unfold State.releaseDone
  repeat' first
    | with_reducible exact h
    | with_reducible assumption
    | with_reducible intro _
    | with_reducible apply kept_ite
    | with_reducible apply kept_ite_fst
    | with_reducible refine kept_of_fst (by assumption) ?_
    | with_reducible apply kept_each
    | with_reducible apply State.monRestored_kept
    | with_reducible apply State.clearFence_kept
    | with_reducible apply State.afterRelease_kept
    | with_reducible apply State.answer_kept
    | with_reducible apply kept_bits
    | simp only [kept_mk_eq]
    | split

theorem State.zeroBuckets_kept {s₀ s : State} (h : Kept s₀ s) (t : Nat) :
    Kept s₀ (State.zeroBuckets s t) := by
  unfold State.zeroBuckets
  repeat' first
    | with_reducible exact h
    | with_reducible assumption
    | with_reducible intro _
    | with_reducible apply kept_ite
    | with_reducible apply kept_bits
    | simp only [kept_mk_eq]
    | split

theorem State.leak_kept {s₀ s : State} (h : Kept s₀ s)  :
    Kept s₀ (State.leak s) := by
  unfold State.leak
  repeat' first
    | with_reducible exact h
    | with_reducible assumption
    | with_reducible intro _
    | with_reducible apply kept_ite
    | with_reducible apply kept_bits
    | simp only [kept_mk_eq]
    | split

theorem State.faultLogClear_kept {s₀ s : State} (h : Kept s₀ s)  :
    Kept s₀ (State.faultLogClear s) := by
  unfold State.faultLogClear
  repeat' first
    | with_reducible exact h
    | with_reducible assumption
    | with_reducible intro _
    | with_reducible apply kept_ite
    | with_reducible apply kept_bits
    | simp only [kept_mk_eq]
    | split

theorem State.lineChange_kept {s₀ s : State} (h : Kept s₀ s) (k pair : Nat) (lasting : Bool) :
    Kept s₀ (State.lineChange s k pair lasting) := by
  unfold State.lineChange
  repeat' first
    | with_reducible exact h
    | with_reducible assumption
    | with_reducible intro _
    | with_reducible apply kept_ite
    | with_reducible apply State.report_kept
    | with_reducible apply kept_bits
    | simp only [kept_mk_eq]
    | split

end Sys2Proof.Machine
end

