-- ==== Sys2Proof/Laws/MatrixKept.lean ====
section
/-! SUPPORT. What the operations of Machine/Matrix.lean keep. -/
namespace Sys2Proof.Machine
open Sys2Proof

theorem State.connectAt_kept {s₀ s : State} (h : Kept s₀ s) (c : Nat) (l : Option Nat) (a : Ans) :
    Kept s₀ (State.connectAt s c l a) := by
  unfold State.connectAt
  repeat' first
    | with_reducible exact h
    | with_reducible assumption
    | with_reducible intro _
    | with_reducible apply kept_ite
    | with_reducible apply kept_ite_fst
    | with_reducible refine kept_of_fst (by assumption) ?_
    | with_reducible apply State.answer_kept
    | with_reducible apply State.releaseEp_kept
    | with_reducible apply State.modHold_kept
    | with_reducible apply State.askClaim_kept
    | with_reducible apply kept_bits
    | simp only [kept_mk_eq]
    | split

theorem State.claimHost_kept {s₀ s : State} (h : Kept s₀ s) (c l : Nat) (a : Ans) :
    Kept s₀ (State.claimHost s c l a) := by
  unfold State.claimHost
  repeat' first
    | with_reducible exact h
    | with_reducible assumption
    | with_reducible intro _
    | with_reducible apply kept_ite
    | with_reducible apply kept_ite_fst
    | with_reducible refine kept_of_fst (by assumption) ?_
    | with_reducible apply State.answer_kept
    | with_reducible apply State.setResv_kept
    | with_reducible apply State.connectEp_kept
    | with_reducible apply kept_bits
    | simp only [kept_mk_eq]
    | split

theorem State.claimUnit_kept {s₀ s : State} (h : Kept s₀ s) (c : Nat) :
    Kept s₀ (State.claimUnit s c) := by
  unfold State.claimUnit
  repeat' first
    | with_reducible exact h
    | with_reducible assumption
    | with_reducible intro _
    | with_reducible apply kept_ite
    | with_reducible apply kept_ite_fst
    | with_reducible refine kept_of_fst (by assumption) ?_
    | with_reducible apply State.setResv_kept
    | with_reducible apply State.modCht_kept
    | with_reducible apply kept_bits
    | simp only [kept_mk_eq]
    | split

theorem State.answerClaim_kept {s₀ s : State} (h : Kept s₀ s) (c : Nat) :
    Kept s₀ (State.answerClaim s c) := by
  unfold State.answerClaim
  repeat' first
    | with_reducible exact h
    | with_reducible assumption
    | with_reducible intro _
    | with_reducible apply kept_ite
    | with_reducible apply kept_ite_fst
    | with_reducible refine kept_of_fst (by assumption) ?_
    | with_reducible apply State.inc_kept
    | with_reducible apply State.claimUnit_kept
    | with_reducible apply State.modHold_kept
    | with_reducible apply State.claimHost_kept
    | with_reducible apply kept_bits
    | simp only [kept_mk_eq]
    | split

theorem State.relayCount_kept {s₀ s : State} (h : Kept s₀ s) (p : Nat) :
    Kept s₀ (State.relayCount s p) := by
  unfold State.relayCount
  repeat' first
    | with_reducible exact h
    | with_reducible assumption
    | with_reducible intro _
    | with_reducible apply kept_ite
    | with_reducible apply State.setLedger_kept
    | with_reducible apply State.report_kept
    | with_reducible apply State.edge_kept
    | with_reducible apply kept_bits
    | simp only [kept_mk_eq]
    | split

theorem State.ledgerCmd_kept {s₀ s : State} (h : Kept s₀ s) (op p : Nat) :
    Kept s₀ (State.ledgerCmd s op p).1 := by
  unfold State.ledgerCmd
  repeat' first
    | with_reducible exact h
    | with_reducible assumption
    | with_reducible intro _
    | with_reducible apply kept_ite
    | with_reducible apply kept_ite_fst
    | with_reducible refine kept_of_fst (by assumption) ?_
    | with_reducible apply State.setLedger_kept
    | with_reducible apply kept_bits
    | simp only [kept_mk_eq]
    | split

theorem State.sp0Waited_kept {s₀ s : State} (h : Kept s₀ s) (ns : Nat) :
    Kept s₀ (State.sp0Waited s ns) := by
  unfold State.sp0Waited
  repeat' first
    | with_reducible exact h
    | with_reducible assumption
    | with_reducible intro _
    | with_reducible apply kept_ite
    | with_reducible apply State.wr_kept
    | with_reducible apply kept_bits
    | simp only [kept_mk_eq]
    | split

theorem State.sendWord_kept {s₀ s : State} (h : Kept s₀ s) (line : Nat) (w : BitVec 32) (later : Nat) :
    Kept s₀ (State.sendWord s line w later) := by
  unfold State.sendWord
  repeat' first
    | with_reducible exact h
    | with_reducible assumption
    | with_reducible intro _
    | with_reducible apply kept_ite
    | with_reducible apply kept_ite_fst
    | with_reducible refine kept_of_fst (by assumption) ?_
    | with_reducible apply State.send_kept
    | with_reducible apply State.inc_kept
    | with_reducible apply State.modHold_kept
    | with_reducible apply kept_bits
    | simp only [kept_mk_eq]
    | split

theorem State.sendNew_kept {s₀ s : State} (h : Kept s₀ s) (t : Txn) (ep op phase : Nat) (rest : List (Nat × Nat × Nat)) (later : Nat) :
    Kept s₀ (State.sendNew s t ep op phase rest later) := by
  unfold State.sendNew
  repeat' first
    | with_reducible exact h
    | with_reducible assumption
    | with_reducible intro _
    | with_reducible apply kept_ite
    | with_reducible apply State.sendWord_kept
    | with_reducible apply kept_bits
    | simp only [kept_mk_eq]
    | split

theorem State.transfer_kept {s₀ s : State} (h : Kept s₀ s) (t : Txn) (later : Nat) :
    Kept s₀ (State.transfer s t later) := by
  unfold State.transfer
  repeat' first
    | with_reducible exact h
    | with_reducible assumption
    | with_reducible intro _
    | with_reducible apply kept_ite
    | with_reducible apply kept_ite_fst
    | with_reducible refine kept_of_fst (by assumption) ?_
    | with_reducible apply State.sendWord_kept
    | with_reducible apply State.sendNew_kept
    | with_reducible apply kept_bits
    | simp only [kept_mk_eq]
    | split

theorem State.mtxTake_kept {s₀ s : State} (h : Kept s₀ s)  :
    Kept s₀ (State.mtxTake s) := by
  unfold State.mtxTake
  repeat' first
    | with_reducible exact h
    | with_reducible assumption
    | with_reducible intro _
    | with_reducible apply kept_ite
    | with_reducible apply kept_ite_fst
    | with_reducible refine kept_of_fst (by assumption) ?_
    | with_reducible apply kept_each
    | with_reducible refine State.restart_kept ?_ (by decide)
    | with_reducible apply State.sp0Waited_kept
    | with_reducible apply State.modSp_kept
    | with_reducible apply State.failChannel_kept
    | with_reducible apply State.answer_kept
    | with_reducible apply State.breakAllOver_kept
    | with_reducible apply State.loadLine_kept
    | with_reducible apply State.transfer_kept
    | with_reducible apply kept_bits
    | simp only [kept_mk_eq]
    | split

theorem State.commitDemand_kept {s₀ s : State} (h : Kept s₀ s)  :
    Kept s₀ (State.commitDemand s) := by
  unfold State.commitDemand
  repeat' first
    | with_reducible exact h
    | with_reducible assumption
    | with_reducible intro _
    | with_reducible apply kept_ite
    | with_reducible apply State.commitStart_kept
    | with_reducible apply kept_bits
    | simp only [kept_mk_eq]
    | split

theorem State.mtxGrant_kept {s₀ s : State} (h : Kept s₀ s)  :
    Kept s₀ (State.mtxGrant s) := by
  unfold State.mtxGrant
  repeat' first
    | with_reducible exact h
    | with_reducible assumption
    | with_reducible intro _
    | with_reducible apply kept_ite
    | with_reducible apply State.commitDemand_kept
    | with_reducible apply State.modSp_kept
    | with_reducible apply State.mtxTake_kept
    | with_reducible apply kept_bits
    | simp only [kept_mk_eq]
    | split

theorem State.confirm_kept {s₀ s : State} (h : Kept s₀ s) (w : BitVec 32) :
    Kept s₀ (State.confirm s w) := by
  unfold State.confirm
  repeat' first
    | with_reducible exact h
    | with_reducible assumption
    | with_reducible intro _
    | with_reducible apply kept_ite
    | with_reducible apply kept_ite_fst
    | with_reducible refine kept_of_fst (by assumption) ?_
    | with_reducible apply State.relayCount_kept
    | with_reducible apply State.shareResv_kept
    | with_reducible apply kept_bits
    | simp only [kept_mk_eq]
    | split

theorem State.wrongEcho_kept {s₀ s : State} (h : Kept s₀ s) (line : Nat) (w : BitVec 32) (busy : Bool) :
    Kept s₀ (State.wrongEcho s line w busy).1 := by
  unfold State.wrongEcho
  repeat' first
    | with_reducible exact h
    | with_reducible assumption
    | with_reducible intro _
    | with_reducible apply kept_ite
    | with_reducible apply kept_ite_fst
    | with_reducible refine kept_of_fst (by assumption) ?_
    | with_reducible apply State.inc_kept
    | with_reducible apply State.report_kept
    | with_reducible apply kept_bits
    | simp only [kept_mk_eq]
    | split

theorem State.txnDone_kept {s₀ s : State} (h : Kept s₀ s) (t : Txn) :
    Kept s₀ (State.txnDone s t) := by
  unfold State.txnDone
  repeat' first
    | with_reducible exact h
    | with_reducible assumption
    | with_reducible intro _
    | with_reducible apply kept_ite
    | with_reducible apply kept_ite_fst
    | with_reducible refine kept_of_fst (by assumption) ?_
    | with_reducible refine State.restart_kept ?_ (by decide)
    | with_reducible apply State.spEnd_kept
    | with_reducible apply State.modHold_kept
    | with_reducible apply State.endLine_kept
    | with_reducible apply State.askRelease_kept
    | with_reducible apply State.answer_kept
    | with_reducible apply State.breakAllOver_kept
    | with_reducible apply kept_bits
    | simp only [kept_mk_eq]
    | split

theorem State.strobeError_kept {s₀ s : State} (h : Kept s₀ s) (n line : Nat) :
    Kept s₀ (State.strobeError s n line) := by
  unfold State.strobeError
  repeat' first
    | with_reducible exact h
    | with_reducible assumption
    | with_reducible intro _
    | with_reducible apply kept_ite
    | with_reducible apply State.modSp_kept
    | with_reducible apply State.inc_kept
    | with_reducible apply State.report_kept
    | with_reducible apply kept_bits
    | simp only [kept_mk_eq]
    | split

theorem State.sp0Word_kept {s₀ s : State} (h : Kept s₀ s) (line : Nat) (ok : Bool) :
    Kept s₀ (State.sp0Word s line ok) := by
  unfold State.sp0Word
  repeat' first
    | with_reducible exact h
    | with_reducible assumption
    | with_reducible intro _
    | with_reducible apply kept_ite
    | with_reducible apply State.inc_kept
    | with_reducible apply State.strobeError_kept
    | with_reducible apply kept_bits
    | simp only [kept_mk_eq]
    | split

theorem State.sp0First_kept {s₀ s : State} (h : Kept s₀ s) (line : Nat) (ok : Bool) :
    Kept s₀ (State.sp0First s line ok) := by
  unfold State.sp0First
  repeat' first
    | with_reducible exact h
    | with_reducible assumption
    | with_reducible intro _
    | with_reducible apply kept_ite
    | with_reducible apply State.sp0Word_kept
    | with_reducible apply kept_bits
    | simp only [kept_mk_eq]
    | split

theorem State.mtxEcho_kept {s₀ s : State} (h : Kept s₀ s) (echo : BitVec 32) (x : StrobeIn) :
    Kept s₀ (State.mtxEcho s echo x) := by
  unfold State.mtxEcho
  repeat' first
    | with_reducible exact h
    | with_reducible assumption
    | with_reducible intro _
    | with_reducible apply kept_ite
    | with_reducible apply kept_ite_fst
    | with_reducible refine kept_of_fst (by assumption) ?_
    | with_reducible apply kept_ite_snd
    | with_reducible refine kept_of_snd (by assumption) ?_
    | with_reducible apply State.sp0First_kept
    | with_reducible apply State.sp0Word_kept
    | with_reducible apply State.transfer_kept
    | with_reducible apply State.confirm_kept
    | with_reducible apply State.wrongEcho_kept
    | with_reducible apply State.txnFail_kept
    | with_reducible apply State.txnDone_kept
    | with_reducible apply kept_bits
    | simp only [kept_mk_eq]
    | split

theorem State.mtxCollide_kept {s₀ s : State} (h : Kept s₀ s) (whole : Bool) :
    Kept s₀ (State.mtxCollide s whole) := by
  unfold State.mtxCollide
  repeat' first
    | with_reducible exact h
    | with_reducible assumption
    | with_reducible intro _
    | with_reducible apply kept_ite
    | with_reducible apply kept_ite_fst
    | with_reducible refine kept_of_fst (by assumption) ?_
    | with_reducible apply kept_getD
    | with_reducible apply State.sp0First_kept
    | with_reducible apply State.txnFail_kept
    | with_reducible apply State.modSp_kept
    | with_reducible apply kept_bits
    | simp only [kept_mk_eq]
    | split

theorem State.mtxRestart_kept {s₀ s : State} (h : Kept s₀ s)  :
    Kept s₀ (State.mtxRestart s) := by
  unfold State.mtxRestart
  repeat' first
    | with_reducible exact h
    | with_reducible assumption
    | with_reducible intro _
    | with_reducible apply kept_ite
    | with_reducible apply kept_ite_fst
    | with_reducible refine kept_of_fst (by assumption) ?_
    | with_reducible apply State.sp0Waited_kept
    | with_reducible apply State.modSp_kept
    | with_reducible apply State.transfer_kept
    | with_reducible apply State.mtxTake_kept
    | with_reducible apply kept_bits
    | simp only [kept_mk_eq]
    | split

theorem State.breakDone_kept {s₀ s : State} (h : Kept s₀ s) (c : Nat) :
    Kept s₀ (State.breakDone s c) := by
  unfold State.breakDone
  repeat' first
    | with_reducible exact h
    | with_reducible assumption
    | with_reducible intro _
    | with_reducible apply kept_ite
    | with_reducible apply kept_ite_fst
    | with_reducible refine kept_of_fst (by assumption) ?_
    | with_reducible apply State.modHold_kept
    | with_reducible apply State.freeResv_kept
    | with_reducible apply State.makeNext_kept
    | with_reducible apply kept_bits
    | simp only [kept_mk_eq]
    | split

theorem State.makeDone_kept {s₀ s : State} (h : Kept s₀ s) (c : Nat) :
    Kept s₀ (State.makeDone s c) := by
  unfold State.makeDone
  repeat' first
    | with_reducible exact h
    | with_reducible assumption
    | with_reducible intro _
    | with_reducible apply kept_ite
    | with_reducible apply kept_ite_fst
    | with_reducible refine kept_of_fst (by assumption) ?_
    | with_reducible apply State.modHold_kept
    | with_reducible apply State.holdAnswer_kept
    | with_reducible apply kept_bits
    | simp only [kept_mk_eq]
    | split

theorem State.commitDone_kept {s₀ s : State} (h : Kept s₀ s)  :
    Kept s₀ (State.commitDone s) := by
  unfold State.commitDone
  repeat' first
    | with_reducible exact h
    | with_reducible assumption
    | with_reducible intro _
    | with_reducible apply kept_ite
    | with_reducible apply kept_ite_fst
    | with_reducible refine kept_of_fst (by assumption) ?_
    | with_reducible apply State.copyLogs_kept
    | with_reducible apply State.wr_kept
    | with_reducible apply State.answers_kept
    | with_reducible apply State.commitStart_kept
    | with_reducible apply kept_bits
    | simp only [kept_mk_eq]
    | split

end Sys2Proof.Machine
end

