-- ==== Sys2Proof/Laws/SerialKept.lean ====
section
/-! SUPPORT. What the operations of Machine/Serial.lean keep. -/
namespace Sys2Proof.Machine
open Sys2Proof

theorem State.sp1Not_kept {s₀ s : State} (h : Kept s₀ s) (poll : Bool) (a : Ans) :
    Kept s₀ (State.sp1Not s poll a) := by
  unfold State.sp1Not
  repeat' first
    | with_reducible exact h
    | with_reducible assumption
    | with_reducible intro _
    | with_reducible apply kept_ite
    | with_reducible apply State.wr_kept
    | with_reducible apply State.inc_kept
    | with_reducible apply State.answer_kept
    | with_reducible apply kept_bits
    | simp only [kept_mk_eq]
    | split

theorem State.sp1Master_kept {s₀ s : State} (h : Kept s₀ s)  :
    Kept s₀ (State.sp1Master s) := by
  unfold State.sp1Master
  repeat' first
    | with_reducible exact h
    | with_reducible assumption
    | with_reducible intro _
    | with_reducible apply kept_ite
    | with_reducible apply kept_ite_fst
    | with_reducible refine kept_of_fst (by assumption) ?_
    | with_reducible apply State.modSp_kept
    | with_reducible apply State.spEnd_kept
    | with_reducible apply State.sp1Not_kept
    | with_reducible apply State.send_kept
    | with_reducible apply kept_bits
    | simp only [kept_mk_eq]
    | split

theorem State.sp1Start_kept {s₀ s : State} (h : Kept s₀ s) (sel : Nat) (poll : Bool) (a : Ans) :
    Kept s₀ (State.sp1Start s sel poll a) := by
  unfold State.sp1Start
  repeat' first
    | with_reducible exact h
    | with_reducible assumption
    | with_reducible intro _
    | with_reducible apply kept_ite
    | with_reducible apply State.sp1Not_kept
    | with_reducible apply State.modSp_kept
    | with_reducible apply State.sp1Master_kept
    | with_reducible apply kept_bits
    | simp only [kept_mk_eq]
    | split

theorem sp1NextGo_kept {s₀ : State} (l : List (Nat × Ans)) : ∀ {s : State}, Kept s₀ s → Kept s₀ (sp1NextGo l s) := by
  induction l with
  | nil => intro s h; exact h
  | cons p l ih =>
    obtain ⟨sel, a⟩ := p
    intro s h
    unfold sp1NextGo
    have h' : Kept s₀ { s with mbox := { s.mbox with goWait := l } } := h
    simp only
    split
    · exact ih (State.answer_kept h' _ _ _)
    · split
      · exact State.sp1Start_kept h' _ _ _
      · exact ih (State.sp1Start_kept h' _ _ _)

theorem State.sp1Idle_kept {s₀ s : State} (h : Kept s₀ s)  :
    Kept s₀ (State.sp1Idle s) := by
  unfold State.sp1Idle
  repeat' first
    | with_reducible exact h
    | with_reducible assumption
    | with_reducible intro _
    | with_reducible apply kept_ite
    | with_reducible apply State.sp1Master_kept
    | with_reducible apply sp1NextGo_kept
    | with_reducible apply kept_bits
    | simp only [kept_mk_eq]
    | split

theorem State.sp1Go_kept {s₀ s : State} (h : Kept s₀ s) (sel : Nat) (a : Ans) :
    Kept s₀ (State.sp1Go s sel a) := by
  unfold State.sp1Go
  repeat' first
    | with_reducible exact h
    | with_reducible assumption
    | with_reducible intro _
    | with_reducible apply kept_ite
    | with_reducible apply kept_ite_fst
    | with_reducible refine kept_of_fst (by assumption) ?_
    | with_reducible apply State.answer_kept
    | with_reducible apply State.sp1Start_kept
    | with_reducible apply kept_bits
    | simp only [kept_mk_eq]
    | split

theorem State.sp1PollDue_kept {s₀ s : State} (h : Kept s₀ s)  :
    Kept s₀ (State.sp1PollDue s) := by
  unfold State.sp1PollDue
  repeat' first
    | with_reducible exact h
    | with_reducible assumption
    | with_reducible intro _
    | with_reducible apply kept_ite
    | with_reducible apply State.inc_kept
    | with_reducible apply State.sp1Start_kept
    | with_reducible apply kept_bits
    | simp only [kept_mk_eq]
    | split

theorem State.sp1End_kept {s₀ s : State} (h : Kept s₀ s) (result : Nat) (replies : List Nat) :
    Kept s₀ (State.sp1End s result replies) := by
  unfold State.sp1End
  repeat' first
    | with_reducible exact h
    | with_reducible assumption
    | with_reducible intro _
    | with_reducible apply kept_ite
    | with_reducible apply kept_ite_fst
    | with_reducible refine kept_of_fst (by assumption) ?_
    | with_reducible apply State.replies_kept
    | with_reducible apply State.spEnd_kept
    | with_reducible apply State.wr_kept
    | with_reducible apply State.wrV_kept
    | with_reducible apply State.inc_kept
    | with_reducible apply State.answer_kept
    | with_reducible apply sp1NextGo_kept
    | with_reducible apply kept_bits
    | simp only [kept_mk_eq]
    | split

theorem State.collide_kept {s₀ s : State} (h : Kept s₀ s) (n line : Nat) (replies : List Nat) :
    Kept s₀ (State.collide s n line replies) := by
  unfold State.collide
  repeat' first
    | with_reducible exact h
    | with_reducible assumption
    | with_reducible intro _
    | with_reducible apply kept_ite
    | with_reducible apply State.modSp_kept
    | with_reducible apply State.inc_kept
    | with_reducible apply State.report_kept
    | with_reducible apply State.mtxCollide_kept
    | with_reducible apply State.replies_kept
    | with_reducible apply State.sp1End_kept
    | with_reducible apply kept_bits
    | simp only [kept_mk_eq]
    | split

theorem State.slaveSelect_kept {s₀ s : State} (h : Kept s₀ s)  :
    Kept s₀ (State.slaveSelect s) := by
  unfold State.slaveSelect
  repeat' first
    | with_reducible exact h
    | with_reducible assumption
    | with_reducible intro _
    | with_reducible apply kept_ite
    | with_reducible apply kept_ite_fst
    | with_reducible refine kept_of_fst (by assumption) ?_
    | with_reducible apply State.modSp_kept
    | with_reducible apply State.reply_kept
    | with_reducible apply kept_bits
    | simp only [kept_mk_eq]
    | split

theorem State.slaveEnd_kept {s₀ s : State} (h : Kept s₀ s)  :
    Kept s₀ (State.slaveEnd s) := by
  unfold State.slaveEnd
  repeat' first
    | with_reducible exact h
    | with_reducible assumption
    | with_reducible intro _
    | with_reducible apply kept_ite
    | with_reducible apply State.modSp_kept
    | with_reducible apply State.spEnd_kept
    | with_reducible apply kept_bits
    | simp only [kept_mk_eq]
    | split

theorem State.slaveDone_kept {s₀ s : State} (h : Kept s₀ s) (w : Nat) :
    Kept s₀ (State.slaveDone s w) := by
  unfold State.slaveDone
  repeat' first
    | with_reducible exact h
    | with_reducible assumption
    | with_reducible intro _
    | with_reducible apply kept_ite
    | with_reducible apply kept_ite_fst
    | with_reducible refine kept_of_fst (by assumption) ?_
    | with_reducible apply State.reply_kept
    | with_reducible apply State.send_kept
    | with_reducible apply State.slaveEnd_kept
    | with_reducible apply State.inc_kept
    | with_reducible apply kept_bits
    | simp only [kept_mk_eq]
    | split

theorem State.slaveCut_kept {s₀ s : State} (h : Kept s₀ s)  :
    Kept s₀ (State.slaveCut s) := by
  unfold State.slaveCut
  repeat' first
    | with_reducible exact h
    | with_reducible assumption
    | with_reducible intro _
    | with_reducible apply kept_ite
    | with_reducible apply kept_ite_fst
    | with_reducible refine kept_of_fst (by assumption) ?_
    | with_reducible apply State.reply_kept
    | with_reducible apply State.slaveEnd_kept
    | with_reducible apply State.inc_kept
    | with_reducible apply kept_bits
    | simp only [kept_mk_eq]
    | split

theorem State.mailboxPut_kept {s₀ s : State} (h : Kept s₀ s) (ws : List Nat) :
    Kept s₀ (State.mailboxPut s ws).1 := by
  unfold State.mailboxPut
  repeat' first
    | with_reducible exact h
    | with_reducible assumption
    | with_reducible intro _
    | with_reducible apply kept_ite
    | with_reducible apply kept_ite_fst
    | with_reducible refine kept_of_fst (by assumption) ?_
    | with_reducible apply kept_bits
    | simp only [kept_mk_eq]
    | split

theorem State.spRestartReq_kept {s₀ s : State} (h : Kept s₀ s) (n : Nat) (a : Ans) :
    Kept s₀ (State.spRestartReq s n a) := by
  unfold State.spRestartReq
  repeat' first
    | with_reducible exact h
    | with_reducible assumption
    | with_reducible intro _
    | with_reducible apply kept_ite
    | with_reducible apply State.askRelease_kept
    | with_reducible apply State.answer_kept
    | with_reducible apply kept_bits
    | simp only [kept_mk_eq]
    | split

end Sys2Proof.Machine
end

