-- ==== Sys2Proof/Laws/TickKept.lean ====
section
/-! SUPPORT. What the operations of Machine/Tick.lean keep. -/
namespace Sys2Proof.Machine
open Sys2Proof

theorem State.filtBegin_kept {s₀ s : State} (h : Kept s₀ s) (g : Nat) (a : List Ans) :
    Kept s₀ (State.filtBegin s g a) := by
  unfold State.filtBegin
  repeat' first
    | with_reducible exact h
    | with_reducible assumption
    | with_reducible intro _
    | with_reducible apply kept_ite
    | with_reducible apply kept_each
    | with_reducible apply State.modGr_kept
    | with_reducible apply State.modSl_kept
    | with_reducible apply State.modAper_kept
    | with_reducible apply State.answers_kept
    | with_reducible apply kept_bits
    | simp only [kept_mk_eq]
    | split

theorem State.ctlBegin_kept {s₀ s : State} (h : Kept s₀ s) (g : Nat) (a : List Ans) :
    Kept s₀ (State.ctlBegin s g a) := by
  unfold State.ctlBegin
  repeat' first
    | with_reducible exact h
    | with_reducible assumption
    | with_reducible intro _
    | with_reducible apply kept_ite
    | with_reducible apply kept_each
    | with_reducible apply State.modGr_kept
    | with_reducible apply State.modCh_kept
    | with_reducible apply State.answers_kept
    | with_reducible apply kept_bits
    | simp only [kept_mk_eq]
    | split

theorem State.groupFrame_kept {s₀ s : State} (h : Kept s₀ s) (g us : Nat) :
    Kept s₀ (State.groupFrame s g us) := by
  unfold State.groupFrame
  repeat' first
    | with_reducible exact h
    | with_reducible assumption
    | with_reducible intro _
    | with_reducible apply kept_ite
    | with_reducible apply kept_ite_fst
    | with_reducible refine kept_of_fst (by assumption) ?_
    | with_reducible apply State.setTb_kept
    | with_reducible apply State.modGr_kept
    | with_reducible apply State.filtBegin_kept
    | with_reducible apply State.ctlBegin_kept
    | with_reducible apply kept_bits
    | simp only [kept_mk_eq]
    | split

theorem State.frame_kept {s₀ s : State} (h : Kept s₀ s)  :
    Kept s₀ (State.frame s) := by
  unfold State.frame
  repeat' first
    | with_reducible exact h
    | with_reducible assumption
    | with_reducible intro _
    | with_reducible apply kept_ite
    | with_reducible apply kept_each
    | with_reducible apply State.groupFrame_kept
    | with_reducible apply kept_bits
    | simp only [kept_mk_eq]
    | split

theorem State.feedSlot_kept {s₀ s : State} (h : Kept s₀ s) (g us : Nat) (x : SlotIn) :
    Kept s₀ (State.feedSlot s g us x).1 := by
  unfold State.feedSlot
  repeat' first
    | with_reducible exact h
    | with_reducible assumption
    | with_reducible intro _
    | with_reducible apply kept_ite
    | with_reducible apply kept_ite_fst
    | with_reducible refine kept_of_fst (by assumption) ?_
    | with_reducible apply kept_ite_snd
    | with_reducible refine kept_of_snd (by assumption) ?_
    | with_reducible apply State.modSl_kept
    | with_reducible apply kept_bits
    | simp only [kept_mk_eq]
    | split

theorem State.feedAll_kept {s₀ : State} (g k : Nat) (l : List SlotIn) :
    ∀ {s : State}, Kept s₀ s → Kept s₀ (s.feedAll g k l).1 := by
  induction l with
  | nil => intro s h; exact h
  | cons x l ih => intro s h; exact ih (State.feedSlot_kept h _ _ _)

theorem State.sampleJ_kept {s₀ s : State} (h : Kept s₀ s) (c us j : Nat) (x : SampCtx) (d : Option TickData) (miss : Bool) :
    Kept s₀ (State.sampleJ s c us j x d miss) := by
  unfold State.sampleJ
  repeat' first
    | with_reducible exact h
    | with_reducible assumption
    | with_reducible intro _
    | with_reducible apply kept_ite
    | with_reducible apply kept_ite_fst
    | with_reducible refine kept_of_fst (by assumption) ?_
    | with_reducible apply kept_ite_snd
    | with_reducible refine kept_of_snd (by assumption) ?_
    | with_reducible apply kept_getD
    | with_reducible apply State.sample_kept
    | with_reducible apply kept_bits
    | simp only [kept_mk_eq]
    | split

theorem State.samplePre_kept {s₀ s : State} (h : Kept s₀ s) (c us : Nat) (d : Option TickData) (miss : Bool) :
    Kept s₀ (State.samplePre s c us d miss) := by
  unfold State.samplePre
  repeat' first
    | with_reducible exact h
    | with_reducible assumption
    | with_reducible intro _
    | with_reducible apply kept_ite
    | with_reducible apply kept_ite_fst
    | with_reducible refine kept_of_fst (by assumption) ?_
    | with_reducible apply State.sampleJ_kept
    | with_reducible apply State.modAper_kept
    | with_reducible apply State.endGrid_kept
    | with_reducible apply kept_bits
    | simp only [kept_mk_eq]
    | split

theorem State.sampleTick_kept {s₀ s : State} (h : Kept s₀ s) (c us K : Nat) (d : Option TickData) (miss : Bool) :
    Kept s₀ (State.sampleTick s c us K d miss) := by
  unfold State.sampleTick
  repeat' first
    | with_reducible exact h
    | with_reducible assumption
    | with_reducible intro _
    | with_reducible apply kept_ite
    | with_reducible apply kept_each
    | with_reducible apply State.samplePre_kept
    | with_reducible apply State.sampleJ_kept
    | with_reducible apply State.modAper_kept
    | with_reducible apply kept_bits
    | simp only [kept_mk_eq]
    | split

theorem State.limiters_kept {s₀ s : State} (h : Kept s₀ s) (g : Nat) (slots : List SlotIn) :
    Kept s₀ (State.limiters s g slots) := by
  unfold State.limiters
  repeat' first
    | with_reducible exact h
    | with_reducible assumption
    | with_reducible intro _
    | with_reducible apply kept_ite
    | with_reducible apply kept_each
    | with_reducible apply State.modCh_kept
    | with_reducible apply State.inc_kept
    | with_reducible apply kept_bits
    | simp only [kept_mk_eq]
    | split

theorem State.loopTick_kept {s₀ s : State} (h : Kept s₀ s) (c us : Nat) (d : TickData) (miss : Bool) :
    Kept s₀ (State.loopTick s c us d miss) := by
  unfold State.loopTick
  repeat' first
    | with_reducible exact h
    | with_reducible assumption
    | with_reducible intro _
    | with_reducible apply kept_ite
    | with_reducible apply State.modCh_kept
    | with_reducible apply State.tevBoth_kept
    | with_reducible apply kept_bits
    | simp only [kept_mk_eq]
    | split

theorem State.heldTick_kept {s₀ s : State} (h : Kept s₀ s) (c : Nat) :
    Kept s₀ (State.heldTick s c) := by
  unfold State.heldTick
  repeat' first
    | with_reducible exact h
    | with_reducible assumption
    | with_reducible intro _
    | with_reducible apply kept_ite
    | with_reducible apply State.countHeld_kept
    | with_reducible apply State.modCh_kept
    | with_reducible apply kept_bits
    | simp only [kept_mk_eq]
    | split

theorem State.evalLaw_kept {s₀ s : State} (h : Kept s₀ s) (c : Nat) :
    Kept s₀ (State.evalLaw s c) := by
  unfold State.evalLaw
  repeat' first
    | with_reducible exact h
    | with_reducible assumption
    | with_reducible intro _
    | with_reducible apply kept_ite
    | with_reducible apply kept_ite_fst
    | with_reducible refine kept_of_fst (by assumption) ?_
    | with_reducible apply kept_ite_snd
    | with_reducible refine kept_of_snd (by assumption) ?_
    | with_reducible apply State.modCh_kept
    | with_reducible apply kept_bits
    | simp only [kept_mk_eq]
    | split

theorem State.muteTick_kept {s₀ s : State} (h : Kept s₀ s) (c : Nat) :
    Kept s₀ (State.muteTick s c) := by
  unfold State.muteTick
  repeat' first
    | with_reducible exact h
    | with_reducible assumption
    | with_reducible intro _
    | with_reducible apply kept_ite
    | with_reducible apply kept_ite_fst
    | with_reducible refine kept_of_fst (by assumption) ?_
    | with_reducible apply kept_ite_snd
    | with_reducible refine kept_of_snd (by assumption) ?_
    | with_reducible apply State.modCh_kept
    | with_reducible apply kept_bits
    | simp only [kept_mk_eq]
    | split

theorem State.chanLaw_kept {s₀ s : State} (h : Kept s₀ s) (c : Nat) :
    Kept s₀ (State.chanLaw s c) := by
  unfold State.chanLaw
  repeat' first
    | with_reducible exact h
    | with_reducible assumption
    | with_reducible intro _
    | with_reducible apply kept_ite
    | with_reducible apply kept_ite_fst
    | with_reducible refine kept_of_fst (by assumption) ?_
    | with_reducible apply State.modCh_kept
    | with_reducible apply State.quiet_kept
    | with_reducible apply State.idle_kept
    | with_reducible apply State.heldTick_kept
    | with_reducible apply State.evalLaw_kept
    | with_reducible apply State.muteTick_kept
    | with_reducible apply kept_bits
    | simp only [kept_mk_eq]
    | split

theorem State.paceTick_kept {s₀ s : State} (h : Kept s₀ s) (g n : Nat) :
    Kept s₀ (State.paceTick s g n) := by
  unfold State.paceTick
  repeat' first
    | with_reducible exact h
    | with_reducible assumption
    | with_reducible intro _
    | with_reducible apply kept_ite
    | with_reducible apply State.modGr_kept
    | with_reducible apply State.wr_kept
    | with_reducible apply State.report_kept
    | with_reducible apply kept_bits
    | simp only [kept_mk_eq]
    | split

theorem State.tickEnd_kept {s₀ s : State} (h : Kept s₀ s) (g us : Nat) (ds : List (Nat × TickData)) (miss : Bool) :
    Kept s₀ (State.tickEnd s g us ds miss) := by
  unfold State.tickEnd
  repeat' first
    | with_reducible exact h
    | with_reducible assumption
    | with_reducible intro _
    | with_reducible apply kept_ite
    | with_reducible apply kept_each
    | with_reducible apply State.samplePre_kept
    | with_reducible apply kept_bits
    | simp only [kept_mk_eq]
    | split

theorem State.tickSamples_kept {s₀ s : State} (h : Kept s₀ s) (g us : Nat) (ds : List (Nat × TickData)) (miss : Bool) :
    Kept s₀ (State.tickSamples s g us ds miss) := by
  unfold State.tickSamples
  repeat' first
    | with_reducible exact h
    | with_reducible assumption
    | with_reducible intro _
    | with_reducible apply kept_ite
    | with_reducible apply kept_ite_fst
    | with_reducible refine kept_of_fst (by assumption) ?_
    | with_reducible apply kept_each
    | with_reducible apply State.sampleTick_kept
    | with_reducible apply State.loopTick_kept
    | with_reducible apply State.tevHold_kept
    | with_reducible apply kept_bits
    | simp only [kept_mk_eq]
    | split

theorem State.tick_kept {s₀ s : State} (h : Kept s₀ s) (g : Nat) (slots : List SlotIn) (pace : Nat) (miss : Bool) :
    Kept s₀ (State.tick s g slots pace miss) := by
  unfold State.tick
  repeat' first
    | with_reducible exact h
    | with_reducible assumption
    | with_reducible intro _
    | with_reducible apply kept_ite
    | with_reducible apply kept_ite_fst
    | with_reducible refine kept_of_fst (by assumption) ?_
    | with_reducible apply kept_ite_snd
    | with_reducible refine kept_of_snd (by assumption) ?_
    | with_reducible apply kept_each
    | with_reducible apply kept_getD
    | with_reducible apply State.modGr_kept
    | with_reducible apply State.paceTick_kept
    | with_reducible apply State.edge_kept
    | with_reducible apply State.limiters_kept
    | with_reducible apply State.chanLaw_kept
    | with_reducible apply State.feedAll_kept
    | with_reducible apply State.tickEnd_kept
    | with_reducible apply State.inc_kept
    | with_reducible apply State.report_kept
    | with_reducible apply State.tickSamples_kept
    | with_reducible apply State.autoRange_kept
    | with_reducible apply kept_bits
    | simp only [kept_mk_eq]
    | split

theorem State.staging_kept {s₀ s : State} (h : Kept s₀ s) (g : Nat) (missed : List Nat) :
    Kept s₀ (State.staging s g missed) := by
  unfold State.staging
  repeat' first
    | with_reducible exact h
    | with_reducible assumption
    | with_reducible intro _
    | with_reducible apply kept_ite
    | with_reducible apply kept_each
    | with_reducible apply State.modGr_kept
    | with_reducible apply State.inc_kept
    | with_reducible apply State.discard_kept
    | with_reducible apply State.report_kept
    | with_reducible apply kept_bits
    | simp only [kept_mk_eq]
    | split

theorem State.aggClose_kept {s₀ s : State} (h : Kept s₀ s) (g : Nat) :
    Kept s₀ (State.aggClose s g) := by
  unfold State.aggClose
  repeat' first
    | with_reducible exact h
    | with_reducible assumption
    | with_reducible intro _
    | with_reducible apply kept_ite
    | with_reducible apply kept_ite_fst
    | with_reducible refine kept_of_fst (by assumption) ?_
    | with_reducible apply kept_ite_snd
    | with_reducible refine kept_of_snd (by assumption) ?_
    | with_reducible apply kept_each
    | with_reducible apply State.closeAgg_kept
    | with_reducible apply State.wr_kept
    | with_reducible apply State.modSt_kept
    | with_reducible apply State.modGr_kept
    | with_reducible apply State.aggOpen_kept
    | with_reducible apply kept_bits
    | simp only [kept_mk_eq]
    | split

end Sys2Proof.Machine
end

