-- ==== Sys2Proof/Laws/PairKept.lean ====
section
/-! SUPPORT. What the operations of Machine/Pair.lean keep. -/
namespace Sys2Proof.Machine
open Sys2Proof

theorem State.dropQueued_kept {s₀ s : State} (h : Kept s₀ s) (g : Nat) :
    Kept s₀ (State.dropQueued s g) := by
  unfold State.dropQueued
  repeat' first
    | with_reducible exact h
    | with_reducible assumption
    | with_reducible intro _
    | with_reducible apply kept_ite
    | with_reducible apply kept_bits
    | simp only [kept_mk_eq]
    | split

theorem State.setRole_kept {s₀ s : State} (h : Kept s₀ s) (g n : Nat) :
    Kept s₀ (State.setRole s g n) := by
  unfold State.setRole
  repeat' first
    | with_reducible exact h
    | with_reducible assumption
    | with_reducible intro _
    | with_reducible apply kept_ite
    | with_reducible apply State.calEnd_kept
    | with_reducible apply State.wr_kept
    | with_reducible apply State.dropQueued_kept
    | with_reducible apply State.modGr_kept
    | with_reducible apply kept_bits
    | simp only [kept_mk_eq]
    | split

theorem State.resync_kept {s₀ s : State} (h : Kept s₀ s) (g : Nat) :
    Kept s₀ (State.resync s g) := by
  unfold State.resync
  repeat' first
    | with_reducible exact h
    | with_reducible assumption
    | with_reducible intro _
    | with_reducible apply kept_ite
    | with_reducible apply kept_each
    | with_reducible refine State.restart_kept ?_ (by decide)
    | with_reducible apply State.dropQueued_kept
    | with_reducible apply State.modGr_kept
    | with_reducible apply State.modCh_kept
    | with_reducible apply State.tell_kept
    | with_reducible apply State.reserve_kept
    | with_reducible apply State.tellConfig_kept
    | with_reducible apply State.configOut_kept
    | with_reducible apply kept_bits
    | simp only [kept_mk_eq]
    | split

theorem State.standbySwitches_kept {s₀ s : State} (h : Kept s₀ s) (c : Nat) :
    Kept s₀ (State.standbySwitches s c) := by
  unfold State.standbySwitches
  repeat' first
    | with_reducible exact h
    | with_reducible assumption
    | with_reducible intro _
    | with_reducible apply kept_ite
    | with_reducible apply State.modCh_kept
    | with_reducible apply kept_bits
    | simp only [kept_mk_eq]
    | split

theorem State.pairOff_kept {s₀ s : State} (h : Kept s₀ s) (c : Nat) :
    Kept s₀ (State.pairOff s c) := by
  unfold State.pairOff
  repeat' first
    | with_reducible exact h
    | with_reducible assumption
    | with_reducible intro _
    | with_reducible apply kept_ite
    | with_reducible apply State.chtStopIf_kept
    | with_reducible apply State.slideEnd_kept
    | with_reducible apply State.wr_kept
    | with_reducible apply State.setOut_kept
    | with_reducible apply State.switches_kept
    | with_reducible apply State.modCh_kept
    | with_reducible apply State.answers_kept
    | with_reducible apply State.replies_kept
    | with_reducible apply kept_bits
    | simp only [kept_mk_eq]
    | split

theorem State.soloOff_kept {s₀ s : State} (h : Kept s₀ s) (g : Nat) :
    Kept s₀ (State.soloOff s g) := by
  unfold State.soloOff
  repeat' first
    | with_reducible exact h
    | with_reducible assumption
    | with_reducible intro _
    | with_reducible apply kept_ite
    | with_reducible apply kept_each
    | with_reducible apply State.pairOff_kept
    | with_reducible apply State.setRole_kept
    | with_reducible apply kept_bits
    | simp only [kept_mk_eq]
    | split

theorem State.driveFrom_kept {s₀ s : State} (h : Kept s₀ s) (c : Nat) :
    Kept s₀ (State.driveFrom s c) := by
  unfold State.driveFrom
  repeat' first
    | with_reducible exact h
    | with_reducible assumption
    | with_reducible intro _
    | with_reducible apply kept_ite
    | with_reducible apply State.modAper_kept
    | with_reducible apply State.switches_kept
    | with_reducible apply State.modCh_kept
    | with_reducible apply State.loadCode_kept
    | with_reducible apply kept_bits
    | simp only [kept_mk_eq]
    | split

theorem State.ownResv_kept {s₀ s : State} (h : Kept s₀ s) (g : Nat) :
    Kept s₀ (State.ownResv s g) := by
  unfold State.ownResv
  repeat' first
    | with_reducible exact h
    | with_reducible assumption
    | with_reducible intro _
    | with_reducible apply kept_ite
    | with_reducible apply kept_ite_fst
    | with_reducible refine kept_of_fst (by assumption) ?_
    | with_reducible apply kept_each
    | with_reducible apply State.setResv_kept
    | with_reducible apply kept_bits
    | simp only [kept_mk_eq]
    | split

theorem State.retireFenced_kept {s₀ s : State} (h : Kept s₀ s) (g : Nat) :
    Kept s₀ (State.retireFenced s g) := by
  unfold State.retireFenced
  repeat' first
    | with_reducible exact h
    | with_reducible assumption
    | with_reducible intro _
    | with_reducible apply kept_ite
    | with_reducible apply kept_each
    | with_reducible apply State.retire_kept
    | with_reducible apply kept_bits
    | simp only [kept_mk_eq]
    | split

theorem State.takeAt_kept {s₀ s : State} (h : Kept s₀ s) (g : Nat) :
    Kept s₀ (State.takeAt s g) := by
  unfold State.takeAt
  repeat' first
    | with_reducible exact h
    | with_reducible assumption
    | with_reducible intro _
    | with_reducible apply kept_ite
    | with_reducible apply kept_each
    | with_reducible apply State.driveFrom_kept
    | with_reducible apply State.wr_kept
    | with_reducible apply State.modCht_kept
    | with_reducible apply State.reExecute_kept
    | with_reducible apply State.ownResv_kept
    | with_reducible apply State.modGr_kept
    | with_reducible apply State.setRole_kept
    | with_reducible apply State.inc_kept
    | with_reducible apply State.retireFenced_kept
    | with_reducible apply kept_bits
    | simp only [kept_mk_eq]
    | split

theorem State.isolateAt_kept {s₀ s : State} (h : Kept s₀ s) (g : Nat) :
    Kept s₀ (State.isolateAt s g) := by
  unfold State.isolateAt
  repeat' first
    | with_reducible exact h
    | with_reducible assumption
    | with_reducible intro _
    | with_reducible apply kept_ite
    | with_reducible apply kept_each
    | with_reducible apply State.giveEnd_kept
    | with_reducible apply State.pairOff_kept
    | with_reducible apply State.standbySwitches_kept
    | with_reducible apply State.setRole_kept
    | with_reducible apply kept_bits
    | simp only [kept_mk_eq]
    | split

theorem State.takeCount_kept {s₀ s : State} (h : Kept s₀ s) (g : Nat) :
    Kept s₀ (State.takeCount s g) := by
  unfold State.takeCount
  repeat' first
    | with_reducible exact h
    | with_reducible assumption
    | with_reducible intro _
    | with_reducible apply kept_ite
    | with_reducible apply kept_ite_fst
    | with_reducible refine kept_of_fst (by assumption) ?_
    | with_reducible apply kept_each
    | with_reducible apply State.wr_kept
    | with_reducible apply State.ownResv_kept
    | with_reducible apply State.modGr_kept
    | with_reducible apply State.setRole_kept
    | with_reducible apply State.inc_kept
    | with_reducible apply State.retireFenced_kept
    | with_reducible apply State.driveFrom_kept
    | with_reducible apply kept_bits
    | simp only [kept_mk_eq]
    | split

theorem State.giveResv_kept {s₀ s : State} (h : Kept s₀ s) (g : Nat) :
    Kept s₀ (State.giveResv s g) := by
  unfold State.giveResv
  repeat' first
    | with_reducible exact h
    | with_reducible assumption
    | with_reducible intro _
    | with_reducible apply kept_ite
    | with_reducible apply kept_ite_fst
    | with_reducible refine kept_of_fst (by assumption) ?_
    | with_reducible apply kept_each
    | with_reducible apply State.modHold_kept
    | with_reducible apply kept_bits
    | simp only [kept_mk_eq]
    | split

theorem State.giveCount_kept {s₀ s : State} (h : Kept s₀ s) (g : Nat) :
    Kept s₀ (State.giveCount s g) := by
  unfold State.giveCount
  repeat' first
    | with_reducible exact h
    | with_reducible assumption
    | with_reducible intro _
    | with_reducible apply kept_ite
    | with_reducible apply kept_ite_fst
    | with_reducible refine kept_of_fst (by assumption) ?_
    | with_reducible apply kept_each
    | with_reducible apply State.standbySwitches_kept
    | with_reducible apply State.wr_kept
    | with_reducible apply State.modGr_kept
    | with_reducible apply State.giveResv_kept
    | with_reducible apply State.setRole_kept
    | with_reducible apply State.inc_kept
    | with_reducible apply State.answer_kept
    | with_reducible apply kept_bits
    | simp only [kept_mk_eq]
    | split

theorem State.pairStrobe_kept {s₀ s : State} (h : Kept s₀ s) (g : Nat) :
    Kept s₀ (State.pairStrobe s g) := by
  unfold State.pairStrobe
  repeat' first
    | with_reducible exact h
    | with_reducible assumption
    | with_reducible intro _
    | with_reducible apply kept_ite
    | with_reducible apply State.takeCount_kept
    | with_reducible apply State.giveCount_kept
    | with_reducible apply kept_bits
    | simp only [kept_mk_eq]
    | split

theorem State.trigger_kept {s₀ s : State} (h : Kept s₀ s) (g : Nat) :
    Kept s₀ (State.trigger s g) := by
  unfold State.trigger
  repeat' first
    | with_reducible exact h
    | with_reducible assumption
    | with_reducible intro _
    | with_reducible apply kept_ite
    | with_reducible apply State.giveEnd_kept
    | with_reducible apply State.pushAt_kept
    | with_reducible apply State.modGr_kept
    | with_reducible apply State.soloOff_kept
    | with_reducible apply State.setRole_kept
    | with_reducible apply kept_bits
    | simp only [kept_mk_eq]
    | split

theorem State.partnerDead_kept {s₀ s : State} (h : Kept s₀ s)  :
    Kept s₀ (State.partnerDead s) := by
  unfold State.partnerDead
  repeat' first
    | with_reducible exact h
    | with_reducible assumption
    | with_reducible intro _
    | with_reducible apply kept_ite
    | with_reducible apply kept_each
    | with_reducible apply State.wr_kept
    | with_reducible apply State.trigger_kept
    | with_reducible apply kept_bits
    | simp only [kept_mk_eq]
    | split

theorem State.linkLost_kept {s₀ s : State} (h : Kept s₀ s)  :
    Kept s₀ (State.linkLost s) := by
  unfold State.linkLost
  repeat' first
    | with_reducible exact h
    | with_reducible assumption
    | with_reducible intro _
    | with_reducible apply kept_ite
    | with_reducible apply kept_each
    | with_reducible apply State.wr_kept
    | with_reducible apply State.report_kept
    | with_reducible apply State.giveEnd_kept
    | with_reducible apply State.setRole_kept
    | with_reducible apply kept_bits
    | simp only [kept_mk_eq]
    | split

theorem State.witnessEdge_kept {s₀ s : State} (h : Kept s₀ s)  :
    Kept s₀ (State.witnessEdge s) := by
  unfold State.witnessEdge
  repeat' first
    | with_reducible exact h
    | with_reducible assumption
    | with_reducible intro _
    | with_reducible apply kept_ite
    | with_reducible apply State.linkLost_kept
    | with_reducible apply kept_bits
    | simp only [kept_mk_eq]
    | split

theorem State.dissolve_kept {s₀ s : State} (h : Kept s₀ s)  :
    Kept s₀ (State.dissolve s) := by
  unfold State.dissolve
  repeat' first
    | with_reducible exact h
    | with_reducible assumption
    | with_reducible intro _
    | with_reducible apply kept_ite
    | with_reducible apply kept_each
    | with_reducible apply State.giveEnd_kept
    | with_reducible apply State.pairOff_kept
    | with_reducible apply State.setRole_kept
    | with_reducible apply State.modGr_kept
    | with_reducible apply kept_bits
    | simp only [kept_mk_eq]
    | split

theorem State.cellIn_kept {s₀ s : State} (h : Kept s₀ s) (lane : Nat) :
    Kept s₀ (State.cellIn s lane) := by
  unfold State.cellIn
  repeat' first
    | with_reducible exact h
    | with_reducible assumption
    | with_reducible intro _
    | with_reducible apply kept_ite
    | with_reducible apply State.wr_kept
    | with_reducible apply kept_bits
    | simp only [kept_mk_eq]
    | split

theorem State.lanesUp_kept {s₀ s : State} (h : Kept s₀ s)  :
    Kept s₀ (State.lanesUp s) := by
  unfold State.lanesUp
  repeat' first
    | with_reducible exact h
    | with_reducible assumption
    | with_reducible intro _
    | with_reducible apply kept_ite
    | with_reducible apply State.wr_kept
    | with_reducible apply kept_bits
    | simp only [kept_mk_eq]
    | split

theorem State.follow_kept {s₀ s : State} (h : Kept s₀ s) (g n : Nat) :
    Kept s₀ (State.follow s g n) := by
  unfold State.follow
  repeat' first
    | with_reducible exact h
    | with_reducible assumption
    | with_reducible intro _
    | with_reducible apply kept_ite
    | with_reducible apply State.modGr_kept
    | with_reducible apply State.setRole_kept
    | with_reducible apply kept_bits
    | simp only [kept_mk_eq]
    | split

theorem State.standBy_kept {s₀ s : State} (h : Kept s₀ s) (g : Nat) :
    Kept s₀ (State.standBy s g) := by
  unfold State.standBy
  repeat' first
    | with_reducible exact h
    | with_reducible assumption
    | with_reducible intro _
    | with_reducible apply kept_ite
    | with_reducible apply kept_each
    | with_reducible apply State.standbySwitches_kept
    | with_reducible apply State.setRole_kept
    | with_reducible apply kept_bits
    | simp only [kept_mk_eq]
    | split

theorem State.compare_kept {s₀ s : State} (h : Kept s₀ s) (g n : Nat) :
    Kept s₀ (State.compare s g n) := by
  unfold State.compare
  repeat' first
    | with_reducible exact h
    | with_reducible assumption
    | with_reducible intro _
    | with_reducible apply kept_ite
    | with_reducible apply State.modGr_kept
    | with_reducible apply State.report_kept
    | with_reducible apply State.push_kept
    | with_reducible apply State.setRole_kept
    | with_reducible apply State.resync_kept
    | with_reducible apply State.standBy_kept
    | with_reducible apply kept_bits
    | simp only [kept_mk_eq]
    | split

theorem State.shiftFrames_kept {s₀ s : State} (h : Kept s₀ s) (frame : Nat) :
    Kept s₀ (State.shiftFrames s frame) := by
  unfold State.shiftFrames
  repeat' first
    | with_reducible exact h
    | with_reducible assumption
    | with_reducible intro _
    | with_reducible apply kept_ite
    | with_reducible apply State.frame_kept
    | with_reducible apply kept_bits
    | simp only [kept_mk_eq]
    | split

theorem State.beat_kept {s₀ s : State} (h : Kept s₀ s) (b : Beat) :
    Kept s₀ (State.beat s b) := by
  unfold State.beat
  repeat' first
    | with_reducible exact h
    | with_reducible assumption
    | with_reducible intro _
    | with_reducible apply kept_ite
    | with_reducible apply kept_each
    | with_reducible apply State.cellIn_kept
    | with_reducible apply State.wr_kept
    | with_reducible apply State.shiftFrames_kept
    | with_reducible apply State.frame_kept
    | with_reducible apply State.report_kept
    | with_reducible apply State.dissolve_kept
    | with_reducible apply State.compare_kept
    | with_reducible apply State.follow_kept
    | with_reducible apply kept_bits
    | simp only [kept_mk_eq]
    | split

theorem State.mirrorCht_kept {s₀ s : State} (h : Kept s₀ s) (c st pos unit : Nat) (cur : Nat × Nat) :
    Kept s₀ (State.mirrorCht s c st pos unit cur) := by
  unfold State.mirrorCht
  repeat' first
    | with_reducible exact h
    | with_reducible assumption
    | with_reducible intro _
    | with_reducible apply kept_ite
    | with_reducible apply State.idle_kept
    | with_reducible apply State.wr_kept
    | with_reducible apply State.modCht_kept
    | with_reducible apply kept_bits
    | simp only [kept_mk_eq]
    | split

theorem State.standbyTick_kept {s₀ s : State} (h : Kept s₀ s) (c : Nat) (fresh_ : Bool) :
    Kept s₀ (State.standbyTick s c fresh_) := by
  unfold State.standbyTick
  repeat' first
    | with_reducible exact h
    | with_reducible assumption
    | with_reducible intro _
    | with_reducible apply kept_ite
    | with_reducible apply State.idle_kept
    | with_reducible apply State.modCht_kept
    | with_reducible apply kept_bits
    | simp only [kept_mk_eq]
    | split

theorem State.mirror_kept {s₀ s : State} (h : Kept s₀ s) (m : MirrorState) :
    Kept s₀ (State.mirror s m) := by
  unfold State.mirror
  repeat' first
    | with_reducible exact h
    | with_reducible assumption
    | with_reducible intro _
    | with_reducible apply kept_ite
    | with_reducible apply kept_ite_fst
    | with_reducible refine kept_of_fst (by assumption) ?_
    | with_reducible apply State.modCh_kept
    | with_reducible apply State.wr_kept
    | with_reducible apply State.inc_kept
    | with_reducible apply State.standbySwitches_kept
    | with_reducible apply State.rebind_kept
    | with_reducible apply State.mirrorCht_kept
    | with_reducible apply State.reserve_kept
    | with_reducible apply State.modHold_kept
    | with_reducible apply State.relayCount_kept
    | with_reducible apply State.rebase_kept
    | with_reducible apply State.modAper_kept
    | with_reducible apply State.setRole_kept
    | with_reducible apply State.report_kept
    | with_reducible apply kept_bits
    | simp only [kept_mk_eq]
    | split

theorem State.mirrorObj_kept {s₀ s : State} (h : Kept s₀ s) (o : Obj) (i e : Nat) (v : Int) :
    Kept s₀ (State.mirrorObj s o i e v) := by
  unfold State.mirrorObj
  repeat' first
    | with_reducible exact h
    | with_reducible assumption
    | with_reducible intro _
    | with_reducible apply kept_ite
    | with_reducible apply kept_ite_fst
    | with_reducible refine kept_of_fst (by assumption) ?_
    | with_reducible apply State.wr_kept
    | with_reducible apply State.push_kept
    | with_reducible apply State.modGr_kept
    | with_reducible apply State.modAper_kept
    | with_reducible apply State.setParam_kept
    | with_reducible apply kept_bits
    | simp only [kept_mk_eq]
    | split

theorem State.mirrorIn_kept {s₀ s : State} (h : Kept s₀ s) (x : Nat × MirrorState) :
    Kept s₀ (State.mirrorIn s x) := by
  unfold State.mirrorIn
  repeat' first
    | with_reducible exact h
    | with_reducible assumption
    | with_reducible intro _
    | with_reducible apply kept_ite
    | with_reducible apply State.mirror_kept
    | with_reducible apply State.modGr_kept
    | with_reducible apply kept_bits
    | simp only [kept_mk_eq]
    | split

theorem State.mirrorPass_kept {s₀ s : State} (h : Kept s₀ s) (g : Nat) :
    Kept s₀ (State.mirrorPass s g) := by
  unfold State.mirrorPass
  repeat' first
    | with_reducible exact h
    | with_reducible assumption
    | with_reducible intro _
    | with_reducible apply kept_ite
    | with_reducible apply kept_each
    | with_reducible apply State.modGr_kept
    | with_reducible apply State.mirror_kept
    | with_reducible apply kept_bits
    | simp only [kept_mk_eq]
    | split

theorem State.mirrorOut_kept {s₀ s : State} (h : Kept s₀ s) (g : Nat) :
    Kept s₀ (State.mirrorOut s g) := by
  unfold State.mirrorOut
  repeat' first
    | with_reducible exact h
    | with_reducible assumption
    | with_reducible intro _
    | with_reducible apply kept_ite
    | with_reducible apply kept_each
    | with_reducible apply State.stateOut_kept
    | with_reducible apply State.modCh_kept
    | with_reducible apply kept_bits
    | simp only [kept_mk_eq]
    | split

theorem State.mirrorConfig_kept {s₀ s : State} (h : Kept s₀ s) (m : MirrorConfig) :
    Kept s₀ (State.mirrorConfig s m) := by
  unfold State.mirrorConfig
  repeat' first
    | with_reducible exact h
    | with_reducible assumption
    | with_reducible intro _
    | with_reducible apply kept_ite
    | with_reducible apply KeptBits.putSweep
    | with_reducible apply KeptBits.filterSweep
    | with_reducible apply kept_ite_fst
    | with_reducible refine kept_of_fst (by assumption) ?_
    | with_reducible apply kept_each
    | with_reducible refine State.restart_kept ?_ (by decide)
    | with_reducible apply State.mirrorObj_kept
    | with_reducible apply State.setLedger_kept
    | with_reducible apply kept_bits
    | simp only [kept_mk_eq]
    | split

theorem State.form_kept {s₀ s : State} (h : Kept s₀ s) (p : Partner) :
    Kept s₀ (State.form s p) := by
  unfold State.form
  repeat' first
    | with_reducible exact h
    | with_reducible assumption
    | with_reducible intro _
    | with_reducible apply kept_ite
    | with_reducible apply kept_ite_fst
    | with_reducible refine kept_of_fst (by assumption) ?_
    | with_reducible apply kept_each
    | with_reducible apply kept_getD
    | with_reducible apply State.wr_kept
    | with_reducible apply State.setRole_kept
    | with_reducible apply State.resync_kept
    | with_reducible apply State.standBy_kept
    | with_reducible apply kept_bits
    | simp only [kept_mk_eq]
    | split

theorem State.syncPass_kept {s₀ s : State} (h : Kept s₀ s) (g : Nat) :
    Kept s₀ (State.syncPass s g) := by
  unfold State.syncPass
  repeat' first
    | with_reducible exact h
    | with_reducible assumption
    | with_reducible intro _
    | with_reducible apply kept_ite
    | with_reducible apply State.modGr_kept
    | with_reducible apply State.stateOut_kept
    | with_reducible apply kept_bits
    | simp only [kept_mk_eq]
    | split

theorem State.lanePass_kept {s₀ s : State} (h : Kept s₀ s) (lane : Nat) :
    Kept s₀ (State.lanePass s lane) := by
  unfold State.lanePass
  repeat' first
    | with_reducible exact h
    | with_reducible assumption
    | with_reducible intro _
    | with_reducible apply kept_ite
    | with_reducible apply kept_ite_fst
    | with_reducible refine kept_of_fst (by assumption) ?_
    | with_reducible apply State.laneSend_kept
    | with_reducible apply kept_bits
    | simp only [kept_mk_eq]
    | split

theorem State.pairSlot_kept {s₀ s : State} (h : Kept s₀ s)  :
    Kept s₀ (State.pairSlot s) := by
  unfold State.pairSlot
  repeat' first
    | with_reducible exact h
    | with_reducible assumption
    | with_reducible intro _
    | with_reducible apply kept_ite
    | with_reducible apply kept_each
    | with_reducible apply State.syncPass_kept
    | with_reducible apply State.lanePass_kept
    | with_reducible apply kept_bits
    | simp only [kept_mk_eq]
    | split

theorem State.handoverReq_kept {s₀ s : State} (h : Kept s₀ s) (g : Nat) (a : Ans) :
    Kept s₀ (State.handoverReq s g a).1 := by
  unfold State.handoverReq
  repeat' first
    | with_reducible exact h
    | with_reducible assumption
    | with_reducible intro _
    | with_reducible apply kept_ite
    | with_reducible apply kept_ite_fst
    | with_reducible refine kept_of_fst (by assumption) ?_
    | with_reducible apply State.idle_kept
    | with_reducible apply State.modGr_kept
    | with_reducible apply State.sendCell_kept
    | with_reducible apply kept_bits
    | simp only [kept_mk_eq]
    | split

end Sys2Proof.Machine
end

