-- ==== Sys2Proof/Laws/StrobeKept.lean ====
section
/-! SUPPORT. What the operations of Machine/Strobe.lean keep. -/
namespace Sys2Proof.Machine
open Sys2Proof

theorem State.bankClose_kept {s₀ s : State} (h : Kept s₀ s) (c : Nat) :
    Kept s₀ (State.bankClose s c) := by
  unfold State.bankClose
  repeat' first
    | with_reducible exact h
    | with_reducible assumption
    | with_reducible intro _
    | with_reducible apply kept_ite
    | with_reducible apply State.modCh_kept
    | with_reducible apply State.wr_kept
    | with_reducible apply kept_bits
    | simp only [kept_mk_eq]
    | split

theorem State.groupOff_kept {s₀ s : State} (h : Kept s₀ s) (g : Nat) :
    Kept s₀ (State.groupOff s g) := by
  unfold State.groupOff
  repeat' first
    | with_reducible exact h
    | with_reducible assumption
    | with_reducible intro _
    | with_reducible apply kept_ite
    | with_reducible apply State.wr_kept
    | with_reducible apply State.monFence_kept
    | with_reducible apply State.modGr_kept
    | with_reducible apply State.runState_kept
    | with_reducible apply State.answer_kept
    | with_reducible apply kept_bits
    | simp only [kept_mk_eq]
    | split

theorem State.groupOn_kept {s₀ s : State} (h : Kept s₀ s) (g : Nat) (a : Ans) :
    Kept s₀ (State.groupOn s g a) := by
  unfold State.groupOn
  repeat' first
    | with_reducible exact h
    | with_reducible assumption
    | with_reducible intro _
    | with_reducible apply kept_ite
    | with_reducible apply kept_each
    | with_reducible apply State.modCh_kept
    | with_reducible apply State.wr_kept
    | with_reducible apply State.modGr_kept
    | with_reducible apply State.runState_kept
    | with_reducible apply kept_bits
    | simp only [kept_mk_eq]
    | split

theorem State.boostPut_kept {s₀ s : State} (h : Kept s₀ s) (c : Nat) (n : Int) :
    Kept s₀ (State.boostPut s c n) := by
  unfold State.boostPut
  repeat' first
    | with_reducible exact h
    | with_reducible assumption
    | with_reducible intro _
    | with_reducible apply kept_ite
    | with_reducible apply State.wr_kept
    | with_reducible apply State.switches_kept
    | with_reducible apply State.modCh_kept
    | with_reducible apply kept_bits
    | simp only [kept_mk_eq]
    | split

theorem State.applyObj_kept {s₀ s : State} (h : Kept s₀ s) (o : Obj) (i e : Nat) (v : Val) :
    Kept s₀ (State.applyObj s o i e v) := by
  unfold State.applyObj
  repeat' first
    | with_reducible exact h
    | with_reducible assumption
    | with_reducible intro _
    | with_reducible apply kept_ite
    | with_reducible apply kept_ite_fst
    | with_reducible refine kept_of_fst (by assumption) ?_
    | with_reducible apply kept_each
    | with_reducible apply State.configOut_kept
    | with_reducible apply State.wr_kept
    | with_reducible apply State.push_kept
    | with_reducible apply State.modGr_kept
    | with_reducible apply State.rebase_kept
    | with_reducible apply State.bankClose_kept
    | with_reducible apply State.modCh_kept
    | with_reducible apply State.groupOff_kept
    | with_reducible apply State.groupOn_kept
    | with_reducible apply State.boostPut_kept
    | with_reducible apply State.setParam_kept
    | with_reducible apply State.wrV_kept
    | with_reducible apply kept_bits
    | simp only [kept_mk_eq]
    | split

theorem State.switchDone_kept {s₀ s : State} (h : Kept s₀ s)  :
    Kept s₀ (State.switchDone s) := by
  unfold State.switchDone
  repeat' first
    | with_reducible exact h
    | with_reducible assumption
    | with_reducible intro _
    | with_reducible apply kept_ite
    | with_reducible apply kept_ite_fst
    | with_reducible refine kept_of_fst (by assumption) ?_
    | with_reducible apply State.wr_kept
    | with_reducible apply State.inc_kept
    | with_reducible apply State.reply_kept
    | with_reducible apply kept_bits
    | simp only [kept_mk_eq]
    | split

theorem State.switchGroup_kept {s₀ s : State} (h : Kept s₀ s) (g : Nat) :
    Kept s₀ (State.switchGroup s g) := by
  unfold State.switchGroup
  repeat' first
    | with_reducible exact h
    | with_reducible assumption
    | with_reducible intro _
    | with_reducible apply kept_ite
    | with_reducible apply State.switchDone_kept
    | with_reducible apply kept_bits
    | simp only [kept_mk_eq]
    | split

theorem State.modeValues_kept {s₀ s : State} (h : Kept s₀ s) (ts : List Triple) :
    Kept s₀ (State.modeValues s ts) := by
  unfold State.modeValues
  repeat' first
    | with_reducible exact h
    | with_reducible assumption
    | with_reducible intro _
    | with_reducible apply kept_ite
    | with_reducible apply kept_each
    | with_reducible apply State.applyObj_kept
    | with_reducible apply kept_bits
    | simp only [kept_mk_eq]
    | split

theorem State.reconnect_kept {s₀ s : State} (h : Kept s₀ s) (c : Nat) :
    Kept s₀ (State.reconnect s c) := by
  unfold State.reconnect
  repeat' first
    | with_reducible exact h
    | with_reducible assumption
    | with_reducible intro _
    | with_reducible apply kept_ite
    | with_reducible apply State.modCh_kept
    | with_reducible apply State.switches_kept
    | with_reducible apply kept_bits
    | simp only [kept_mk_eq]
    | split

theorem State.codePass_kept {s₀ s : State} (h : Kept s₀ s) (g : Nat) (l : List Change) (c : Nat) :
    Kept s₀ (State.codePass s g l c) := by
  unfold State.codePass
  repeat' first
    | with_reducible exact h
    | with_reducible assumption
    | with_reducible intro _
    | with_reducible apply kept_ite
    | with_reducible apply kept_ite_fst
    | with_reducible refine kept_of_fst (by assumption) ?_
    | with_reducible apply State.modCh_kept
    | with_reducible apply State.reconnect_kept
    | with_reducible apply State.undo_kept
    | with_reducible apply State.inc_kept
    | with_reducible apply kept_bits
    | simp only [kept_mk_eq]
    | split

theorem State.valuePass_kept {s₀ s : State} (h : Kept s₀ s) (x : Change) :
    Kept s₀ (State.valuePass s x) := by
  unfold State.valuePass
  repeat' first
    | with_reducible exact h
    | with_reducible assumption
    | with_reducible intro _
    | with_reducible apply kept_ite
    | with_reducible apply kept_ite_fst
    | with_reducible refine kept_of_fst (by assumption) ?_
    | with_reducible apply State.setParam_kept
    | with_reducible apply State.answer_kept
    | with_reducible apply State.modeValues_kept
    | with_reducible apply State.modCh_kept
    | with_reducible apply State.rebase_kept
    | with_reducible apply kept_bits
    | simp only [kept_mk_eq]
    | split

theorem State.pendStart_kept {s₀ s : State} (h : Kept s₀ s) (c : Nat) :
    Kept s₀ (State.pendStart s c) := by
  unfold State.pendStart
  repeat' first
    | with_reducible exact h
    | with_reducible assumption
    | with_reducible intro _
    | with_reducible apply kept_ite
    | with_reducible apply kept_ite_fst
    | with_reducible refine kept_of_fst (by assumption) ?_
    | with_reducible apply State.modSlide_kept
    | with_reducible apply State.rangeRefuse_kept
    | with_reducible apply State.rangeDirect_kept
    | with_reducible apply State.slideStart_kept
    | with_reducible apply kept_bits
    | simp only [kept_mk_eq]
    | split

theorem State.slidePass_kept {s₀ s : State} (h : Kept s₀ s) (g : Nat) (l : List Change) (c : Nat) :
    Kept s₀ (State.slidePass s g l c) := by
  unfold State.slidePass
  repeat' first
    | with_reducible exact h
    | with_reducible assumption
    | with_reducible intro _
    | with_reducible apply kept_ite
    | with_reducible apply kept_ite_fst
    | with_reducible refine kept_of_fst (by assumption) ?_
    | with_reducible apply State.idle_kept
    | with_reducible apply State.pendStart_kept
    | with_reducible apply State.slideMake_kept
    | with_reducible apply State.modSlide_kept
    | with_reducible apply State.slideBreak_kept
    | with_reducible apply State.rampStart_kept
    | with_reducible apply kept_bits
    | simp only [kept_mk_eq]
    | split

theorem State.fencePass_kept {s₀ s : State} (h : Kept s₀ s) (g p : Nat) :
    Kept s₀ (State.fencePass s g p) := by
  unfold State.fencePass
  repeat' first
    | with_reducible exact h
    | with_reducible assumption
    | with_reducible intro _
    | with_reducible apply kept_ite
    | with_reducible apply State.sliceFenceAt_kept
    | with_reducible apply State.groupFailOut_kept
    | with_reducible apply kept_bits
    | simp only [kept_mk_eq]
    | split

theorem State.ctlStopAt_kept {s₀ s : State} (h : Kept s₀ s) (g : Nat) (a : Ans) :
    Kept s₀ (State.ctlStopAt s g a) := by
  unfold State.ctlStopAt
  repeat' first
    | with_reducible exact h
    | with_reducible assumption
    | with_reducible intro _
    | with_reducible apply kept_ite
    | with_reducible apply kept_getD
    | with_reducible apply State.modGr_kept
    | with_reducible apply State.wr_kept
    | with_reducible apply State.answer_kept
    | with_reducible apply State.answers_kept
    | with_reducible apply kept_bits
    | simp only [kept_mk_eq]
    | split

theorem State.filtStopAt_kept {s₀ s : State} (h : Kept s₀ s) (g : Nat) (a : Ans) :
    Kept s₀ (State.filtStopAt s g a) := by
  unfold State.filtStopAt
  repeat' first
    | with_reducible exact h
    | with_reducible assumption
    | with_reducible intro _
    | with_reducible apply kept_ite
    | with_reducible apply kept_each
    | with_reducible apply State.modGr_kept
    | with_reducible apply State.rebase_kept
    | with_reducible apply State.answer_kept
    | with_reducible apply kept_bits
    | simp only [kept_mk_eq]
    | split

theorem State.declAt_kept {s₀ s : State} (h : Kept s₀ s) (c : Nat) (v : Int) (a : Ans) (adm : Option Bool) :
    Kept s₀ (State.declAt s c v a adm) := by
  unfold State.declAt
  repeat' first
    | with_reducible exact h
    | with_reducible assumption
    | with_reducible intro _
    | with_reducible apply kept_ite
    | with_reducible apply kept_getD
    | with_reducible apply State.setParam_kept
    | with_reducible apply State.answer_kept
    | with_reducible apply State.refuseBudget_kept
    | with_reducible apply kept_bits
    | simp only [kept_mk_eq]
    | split

theorem State.outPass_kept {s₀ s : State} (h : Kept s₀ s) (g : Nat) (gone : List Nat) (x : Change) :
    Kept s₀ (State.outPass s g gone x) := by
  unfold State.outPass
  repeat' first
    | with_reducible exact h
    | with_reducible assumption
    | with_reducible intro _
    | with_reducible apply kept_ite
    | with_reducible apply kept_ite_fst
    | with_reducible refine kept_of_fst (by assumption) ?_
    | with_reducible apply kept_each
    | with_reducible apply State.reply_kept
    | with_reducible apply State.outAt_kept
    | with_reducible apply State.reedAct_kept
    | with_reducible apply State.ctlStopAt_kept
    | with_reducible apply State.filtStopAt_kept
    | with_reducible apply State.modGr_kept
    | with_reducible apply State.aggOpen_kept
    | with_reducible apply State.modAper_kept
    | with_reducible apply State.declAt_kept
    | with_reducible apply kept_bits
    | simp only [kept_mk_eq]
    | split

theorem State.rangePass_kept {s₀ s : State} (h : Kept s₀ s) (g : Nat) (l : List Change) :
    Kept s₀ (State.rangePass s g l) := by
  unfold State.rangePass
  repeat' first
    | with_reducible exact h
    | with_reducible assumption
    | with_reducible intro _
    | with_reducible apply kept_ite
    | with_reducible apply kept_each
    | with_reducible apply State.rangeRefuse_kept
    | with_reducible apply State.rangeApply_kept
    | with_reducible apply kept_bits
    | simp only [kept_mk_eq]
    | split

theorem State.chtPass_kept {s₀ s : State} (h : Kept s₀ s) (late : Bool) (x : Change) :
    Kept s₀ (State.chtPass s late x) := by
  unfold State.chtPass
  repeat' first
    | with_reducible exact h
    | with_reducible assumption
    | with_reducible intro _
    | with_reducible apply kept_ite
    | with_reducible apply kept_ite_fst
    | with_reducible refine kept_of_fst (by assumption) ?_
    | with_reducible apply State.chtCmd_kept
    | with_reducible apply kept_bits
    | simp only [kept_mk_eq]
    | split

theorem State.unitPass_kept {s₀ s : State} (h : Kept s₀ s) (g : Nat) (l : List Change) (x : Change) :
    Kept s₀ (State.unitPass s g l x) := by
  unfold State.unitPass
  repeat' first
    | with_reducible exact h
    | with_reducible assumption
    | with_reducible intro _
    | with_reducible apply kept_ite
    | with_reducible apply kept_ite_fst
    | with_reducible refine kept_of_fst (by assumption) ?_
    | with_reducible apply State.unitEnd_kept
    | with_reducible apply State.connectAt_kept
    | with_reducible apply State.unitApply_kept
    | with_reducible apply State.waveStep_kept
    | with_reducible apply kept_bits
    | simp only [kept_mk_eq]
    | split

theorem State.winRange_kept {s₀ s : State} (h : Kept s₀ s) (c : Nat) (r : Option RangeReq) :
    Kept s₀ (State.winRange s c r) := by
  unfold State.winRange
  repeat' first
    | with_reducible exact h
    | with_reducible assumption
    | with_reducible intro _
    | with_reducible apply kept_ite
    | with_reducible apply kept_ite_fst
    | with_reducible refine kept_of_fst (by assumption) ?_
    | with_reducible apply State.rangeDirect_kept
    | with_reducible apply kept_bits
    | simp only [kept_mk_eq]
    | split

theorem State.winPass_kept {s₀ : State} (falls : List Nat) (l : List Change) :
    ∀ {s : State} (seen : List Nat), Kept s₀ s → Kept s₀ (s.winPass falls seen l) := by
  induction l with
  | nil => intro s seen h; exact h
  | cons x l ih =>
    intro s seen h
    unfold State.winPass
    simp only
    split
    · exact ih _ h
    · exact ih _ h
    · exact ih _ (kept_ite (State.setParam_kept h _ _ _ _) h)
    · exact ih _ (kept_ite (State.winRange_kept h _ _) h)
    · exact ih _ (kept_each (State.modeValues_kept h _) fun _ _ h => State.winRange_kept h _ _)
    · exact ih _ h

theorem State.mutePass_kept {s₀ s : State} (h : Kept s₀ s) (g : Nat) (gone : List Nat) (x : Change) :
    Kept s₀ (State.mutePass s g gone x) := by
  unfold State.mutePass
  repeat' first
    | with_reducible exact h
    | with_reducible assumption
    | with_reducible intro _
    | with_reducible apply kept_ite
    | with_reducible apply kept_ite_fst
    | with_reducible refine kept_of_fst (by assumption) ?_
    | with_reducible apply kept_getD
    | with_reducible refine State.muteAt_kept ?_ _ _ _ (by assumption)
    | with_reducible apply State.outAt_kept
    | with_reducible apply State.reedAct_kept
    | with_reducible apply State.engineFenceAt_kept
    | with_reducible apply State.slideFenceAt_kept
    | with_reducible apply kept_bits
    | simp only [kept_mk_eq]
    | split

theorem State.latePass_kept {s₀ s : State} (h : Kept s₀ s) (g : Nat) (x : Change) :
    Kept s₀ (State.latePass s g x) := by
  unfold State.latePass
  repeat' first
    | with_reducible exact h
    | with_reducible assumption
    | with_reducible intro _
    | with_reducible apply kept_ite
    | with_reducible apply kept_ite_fst
    | with_reducible refine kept_of_fst (by assumption) ?_
    | with_reducible apply State.calBegin_kept
    | with_reducible apply State.calReturn_kept
    | with_reducible apply State.calCommitAt_kept
    | with_reducible apply State.takeAt_kept
    | with_reducible apply State.isolateAt_kept
    | with_reducible apply State.switchGroup_kept
    | with_reducible apply kept_bits
    | simp only [kept_mk_eq]
    | split

theorem State.complPass_kept {s₀ s : State} (h : Kept s₀ s) (c : Nat) (stepped : Bool) :
    Kept s₀ (State.complPass s c stepped) := by
  unfold State.complPass
  repeat' first
    | with_reducible exact h
    | with_reducible assumption
    | with_reducible intro _
    | with_reducible apply kept_ite
    | with_reducible apply State.modCh_kept
    | with_reducible apply State.setOut_kept
    | with_reducible apply State.loadCode_kept
    | with_reducible apply kept_bits
    | simp only [kept_mk_eq]
    | split

theorem State.biasPass_kept {s₀ s : State} (h : Kept s₀ s) (c : Nat) :
    Kept s₀ (State.biasPass s c) := by
  unfold State.biasPass
  repeat' first
    | with_reducible exact h
    | with_reducible assumption
    | with_reducible intro _
    | with_reducible apply kept_ite
    | with_reducible apply kept_ite_fst
    | with_reducible refine kept_of_fst (by assumption) ?_
    | with_reducible apply State.modHold_kept
    | with_reducible apply State.biasCount_kept
    | with_reducible apply kept_bits
    | simp only [kept_mk_eq]
    | split

theorem State.pledgePass_kept {s₀ s : State} (h : Kept s₀ s) (g c : Nat) :
    Kept s₀ (State.pledgePass s g c) := by
  unfold State.pledgePass
  repeat' first
    | with_reducible exact h
    | with_reducible assumption
    | with_reducible intro _
    | with_reducible apply kept_ite
    | with_reducible apply State.modCh_kept
    | with_reducible apply kept_bits
    | simp only [kept_mk_eq]
    | split

theorem State.slicePass_kept {s₀ s : State} (h : Kept s₀ s) (g c : Nat) :
    Kept s₀ (State.slicePass s g c) := by
  unfold State.slicePass
  repeat' first
    | with_reducible exact h
    | with_reducible assumption
    | with_reducible intro _
    | with_reducible apply kept_ite
    | with_reducible apply State.modCh_kept
    | with_reducible apply kept_bits
    | simp only [kept_mk_eq]
    | split

theorem State.endPass_kept {s₀ s : State} (h : Kept s₀ s) (g : Nat) (c : Nat) (before : SlidePhase) (fresh_ : Bool) :
    Kept s₀ (State.endPass s g c before fresh_) := by
  unfold State.endPass
  repeat' first
    | with_reducible exact h
    | with_reducible assumption
    | with_reducible intro _
    | with_reducible apply kept_ite
    | with_reducible apply State.complPass_kept
    | with_reducible apply State.lawPass_kept
    | with_reducible apply State.slicePass_kept
    | with_reducible apply State.pledgePass_kept
    | with_reducible apply State.inc_kept
    | with_reducible apply State.standbyTick_kept
    | with_reducible apply State.biasPass_kept
    | with_reducible apply State.chtTick_kept
    | with_reducible apply State.modAper_kept
    | with_reducible apply kept_bits
    | simp only [kept_mk_eq]
    | split

theorem State.strobe_kept {s₀ s : State} (h : Kept s₀ s) (g : Nat) :
    Kept s₀ (State.strobe s g) := by
  unfold State.strobe
  repeat' first
    | with_reducible exact h
    | with_reducible assumption
    | with_reducible intro _
    | with_reducible apply kept_ite
    | with_reducible apply kept_each
    | with_reducible apply State.modGr_kept
    | with_reducible apply State.mirrorPass_kept
    | with_reducible apply State.holdCtx_kept
    | with_reducible apply State.thermPass_kept
    | with_reducible apply State.codePass_kept
    | with_reducible apply State.valuePass_kept
    | with_reducible apply State.slidePass_kept
    | with_reducible apply State.fencePass_kept
    | with_reducible apply State.outPass_kept
    | with_reducible apply State.rangePass_kept
    | with_reducible apply State.chtPass_kept
    | with_reducible apply State.pulseFall_kept
    | with_reducible apply State.unitPass_kept
    | with_reducible apply State.winPass_kept
    | with_reducible apply State.mutePass_kept
    | with_reducible apply State.latePass_kept
    | with_reducible apply State.handTick_kept
    | with_reducible apply State.pairStrobe_kept
    | with_reducible apply State.endPass_kept
    | with_reducible apply State.reExecute_kept
    | with_reducible apply State.mirrorOut_kept
    | with_reducible apply kept_bits
    | simp only [kept_mk_eq]
    | split

theorem State.tbaGroup_kept {s₀ s : State} (h : Kept s₀ s) (g : Nat) :
    Kept s₀ (State.tbaGroup s g) := by
  unfold State.tbaGroup
  repeat' first
    | with_reducible exact h
    | with_reducible assumption
    | with_reducible intro _
    | with_reducible apply kept_ite
    | with_reducible apply kept_ite_fst
    | with_reducible refine kept_of_fst (by assumption) ?_
    | with_reducible apply kept_each
    | with_reducible apply kept_getD
    | with_reducible refine State.muteAt_kept ?_ _ _ _ (by assumption)
    | with_reducible apply State.modGr_kept
    | with_reducible apply State.rampHand_kept
    | with_reducible apply State.rampStart_kept
    | with_reducible apply State.reply_kept
    | with_reducible apply State.outAt_kept
    | with_reducible apply State.reedAct_kept
    | with_reducible apply State.engineFenceAt_kept
    | with_reducible apply State.pledgePass_kept
    | with_reducible apply kept_bits
    | simp only [kept_mk_eq]
    | split

theorem State.refTick_kept {s₀ s : State} (h : Kept s₀ s)  :
    Kept s₀ (State.refTick s) := by
  unfold State.refTick
  repeat' first
    | with_reducible exact h
    | with_reducible assumption
    | with_reducible intro _
    | with_reducible apply kept_ite
    | with_reducible apply kept_ite_fst
    | with_reducible refine kept_of_fst (by assumption) ?_
    | with_reducible apply State.report_kept
    | with_reducible apply kept_bits
    | simp only [kept_mk_eq]
    | split

theorem State.tbaRuns_kept {s₀ s : State} (h : Kept s₀ s)  :
    Kept s₀ (State.tbaRuns s) := by
  unfold State.tbaRuns
  repeat' first
    | with_reducible exact h
    | with_reducible assumption
    | with_reducible intro _
    | with_reducible apply kept_ite
    | with_reducible apply State.setTb_kept
    | with_reducible apply State.stopLogged_kept
    | with_reducible apply State.refTick_kept
    | with_reducible apply kept_bits
    | simp only [kept_mk_eq]
    | split

end Sys2Proof.Machine
end

