-- ==== Sys2Proof/Laws/DroneKept.lean ====
section
/-! SUPPORT. What the operations of Machine/Drone.lean keep. -/
namespace Sys2Proof.Machine
open Sys2Proof

theorem State.setWave_kept {s₀ s : State} (h : Kept s₀ s) (n : Nat) (l : List Int) :
    Kept s₀ (State.setWave s n l) := by
  unfold State.setWave
  repeat' first
    | with_reducible exact h
    | with_reducible assumption
    | with_reducible intro _
    | with_reducible apply kept_ite
    | with_reducible apply State.wr_kept
    | with_reducible apply kept_bits
    | simp only [kept_mk_eq]
    | split

theorem State.waveResize_kept {s₀ s : State} (h : Kept s₀ s) (n len : Nat) :
    Kept s₀ (State.waveResize s n len) := by
  unfold State.waveResize
  repeat' first
    | with_reducible exact h
    | with_reducible assumption
    | with_reducible intro _
    | with_reducible apply kept_ite
    | with_reducible apply State.setWave_kept
    | with_reducible apply kept_bits
    | simp only [kept_mk_eq]
    | split

theorem State.scrubBlock_kept {s₀ s : State} (h : Kept s₀ s) (c k : Nat) :
    Kept s₀ (State.scrubBlock s c k) := by
  unfold State.scrubBlock
  repeat' first
    | with_reducible exact h
    | with_reducible assumption
    | with_reducible intro _
    | with_reducible apply kept_ite
    | with_reducible apply kept_ite_fst
    | with_reducible refine kept_of_fst (by assumption) ?_
    | with_reducible apply State.inc_kept
    | with_reducible apply State.modAper_kept
    | with_reducible apply State.drainCheck_kept
    | with_reducible apply kept_bits
    | simp only [kept_mk_eq]
    | split

theorem State.sramBad_kept {s₀ s : State} (h : Kept s₀ s) (region k : Nat) :
    Kept s₀ (State.sramBad s region k) := by
  unfold State.sramBad
  repeat' first
    | with_reducible exact h
    | with_reducible assumption
    | with_reducible intro _
    | with_reducible apply kept_ite
    | with_reducible apply kept_ite_fst
    | with_reducible refine kept_of_fst (by assumption) ?_
    | with_reducible apply State.scrubBlock_kept
    | with_reducible apply State.dropSession_kept
    | with_reducible apply kept_bits
    | simp only [kept_mk_eq]
    | split

theorem State.sramFind_kept {s₀ s : State} (h : Kept s₀ s) (x : ScrubFind) : Kept s₀ (s.sramFind x) := by
  cases x with
  | clean => exact h
  | corrected w => exact State.report_kept (kept_mk_eq.mpr (kept_bits h)) _ _ _ _ _
  | uncorrectable w r k => exact State.sramBad_kept (State.report_kept h _ _ _ _ _) _ _

theorem State.nvmBad_kept {s₀ s : State} (h : Kept s₀ s) (area k : Nat) :
    Kept s₀ (State.nvmBad s area k) := by
  unfold State.nvmBad
  repeat' first
    | with_reducible exact h
    | with_reducible assumption
    | with_reducible intro _
    | with_reducible apply kept_ite
    | with_reducible apply kept_ite_fst
    | with_reducible refine kept_of_fst (by assumption) ?_
    | with_reducible apply kept_getD
    | with_reducible apply State.setWave_kept
    | with_reducible apply kept_bits
    | simp only [kept_mk_eq]
    | split

theorem State.nvmFind_kept {s₀ s : State} (h : Kept s₀ s) (x : ScrubFind) : Kept s₀ (s.nvmFind x) := by
  cases x with
  | clean => exact h
  | corrected w =>
    unfold State.nvmFind
    simp only
    split
    · exact h
    · refine State.nvmPut_kept (State.report_kept (State.inc_kept ?_ _ _ _) _ _ _ _ _) _
      rw [kept_mk_eq]
      exact kept_bits h
  | uncorrectable w r k =>
    unfold State.nvmFind
    simp only
    split
    · exact h
    · have h' := State.report_kept (State.inc_kept h .NVM_UE_COUNT (nvmBank w) 1) (srcBank (nvmBank w)) 0x1B (w % 131072)
        (bankArea (nvmBank w)) .transient
      split
      · exact h'
      · exact State.nvmPut_kept (State.nvmBad_kept h' _ _) _

theorem State.pageWrite_kept {s₀ s : State} (h : Kept s₀ s) (b l : Nat) :
    Kept s₀ (State.pageWrite s b l) := by
  unfold State.pageWrite
  repeat' first
    | with_reducible exact h
    | with_reducible assumption
    | with_reducible intro _
    | with_reducible apply kept_ite
    | with_reducible apply kept_bits
    | simp only [kept_mk_eq]
    | split

theorem State.placeWrite_kept {s₀ s : State} (h : Kept s₀ s) (p : Nat × Nat) :
    Kept s₀ (State.placeWrite s p) := by
  unfold State.placeWrite
  repeat' first
    | with_reducible exact h
    | with_reducible assumption
    | with_reducible intro _
    | with_reducible apply kept_ite
    | with_reducible apply State.pageWrite_kept
    | with_reducible apply kept_bits
    | simp only [kept_mk_eq]
    | split

theorem State.pageFlush_kept {s₀ s : State} (h : Kept s₀ s) (p : Nat × Nat) (ok : Bool) :
    Kept s₀ (State.pageFlush s p ok) := by
  unfold State.pageFlush
  repeat' first
    | with_reducible exact h
    | with_reducible assumption
    | with_reducible intro _
    | with_reducible apply kept_ite
    | with_reducible apply kept_ite_fst
    | with_reducible refine kept_of_fst (by assumption) ?_
    | with_reducible apply kept_foldl
    | with_reducible apply State.placeWrite_kept
    | with_reducible apply State.pageDone_kept
    | with_reducible apply State.report_kept
    | with_reducible apply State.inc_kept
    | with_reducible apply kept_bits
    | simp only [kept_mk_eq]
    | split

theorem State.leaveReserve_kept {s₀ s : State} (h : Kept s₀ s) (k b : Nat) :
    Kept s₀ (State.leaveReserve s k b) := by
  unfold State.leaveReserve
  repeat' first
    | with_reducible exact h
    | with_reducible assumption
    | with_reducible intro _
    | with_reducible apply kept_ite
    | with_reducible apply State.placeWrite_kept
    | with_reducible apply kept_bits
    | simp only [kept_mk_eq]
    | split

theorem State.paceFrame_kept {s₀ s : State} (h : Kept s₀ s)  :
    Kept s₀ (State.paceFrame s) := by
  unfold State.paceFrame
  repeat' first
    | with_reducible exact h
    | with_reducible assumption
    | with_reducible intro _
    | with_reducible apply kept_ite
    | with_reducible apply kept_ite_fst
    | with_reducible refine kept_of_fst (by assumption) ?_
    | with_reducible apply kept_each
    | with_reducible apply kept_foldl
    | with_reducible apply State.wr_kept
    | with_reducible apply kept_bits
    | simp only [kept_mk_eq]
    | split

theorem State.telemetry_kept {s₀ s : State} (h : Kept s₀ s) (pwr : Nat) :
    Kept s₀ (State.telemetry s pwr) := by
  unfold State.telemetry
  repeat' first
    | with_reducible exact h
    | with_reducible assumption
    | with_reducible intro _
    | with_reducible apply kept_ite
    | with_reducible apply kept_each
    | with_reducible apply State.paceFrame_kept
    | with_reducible apply State.wrV_kept
    | with_reducible apply State.wr_kept
    | with_reducible apply State.modGr_kept
    | with_reducible apply kept_bits
    | simp only [kept_mk_eq]
    | split

theorem State.droneFrom_kept {s₀ s : State} (h : Kept s₀ s)  :
    Kept s₀ (State.droneFrom s) := by
  unfold State.droneFrom
  repeat' first
    | with_reducible exact h
    | with_reducible assumption
    | with_reducible intro _
    | with_reducible apply kept_ite
    | with_reducible apply kept_bits
    | simp only [kept_mk_eq]
    | split

theorem State.tbLost_kept {s₀ s : State} (h : Kept s₀ s) (t : Nat) :
    Kept s₀ (State.tbLost s t) := by
  unfold State.tbLost
  repeat' first
    | with_reducible exact h
    | with_reducible assumption
    | with_reducible intro _
    | with_reducible apply kept_ite
    | with_reducible apply kept_each
    | with_reducible apply State.calEnd_kept
    | with_reducible apply State.push_kept
    | with_reducible apply State.monFreeze_kept
    | with_reducible apply State.setFence_kept
    | with_reducible apply State.fenceNow_kept
    | with_reducible apply State.servoTo_kept
    | with_reducible apply State.wr_kept
    | with_reducible apply kept_bits
    | simp only [kept_mk_eq]
    | split

theorem State.refLost_kept {s₀ s : State} (h : Kept s₀ s)  :
    Kept s₀ (State.refLost s) := by
  unfold State.refLost
  repeat' first
    | with_reducible exact h
    | with_reducible assumption
    | with_reducible intro _
    | with_reducible apply kept_ite
    | with_reducible apply kept_each
    | with_reducible apply State.linkOff_kept
    | with_reducible apply kept_bits
    | simp only [kept_mk_eq]
    | split

theorem State.refBack_kept {s₀ s : State} (h : Kept s₀ s)  :
    Kept s₀ (State.refBack s) := by
  unfold State.refBack
  repeat' first
    | with_reducible exact h
    | with_reducible assumption
    | with_reducible intro _
    | with_reducible apply kept_ite
    | with_reducible apply kept_ite_fst
    | with_reducible refine kept_of_fst (by assumption) ?_
    | with_reducible apply State.report_kept
    | with_reducible apply kept_bits
    | simp only [kept_mk_eq]
    | split

theorem State.tbBack_kept {s₀ s : State} (h : Kept s₀ s) (t : Nat) :
    Kept s₀ (State.tbBack s t) := by
  unfold State.tbBack
  repeat' first
    | with_reducible exact h
    | with_reducible assumption
    | with_reducible intro _
    | with_reducible apply kept_ite
    | with_reducible apply kept_each
    | with_reducible apply State.refBack_kept
    | with_reducible apply State.setTb_kept
    | with_reducible apply State.lanesUp_kept
    | with_reducible apply State.monThaw_kept
    | with_reducible apply kept_bits
    | simp only [kept_mk_eq]
    | split

theorem State.clockWindow_kept {s₀ s : State} (h : Kept s₀ s) (t : Nat) (f : ClkState) :
    Kept s₀ (State.clockWindow s t f) := by
  unfold State.clockWindow
  repeat' first
    | with_reducible exact h
    | with_reducible assumption
    | with_reducible intro _
    | with_reducible apply kept_ite
    | with_reducible apply State.tbBack_kept
    | with_reducible apply State.setTb_kept
    | with_reducible apply State.report_kept
    | with_reducible apply State.tbLost_kept
    | with_reducible apply State.refLost_kept
    | with_reducible apply kept_bits
    | simp only [kept_mk_eq]
    | split

end Sys2Proof.Machine
end

