-- ==== Sys2Proof/Laws/ImageKept.lean ====
section
/-! SUPPORT. What the operations of Machine/Image.lean keep. -/
namespace Sys2Proof.Machine
open Sys2Proof

theorem State.setIdle_kept {s₀ s : State} (h : Kept s₀ s) (h : Half) :
    Kept s₀ (State.setIdle s h) := by
  unfold State.setIdle
  repeat' first
    | with_reducible exact h
    | with_reducible assumption
    | with_reducible intro _
    | with_reducible apply kept_ite
    | with_reducible apply kept_bits
    | simp only [kept_mk_eq]
    | split

theorem State.commitImage_kept {s₀ s : State} (h : Kept s₀ s) (a : Ans) :
    Kept s₀ (State.commitImage s a).1 := by
  unfold State.commitImage
  repeat' first
    | with_reducible exact h
    | with_reducible assumption
    | with_reducible intro _
    | with_reducible apply kept_ite
    | with_reducible apply kept_ite_fst
    | with_reducible refine kept_of_fst (by assumption) ?_
    | with_reducible apply State.setIdle_kept
    | with_reducible apply State.nvmPut_kept
    | with_reducible apply kept_bits
    | simp only [kept_mk_eq]
    | split

theorem State.imageDone_kept {s₀ s : State} (h : Kept s₀ s) (ok : Bool) :
    Kept s₀ (State.imageDone s ok) := by
  unfold State.imageDone
  repeat' first
    | with_reducible exact h
    | with_reducible assumption
    | with_reducible intro _
    | with_reducible apply kept_ite
    | with_reducible apply kept_ite_fst
    | with_reducible refine kept_of_fst (by assumption) ?_
    | with_reducible apply kept_each
    | with_reducible apply State.answer_kept
    | with_reducible apply State.setIdle_kept
    | with_reducible apply State.setWave_kept
    | with_reducible apply State.nvmPut_kept
    | with_reducible apply kept_bits
    | simp only [kept_mk_eq]
    | split

end Sys2Proof.Machine
end

