-- ==== Sys2Proof/Laws/ModesKept.lean ====
section
/-! SUPPORT. What the operations of Machine/Modes.lean keep. -/
namespace Sys2Proof.Machine
open Sys2Proof

theorem State.pairStart_kept {s₀ s : State} (h : Kept s₀ s)  :
    Kept s₀ (State.pairStart s) := by
  unfold State.pairStart
  repeat' first
    | with_reducible exact h
    | with_reducible assumption
    | with_reducible intro _
    | with_reducible apply kept_ite
    | with_reducible apply State.wr_kept
    | with_reducible apply kept_bits
    | simp only [kept_mk_eq]
    | split

theorem State.pairStop_kept {s₀ s : State} (h : Kept s₀ s)  :
    Kept s₀ (State.pairStop s) := by
  unfold State.pairStop
  repeat' first
    | with_reducible exact h
    | with_reducible assumption
    | with_reducible intro _
    | with_reducible apply kept_ite
    | with_reducible apply State.wr_kept
    | with_reducible apply State.dissolve_kept
    | with_reducible apply kept_bits
    | simp only [kept_mk_eq]
    | split

theorem State.retrain_kept {s₀ s : State} (h : Kept s₀ s) (p : Nat) :
    Kept s₀ (State.retrain s p) := by
  unfold State.retrain
  repeat' first
    | with_reducible exact h
    | with_reducible assumption
    | with_reducible intro _
    | with_reducible apply kept_ite
    | with_reducible apply State.linkOff_kept
    | with_reducible apply State.ptpMoved_kept
    | with_reducible apply kept_bits
    | simp only [kept_mk_eq]
    | split

theorem State.putCfg_kept {s₀ s : State} (h : Kept s₀ s) (o : Obj) (i e : Nat) (v : Val) :
    Kept s₀ (State.putCfg s o i e v) := by
  unfold State.putCfg
  repeat' first
    | with_reducible exact h
    | with_reducible assumption
    | with_reducible intro _
    | with_reducible apply kept_ite
    | with_reducible apply kept_ite_fst
    | with_reducible refine kept_of_fst (by assumption) ?_
    | with_reducible apply State.setTimeSrc_kept
    | with_reducible apply State.wr_kept
    | with_reducible apply State.ptpMoved_kept
    | with_reducible apply State.setPpsOffset_kept
    | with_reducible apply State.setPpsWidth_kept
    | with_reducible apply State.streamStart_kept
    | with_reducible apply State.streamStop_kept
    | with_reducible apply State.retrain_kept
    | with_reducible apply State.addrMode_kept
    | with_reducible apply State.staticAddr_kept
    | with_reducible apply State.pairStart_kept
    | with_reducible apply State.pairStop_kept
    | with_reducible apply State.zeroBuckets_kept
    | with_reducible apply State.waveResize_kept
    | with_reducible apply State.spRole_kept
    | with_reducible apply State.wrV_kept
    | with_reducible apply kept_bits
    | simp only [kept_mk_eq]
    | split

theorem State.putObj_kept {s₀ s : State} (h : Kept s₀ s) (t : Triple) :
    Kept s₀ (State.putObj s t) := by
  unfold State.putObj
  repeat' first
    | with_reducible exact h
    | with_reducible assumption
    | with_reducible intro _
    | with_reducible apply kept_ite
    | with_reducible apply State.applyObj_kept
    | with_reducible apply State.putCfg_kept
    | with_reducible apply kept_bits
    | simp only [kept_mk_eq]
    | split

theorem State.withSet_kept {s₀ s : State} (h : Kept s₀ s) (ts : List Triple) :
    Kept s₀ (State.withSet s ts) := by
  unfold State.withSet
  repeat' first
    | with_reducible exact h
    | with_reducible assumption
    | with_reducible intro _
    | with_reducible apply kept_ite
    | with_reducible apply kept_each
    | with_reducible apply State.wrV_kept
    | with_reducible apply kept_bits
    | simp only [kept_mk_eq]
    | split

theorem State.modeAtOnce_kept {s₀ s : State} (h : Kept s₀ s) (ts : List Triple) :
    Kept s₀ (State.modeAtOnce s ts) := by
  unfold State.modeAtOnce
  repeat' first
    | with_reducible exact h
    | with_reducible assumption
    | with_reducible intro _
    | with_reducible apply kept_ite
    | with_reducible apply kept_each
    | with_reducible apply State.modeValues_kept
    | with_reducible apply State.rangeDirect_kept
    | with_reducible apply kept_bits
    | simp only [kept_mk_eq]
    | split

theorem State.switchApply_kept {s₀ s : State} (h : Kept s₀ s) (b : Nat) (ts : List Triple) :
    Kept s₀ (State.switchApply s b ts) := by
  unfold State.switchApply
  repeat' first
    | with_reducible exact h
    | with_reducible assumption
    | with_reducible intro _
    | with_reducible apply kept_ite
    | with_reducible apply kept_each
    | with_reducible apply State.wr_kept
    | with_reducible apply State.putCfg_kept
    | with_reducible apply State.modeAtOnce_kept
    | with_reducible apply State.push_kept
    | with_reducible apply State.switchDone_kept
    | with_reducible apply kept_bits
    | simp only [kept_mk_eq]
    | split

theorem State.switchReject_kept {s₀ s : State} (h : Kept s₀ s) (w : Switch) (st : Status) (at_ : Option (Nat × Nat)) :
    Kept s₀ (State.switchReject s w st at_) := by
  unfold State.switchReject
  repeat' first
    | with_reducible exact h
    | with_reducible assumption
    | with_reducible intro _
    | with_reducible apply kept_ite
    | with_reducible apply kept_ite_fst
    | with_reducible refine kept_of_fst (by assumption) ?_
    | with_reducible apply State.inc_kept
    | with_reducible apply State.noteRefusal_kept
    | with_reducible apply State.refuseBudget_kept
    | with_reducible apply State.violate_kept
    | with_reducible apply State.answerRaw_kept
    | with_reducible apply State.reply_kept
    | with_reducible apply kept_bits
    | simp only [kept_mk_eq]
    | split

theorem State.switchValidated_kept {s₀ s : State} (h : Kept s₀ s)  :
    Kept s₀ (State.switchValidated s) := by
  unfold State.switchValidated
  repeat' first
    | with_reducible exact h
    | with_reducible assumption
    | with_reducible intro _
    | with_reducible apply kept_ite
    | with_reducible apply kept_ite_fst
    | with_reducible refine kept_of_fst (by assumption) ?_
    | with_reducible apply State.switchReject_kept
    | with_reducible apply State.switchApply_kept
    | with_reducible apply kept_bits
    | simp only [kept_mk_eq]
    | split

theorem State.takeBase_kept {s₀ s : State} (h : Kept s₀ s) (base : List Triple) :
    Kept s₀ (State.takeBase s base) := by
  unfold State.takeBase
  repeat' first
    | with_reducible exact h
    | with_reducible assumption
    | with_reducible intro _
    | with_reducible apply kept_ite
    | with_reducible apply kept_bits
    | simp only [kept_mk_eq]
    | split

theorem State.putBase_kept {s₀ s : State} (h : Kept s₀ s) (ts : List Triple) :
    Kept s₀ (State.putBase s ts) := by
  unfold State.putBase
  repeat' first
    | with_reducible exact h
    | with_reducible assumption
    | with_reducible intro _
    | with_reducible apply kept_ite
    | with_reducible apply kept_each
    | with_reducible apply State.wrV_kept
    | with_reducible apply State.programLimit_kept
    | with_reducible apply State.programTev_kept
    | with_reducible apply State.modCh_kept
    | with_reducible apply State.putObj_kept
    | with_reducible apply State.wr_kept
    | with_reducible apply kept_bits
    | simp only [kept_mk_eq]
    | split

theorem State.loadMap_kept {s₀ s : State} (h : Kept s₀ s)  :
    Kept s₀ (State.loadMap s) := by
  unfold State.loadMap
  repeat' first
    | with_reducible exact h
    | with_reducible assumption
    | with_reducible intro _
    | with_reducible apply kept_ite
    | with_reducible apply State.wr_kept
    | with_reducible apply kept_bits
    | simp only [kept_mk_eq]
    | split

theorem State.loadBase_kept {s₀ s : State} (h : Kept s₀ s)  :
    Kept s₀ (State.loadBase s).1 := by
  unfold State.loadBase
  repeat' first
    | with_reducible exact h
    | with_reducible assumption
    | with_reducible intro _
    | with_reducible apply kept_ite
    | with_reducible apply kept_ite_fst
    | with_reducible refine kept_of_fst (by assumption) ?_
    | with_reducible apply State.takeBase_kept
    | with_reducible apply State.putBase_kept
    | with_reducible apply State.loadMap_kept
    | with_reducible apply State.wr_kept
    | with_reducible apply kept_bits
    | simp only [kept_mk_eq]
    | split

end Sys2Proof.Machine
end

