-- ==== Sys2Proof/Laws/PowerKept.lean ====
section
/-! SUPPORT. What the operations of Machine/Power.lean keep. -/
namespace Sys2Proof.Machine
open Sys2Proof

theorem State.restart_kept {s₀ s : State} (h : Kept s₀ s) {src : Nat} (hs : src ≠ 0) : Kept s₀ (s.restart src) := by
  have hb : (src != 0) = true := by simpa using hs
  refine ⟨h.queue, fun a => ?_, fun _ _ => rfl, fun _ => ⟨rfl, rfl, rfl, rfl⟩⟩
  show (s.latch && src != 0) = true
  rw [hb, h.latched a]; rfl

theorem State.railLost_kept {s₀ s : State} (h : Kept s₀ s) {i : Nat} (hi : i ≠ 6) : Kept s₀ (s.railLost i) := by
  unfold State.railLost
  rw [if_neg hi]
  repeat' first
    | with_reducible exact h
    | with_reducible assumption
    | with_reducible intro _
    | with_reducible apply kept_ite
    | with_reducible apply kept_each
    | with_reducible apply State.report_kept
    | with_reducible apply State.ptpMoved_kept
    | with_reducible apply State.wr_kept
    | with_reducible apply State.linkOff_kept
    | with_reducible apply kept_bits
    | simp only [kept_mk_eq]

theorem State.railsBack_kept {s₀ s : State} (h : Kept s₀ s)  :
    Kept s₀ (State.railsBack s) := by
  unfold State.railsBack
  repeat' first
    | with_reducible exact h
    | with_reducible assumption
    | with_reducible intro _
    | with_reducible apply kept_ite
    | with_reducible refine State.restart_kept ?_ (by decide)
    | with_reducible apply State.lanesUp_kept
    | with_reducible apply kept_bits
    | simp only [kept_mk_eq]
    | split

theorem State.bootStage0_kept {s₀ s : State} (h : Kept s₀ s) (b : BootIn) :
    Kept s₀ (State.bootStage0 s b) := by
  unfold State.bootStage0
  repeat' first
    | with_reducible exact h
    | with_reducible assumption
    | with_reducible intro _
    | with_reducible apply kept_ite
    | with_reducible apply kept_each
    | with_reducible apply State.wr_kept
    | with_reducible apply State.setTb_kept
    | with_reducible apply kept_bits
    | simp only [kept_mk_eq]
    | split

theorem State.bootStage1_kept {s₀ s : State} (h : Kept s₀ s)  :
    Kept s₀ (State.bootStage1 s) := by
  unfold State.bootStage1
  repeat' first
    | with_reducible exact h
    | with_reducible assumption
    | with_reducible intro _
    | with_reducible apply kept_ite
    | with_reducible apply kept_each
    | with_reducible apply State.setTb_kept
    | with_reducible apply kept_bits
    | simp only [kept_mk_eq]
    | split

theorem State.bootSlice_kept {s₀ s : State} (h : Kept s₀ s) (n : Nat) :
    Kept s₀ (State.bootSlice s n) := by
  unfold State.bootSlice
  repeat' first
    | with_reducible exact h
    | with_reducible assumption
    | with_reducible intro _
    | with_reducible apply kept_ite
    | with_reducible apply State.modGr_kept
    | with_reducible apply State.modCh_kept
    | with_reducible apply State.retire_kept
    | with_reducible apply kept_bits
    | simp only [kept_mk_eq]
    | split

theorem State.bootStage2_kept {s₀ s : State} (h : Kept s₀ s) (b : BootIn) :
    Kept s₀ (State.bootStage2 s b) := by
  unfold State.bootStage2
  repeat' first
    | with_reducible exact h
    | with_reducible assumption
    | with_reducible intro _
    | with_reducible apply kept_ite
    | with_reducible apply kept_each
    | with_reducible apply State.setFence_kept
    | with_reducible apply State.report_kept
    | with_reducible apply State.bootSlice_kept
    | with_reducible apply kept_bits
    | with_reducible apply KeptBits.setLatch
    | simp only [kept_mk_eq]
    | split

theorem State.loadCal_kept {s₀ s : State} (h : Kept s₀ s)  :
    Kept s₀ (State.loadCal s) := by
  unfold State.loadCal
  repeat' first
    | with_reducible exact h
    | with_reducible assumption
    | with_reducible intro _
    | with_reducible apply kept_ite
    | with_reducible apply State.wr_kept
    | with_reducible apply State.report_kept
    | with_reducible apply kept_bits
    | simp only [kept_mk_eq]
    | split

theorem State.loadHalf_kept {s₀ s : State} (h : Kept s₀ s)  :
    Kept s₀ (State.loadHalf s) := by
  unfold State.loadHalf
  repeat' first
    | with_reducible exact h
    | with_reducible assumption
    | with_reducible intro _
    | with_reducible apply kept_ite
    | with_reducible apply State.report_kept
    | with_reducible apply kept_bits
    | simp only [kept_mk_eq]
    | split

theorem State.loadRsv_kept {s₀ s : State} (h : Kept s₀ s)  :
    Kept s₀ (State.loadRsv s) := by
  unfold State.loadRsv
  repeat' first
    | with_reducible exact h
    | with_reducible assumption
    | with_reducible intro _
    | with_reducible apply kept_ite
    | with_reducible apply kept_each
    | with_reducible apply State.wr_kept
    | with_reducible apply State.pageWrite_kept
    | with_reducible apply kept_bits
    | simp only [kept_mk_eq]
    | split

theorem State.startTime_kept {s₀ s : State} (h : Kept s₀ s)  :
    Kept s₀ (State.startTime s) := by
  unfold State.startTime
  repeat' first
    | with_reducible exact h
    | with_reducible assumption
    | with_reducible intro _
    | with_reducible apply kept_ite
    | with_reducible apply kept_bits
    | simp only [kept_mk_eq]
    | split

theorem State.loadLog_kept {s₀ s : State} (h : Kept s₀ s)  :
    Kept s₀ (State.loadLog s) := by
  unfold State.loadLog
  repeat' first
    | with_reducible exact h
    | with_reducible assumption
    | with_reducible intro _
    | with_reducible apply kept_ite
    | with_reducible apply State.wr_kept
    | with_reducible apply State.faultLog_kept
    | with_reducible apply kept_bits
    | simp only [kept_mk_eq]
    | split

theorem State.bootStage3_kept {s₀ s : State} (h : Kept s₀ s)  :
    Kept s₀ (State.bootStage3 s) := by
  unfold State.bootStage3
  repeat' first
    | with_reducible exact h
    | with_reducible assumption
    | with_reducible intro _
    | with_reducible apply kept_ite
    | with_reducible apply kept_each
    | with_reducible apply State.startTime_kept
    | with_reducible apply State.loadCal_kept
    | with_reducible apply State.loadHalf_kept
    | with_reducible apply State.loadMap_kept
    | with_reducible apply State.setWave_kept
    | with_reducible apply State.loadLog_kept
    | with_reducible apply State.loadRsv_kept
    | with_reducible apply kept_bits
    | simp only [kept_mk_eq]
    | split

theorem State.startEngines_kept {s₀ s : State} (h : Kept s₀ s)  :
    Kept s₀ (State.startEngines s) := by
  unfold State.startEngines
  repeat' first
    | with_reducible exact h
    | with_reducible assumption
    | with_reducible intro _
    | with_reducible apply kept_ite
    | with_reducible apply kept_each
    | with_reducible apply State.modGr_kept
    | with_reducible apply kept_bits
    | simp only [kept_mk_eq]
    | split

theorem State.quiet_kept {s₀ s : State} (h : Kept s₀ s)  :
    Kept s₀ (State.quiet s) := by
  unfold State.quiet
  repeat' first
    | with_reducible exact h
    | with_reducible assumption
    | with_reducible intro _
    | with_reducible apply kept_ite
    | with_reducible apply kept_each
    | with_reducible apply State.wr_kept
    | with_reducible apply State.streamStop_kept
    | with_reducible apply kept_bits
    | simp only [kept_mk_eq]
    | split

theorem State.bootStage4_kept {s₀ s : State} (h : Kept s₀ s)  :
    Kept s₀ (State.bootStage4 s) := by
  unfold State.bootStage4
  repeat' first
    | with_reducible exact h
    | with_reducible assumption
    | with_reducible intro _
    | with_reducible apply kept_ite
    | with_reducible apply kept_each
    | with_reducible apply State.takeBase_kept
    | with_reducible apply State.putBase_kept
    | with_reducible apply State.spPower_kept
    | with_reducible apply State.quiet_kept
    | with_reducible apply State.startEngines_kept
    | with_reducible apply State.staticAddr_kept
    | with_reducible apply State.setTb_kept
    | with_reducible apply State.nvmPut_kept
    | with_reducible apply State.droneFrom_kept
    | with_reducible apply State.wr_kept
    | with_reducible apply State.runState_kept
    | with_reducible apply State.stopLogged_kept
    | with_reducible apply State.safeAtOnce_kept
    | with_reducible apply State.safeIsolated_kept
    | with_reducible apply kept_bits
    | with_reducible apply KeptBits.followLatch
    | simp only [kept_mk_eq]
    | split

theorem State.sleepReq_kept {s₀ s : State} (h : Kept s₀ s) (a : Ans) :
    Kept s₀ (State.sleepReq s a).1 := by
  unfold State.sleepReq
  repeat' first
    | with_reducible exact h
    | with_reducible assumption
    | with_reducible intro _
    | with_reducible apply kept_ite
    | with_reducible apply kept_ite_fst
    | with_reducible refine kept_of_fst (by assumption) ?_
    | with_reducible apply kept_each
    | with_reducible apply State.wr_kept
    | with_reducible apply State.calEnd_kept
    | with_reducible apply State.push_kept
    | with_reducible apply kept_bits
    | simp only [kept_mk_eq]
    | split

theorem State.sleepRamped_kept {s₀ s : State} (h : Kept s₀ s)  :
    Kept s₀ (State.sleepRamped s) := by
  unfold State.sleepRamped
  repeat' first
    | with_reducible exact h
    | with_reducible assumption
    | with_reducible intro _
    | with_reducible apply kept_ite
    | with_reducible apply kept_each
    | with_reducible apply State.push_kept
    | with_reducible apply State.modGr_kept
    | with_reducible apply State.filtStopAt_kept
    | with_reducible apply kept_bits
    | simp only [kept_mk_eq]
    | split

theorem State.sleepQuiet_kept {s₀ s : State} (h : Kept s₀ s)  :
    Kept s₀ (State.sleepQuiet s) := by
  unfold State.sleepQuiet
  repeat' first
    | with_reducible exact h
    | with_reducible assumption
    | with_reducible intro _
    | with_reducible apply kept_ite
    | with_reducible apply kept_each
    | with_reducible apply State.closeBlock_kept
    | with_reducible apply State.loseBlocks_kept
    | with_reducible apply State.commitStart_kept
    | with_reducible apply kept_bits
    | simp only [kept_mk_eq]
    | split

theorem State.sleepCommitted_kept {s₀ s : State} (h : Kept s₀ s)  :
    Kept s₀ (State.sleepCommitted s) := by
  unfold State.sleepCommitted
  repeat' first
    | with_reducible exact h
    | with_reducible assumption
    | with_reducible intro _
    | with_reducible apply kept_ite
    | with_reducible apply kept_ite_fst
    | with_reducible refine kept_of_fst (by assumption) ?_
    | with_reducible apply State.inc_kept
    | with_reducible apply State.modSe_kept
    | with_reducible apply State.answerRaw_kept
    | with_reducible apply State.closeAll_kept
    | with_reducible apply kept_bits
    | simp only [kept_mk_eq]
    | split

theorem State.sleepNow_kept {s₀ s : State} (h : Kept s₀ s)  :
    Kept s₀ (State.sleepNow s) := by
  unfold State.sleepNow
  repeat' first
    | with_reducible exact h
    | with_reducible assumption
    | with_reducible intro _
    | with_reducible apply kept_ite
    | with_reducible apply kept_ite_fst
    | with_reducible refine kept_of_fst (by assumption) ?_
    | with_reducible apply kept_each
    | with_reducible apply State.linkOff_kept
    | with_reducible apply State.servoTo_kept
    | with_reducible apply State.monFence_kept
    | with_reducible apply State.modGr_kept
    | with_reducible apply State.wr_kept
    | with_reducible apply State.spPower_kept
    | with_reducible apply State.wakeBy_kept
    | with_reducible apply State.inc_kept
    | with_reducible apply kept_bits
    | simp only [kept_mk_eq]
    | split

theorem State.woken_kept {s₀ s : State} (h : Kept s₀ s)  :
    Kept s₀ (State.woken s) := by
  unfold State.woken
  repeat' first
    | with_reducible exact h
    | with_reducible assumption
    | with_reducible intro _
    | with_reducible apply kept_ite
    | with_reducible apply kept_ite_fst
    | with_reducible refine kept_of_fst (by assumption) ?_
    | with_reducible apply kept_each
    | with_reducible apply State.wr_kept
    | with_reducible apply State.telemetry_kept
    | with_reducible apply State.droneFrom_kept
    | with_reducible apply State.spPower_kept
    | with_reducible apply State.setTb_kept
    | with_reducible apply State.runState_kept
    | with_reducible apply State.modAper_kept
    | with_reducible apply State.lanesUp_kept
    | with_reducible apply State.startEngines_kept
    | with_reducible apply kept_bits
    | simp only [kept_mk_eq]
    | split

theorem State.groupPwr_kept {s₀ s : State} (h : Kept s₀ s) (g : Nat) (on : Bool) (a : Ans) :
    Kept s₀ (State.groupPwr s g on a).1 := by
  unfold State.groupPwr
  repeat' first
    | with_reducible exact h
    | with_reducible assumption
    | with_reducible intro _
    | with_reducible apply kept_ite
    | with_reducible apply kept_ite_fst
    | with_reducible refine kept_of_fst (by assumption) ?_
    | with_reducible apply State.groupOn_kept
    | with_reducible apply State.groupOff_kept
    | with_reducible apply kept_bits
    | simp only [kept_mk_eq]
    | split

theorem State.pllLock_kept {s₀ s : State} (h : Kept s₀ s) (g : Nat) :
    Kept s₀ (State.pllLock s g) := by
  unfold State.pllLock
  repeat' first
    | with_reducible exact h
    | with_reducible assumption
    | with_reducible intro _
    | with_reducible apply kept_ite
    | with_reducible apply State.setTb_kept
    | with_reducible apply State.modGr_kept
    | with_reducible apply State.answer_kept
    | with_reducible apply kept_bits
    | simp only [kept_mk_eq]
    | split

theorem State.vddcUp_kept {s₀ s : State} (h : Kept s₀ s)  :
    Kept s₀ (State.vddcUp s) := by
  unfold State.vddcUp
  repeat' first
    | with_reducible exact h
    | with_reducible assumption
    | with_reducible intro _
    | with_reducible apply kept_ite
    | with_reducible apply kept_each
    | with_reducible apply State.modGr_kept
    | with_reducible apply State.wr_kept
    | with_reducible apply kept_bits
    | simp only [kept_mk_eq]
    | split

theorem State.vddcDown_kept {s₀ s : State} (h : Kept s₀ s)  :
    Kept s₀ (State.vddcDown s) := by
  unfold State.vddcDown
  repeat' first
    | with_reducible exact h
    | with_reducible assumption
    | with_reducible intro _
    | with_reducible apply kept_ite
    | with_reducible apply kept_each
    | with_reducible apply State.modGr_kept
    | with_reducible apply State.wr_kept
    | with_reducible apply kept_bits
    | simp only [kept_mk_eq]
    | split

theorem State.vddcFall_kept {s₀ s : State} (h : Kept s₀ s) (meas : Nat) :
    Kept s₀ (State.vddcFall s meas) := by
  unfold State.vddcFall
  repeat' first
    | with_reducible exact h
    | with_reducible assumption
    | with_reducible intro _
    | with_reducible apply kept_ite
    | with_reducible apply State.report_kept
    | with_reducible apply kept_bits
    | simp only [kept_mk_eq]
    | split

theorem State.account_kept {s₀ s : State} (h : Kept s₀ s) (avpp avnn : Int) (means : List (Nat × Int × Int)) (total : Nat) :
    Kept s₀ (State.account s avpp avnn means total) := by
  unfold State.account
  repeat' first
    | with_reducible exact h
    | with_reducible assumption
    | with_reducible intro _
    | with_reducible apply kept_ite
    | with_reducible apply kept_foldl
    | with_reducible apply State.wr_kept
    | with_reducible apply State.report_kept
    | with_reducible apply kept_bits
    | simp only [kept_mk_eq]
    | split

end Sys2Proof.Machine
end

