-- ==== Sys2Proof/Laws/HostKept.lean ====
section
/-! SUPPORT. What the operations of Machine/Host.lean keep. -/
namespace Sys2Proof.Machine
open Sys2Proof

theorem State.outCmd_kept {s₀ s : State} (h : Kept s₀ s) (c k : Nat) (a : Ans) :
    Kept s₀ (State.outCmd s c k a).1 := by
  unfold State.outCmd
  repeat' first
    | with_reducible exact h
    | with_reducible assumption
    | with_reducible intro _
    | with_reducible apply kept_ite
    | with_reducible apply kept_ite_fst
    | with_reducible refine kept_of_fst (by assumption) ?_
    | with_reducible apply kept_ite_snd
    | with_reducible refine kept_of_snd (by assumption) ?_
    | with_reducible apply State.armReview_kept
    | with_reducible apply State.push_kept
    | with_reducible apply State.outAt_kept
    | with_reducible apply kept_bits
    | simp only [kept_mk_eq]
    | split

theorem State.declWrite_kept {s₀ s : State} (h : Kept s₀ s) (c n : Nat) (a : Ans) :
    Kept s₀ (State.declWrite s c n a).1 := by
  unfold State.declWrite
  repeat' first
    | with_reducible exact h
    | with_reducible assumption
    | with_reducible intro _
    | with_reducible apply kept_ite
    | with_reducible apply kept_ite_fst
    | with_reducible refine kept_of_fst (by assumption) ?_
    | with_reducible apply State.declReview_kept
    | with_reducible apply State.refuseBudget_kept
    | with_reducible apply State.pushHost_kept
    | with_reducible apply kept_bits
    | simp only [kept_mk_eq]
    | split

theorem State.rangeReq_kept {s₀ s : State} (h : Kept s₀ s) (c : Nat) (vr ir : Option Nat) (a : Ans) :
    Kept s₀ (State.rangeReq s c vr ir a).1 := by
  unfold State.rangeReq
  repeat' first
    | with_reducible exact h
    | with_reducible assumption
    | with_reducible intro _
    | with_reducible apply kept_ite
    | with_reducible apply kept_ite_fst
    | with_reducible refine kept_of_fst (by assumption) ?_
    | with_reducible apply State.push_kept
    | with_reducible apply State.rangeHeld_kept
    | with_reducible apply kept_bits
    | simp only [kept_mk_eq]
    | split

theorem State.bankWrite_kept {s₀ s : State} (h : Kept s₀ s) (o : Obj) (c : Nat) (v : Int) (a : Ans) :
    Kept s₀ (State.bankWrite s o c v a).1 := by
  unfold State.bankWrite
  repeat' first
    | with_reducible exact h
    | with_reducible assumption
    | with_reducible intro _
    | with_reducible apply kept_ite
    | with_reducible apply kept_ite_fst
    | with_reducible refine kept_of_fst (by assumption) ?_
    | with_reducible apply State.modCh_kept
    | with_reducible apply State.pushHost_kept
    | with_reducible apply kept_bits
    | simp only [kept_mk_eq]
    | split

theorem State.lawHold_kept {s₀ s : State} (h : Kept s₀ s) (c : Nat) (on : Bool) (a : Ans) :
    Kept s₀ (State.lawHold s c on a).1 := by
  unfold State.lawHold
  repeat' first
    | with_reducible exact h
    | with_reducible assumption
    | with_reducible intro _
    | with_reducible apply kept_ite
    | with_reducible apply kept_ite_fst
    | with_reducible refine kept_of_fst (by assumption) ?_
    | with_reducible apply kept_each
    | with_reducible apply kept_getD
    | with_reducible apply State.modCh_kept
    | with_reducible apply State.wr_kept
    | with_reducible apply State.pushHost_kept
    | with_reducible apply State.push_kept
    | with_reducible apply kept_bits
    | simp only [kept_mk_eq]
    | split

theorem State.boostWrite_kept {s₀ s : State} (h : Kept s₀ s) (c : Nat) (v : Int) :
    Kept s₀ (State.boostWrite s c v).1 := by
  unfold State.boostWrite
  repeat' first
    | with_reducible exact h
    | with_reducible assumption
    | with_reducible intro _
    | with_reducible apply kept_ite
    | with_reducible apply kept_ite_fst
    | with_reducible refine kept_of_fst (by assumption) ?_
    | with_reducible apply State.wr_kept
    | with_reducible apply State.refuseBudget_kept
    | with_reducible apply State.boostPut_kept
    | with_reducible apply kept_bits
    | simp only [kept_mk_eq]
    | split

theorem State.chtWrite_kept {s₀ s : State} (h : Kept s₀ s) (c k : Nat) (a : Ans) :
    Kept s₀ (State.chtWrite s c k a).1 := by
  unfold State.chtWrite
  repeat' first
    | with_reducible exact h
    | with_reducible assumption
    | with_reducible intro _
    | with_reducible apply kept_ite
    | with_reducible apply kept_ite_fst
    | with_reducible refine kept_of_fst (by assumption) ?_
    | with_reducible apply State.push_kept
    | with_reducible apply kept_bits
    | simp only [kept_mk_eq]
    | split

theorem State.epWrite_kept {s₀ s : State} (h : Kept s₀ s) (c v : Nat) (a : Ans) :
    Kept s₀ (State.epWrite s c v a).1 := by
  unfold State.epWrite
  repeat' first
    | with_reducible exact h
    | with_reducible assumption
    | with_reducible intro _
    | with_reducible apply kept_ite
    | with_reducible apply kept_ite_fst
    | with_reducible refine kept_of_fst (by assumption) ?_
    | with_reducible apply State.pushHost_kept
    | with_reducible apply kept_bits
    | simp only [kept_mk_eq]
    | split

theorem State.ctlStartReq_kept {s₀ s : State} (h : Kept s₀ s) (g : Nat) (a : Ans) :
    Kept s₀ (State.ctlStartReq s g a).1 := by
  unfold State.ctlStartReq
  repeat' first
    | with_reducible exact h
    | with_reducible assumption
    | with_reducible intro _
    | with_reducible apply kept_ite
    | with_reducible apply kept_ite_fst
    | with_reducible refine kept_of_fst (by assumption) ?_
    | with_reducible apply State.wr_kept
    | with_reducible apply State.modGr_kept
    | with_reducible apply kept_bits
    | simp only [kept_mk_eq]
    | split

theorem State.ctlStopReq_kept {s₀ s : State} (h : Kept s₀ s) (g : Nat) (a : Ans) :
    Kept s₀ (State.ctlStopReq s g a).1 := by
  unfold State.ctlStopReq
  repeat' first
    | with_reducible exact h
    | with_reducible assumption
    | with_reducible intro _
    | with_reducible apply kept_ite
    | with_reducible apply kept_ite_fst
    | with_reducible refine kept_of_fst (by assumption) ?_
    | with_reducible apply State.wr_kept
    | with_reducible apply State.pushHost_kept
    | with_reducible apply kept_bits
    | simp only [kept_mk_eq]
    | split

theorem State.filtStartReq_kept {s₀ s : State} (h : Kept s₀ s) (g : Nat) (a : Ans) :
    Kept s₀ (State.filtStartReq s g a).1 := by
  unfold State.filtStartReq
  repeat' first
    | with_reducible exact h
    | with_reducible assumption
    | with_reducible intro _
    | with_reducible apply kept_ite
    | with_reducible apply kept_ite_fst
    | with_reducible refine kept_of_fst (by assumption) ?_
    | with_reducible apply kept_getD
    | with_reducible apply State.wr_kept
    | with_reducible apply State.modGr_kept
    | with_reducible apply kept_bits
    | simp only [kept_mk_eq]
    | split

theorem State.filtStopReq_kept {s₀ s : State} (h : Kept s₀ s) (g : Nat) (a : Ans) :
    Kept s₀ (State.filtStopReq s g a).1 := by
  unfold State.filtStopReq
  repeat' first
    | with_reducible exact h
    | with_reducible assumption
    | with_reducible intro _
    | with_reducible apply kept_ite
    | with_reducible apply kept_ite_fst
    | with_reducible refine kept_of_fst (by assumption) ?_
    | with_reducible apply State.wr_kept
    | with_reducible apply State.pushHost_kept
    | with_reducible apply kept_bits
    | simp only [kept_mk_eq]
    | split

theorem State.calWrite_kept {s₀ s : State} (h : Kept s₀ s) (g k n : Nat) (secure : Bool) (a : Ans) :
    Kept s₀ (State.calWrite s g k n secure a).1 := by
  unfold State.calWrite
  repeat' first
    | with_reducible exact h
    | with_reducible assumption
    | with_reducible intro _
    | with_reducible apply kept_ite
    | with_reducible apply kept_ite_fst
    | with_reducible refine kept_of_fst (by assumption) ?_
    | with_reducible apply State.calStartReq_kept
    | with_reducible apply State.calEnd_kept
    | with_reducible apply kept_bits
    | simp only [kept_mk_eq]
    | split

theorem State.releaseReq_kept {s₀ s : State} (h : Kept s₀ s) (src : Nat) (a : Ans) :
    Kept s₀ (State.releaseReq s src a).1 := by
  unfold State.releaseReq
  repeat' first
    | with_reducible exact h
    | with_reducible assumption
    | with_reducible intro _
    | with_reducible apply kept_ite
    | with_reducible apply kept_ite_fst
    | with_reducible refine kept_of_fst (by assumption) ?_
    | with_reducible apply State.askRelease_kept
    | with_reducible apply kept_bits
    | simp only [kept_mk_eq]
    | split

theorem State.monRestartReq_kept {s₀ s : State} (h : Kept s₀ s) (g : Nat) (a : Ans) :
    Kept s₀ (State.monRestartReq s g a).1 := by
  unfold State.monRestartReq
  repeat' first
    | with_reducible exact h
    | with_reducible assumption
    | with_reducible intro _
    | with_reducible apply kept_ite
    | with_reducible apply kept_ite_fst
    | with_reducible refine kept_of_fst (by assumption) ?_
    | with_reducible apply State.askRelease_kept
    | with_reducible apply kept_bits
    | simp only [kept_mk_eq]
    | split

theorem State.mtxRestartReq_kept {s₀ s : State} (h : Kept s₀ s) (l : Nat) (a : Ans) :
    Kept s₀ (State.mtxRestartReq s l a).1 := by
  unfold State.mtxRestartReq
  repeat' first
    | with_reducible exact h
    | with_reducible assumption
    | with_reducible intro _
    | with_reducible apply kept_ite
    | with_reducible apply kept_ite_fst
    | with_reducible refine kept_of_fst (by assumption) ?_
    | with_reducible refine State.restart_kept ?_ (by decide)
    | with_reducible apply State.addTxn_kept
    | with_reducible apply kept_bits
    | simp only [kept_mk_eq]
    | split

theorem State.commitReq_kept {s₀ s : State} (h : Kept s₀ s) (a : Ans) :
    Kept s₀ (State.commitReq s a).1 := by
  unfold State.commitReq
  repeat' first
    | with_reducible exact h
    | with_reducible assumption
    | with_reducible intro _
    | with_reducible apply kept_ite
    | with_reducible apply kept_ite_fst
    | with_reducible refine kept_of_fst (by assumption) ?_
    | with_reducible apply State.commitStart_kept
    | with_reducible apply kept_bits
    | simp only [kept_mk_eq]
    | split

theorem State.fire_kept {s₀ s : State} (h : Kept s₀ s) (k n : Nat) :
    Kept s₀ (State.fire s k n).1 := by
  unfold State.fire
  repeat' first
    | with_reducible exact h
    | with_reducible assumption
    | with_reducible intro _
    | with_reducible apply kept_ite
    | with_reducible apply kept_ite_fst
    | with_reducible refine kept_of_fst (by assumption) ?_
    | with_reducible apply State.assertEv_kept
    | with_reducible apply kept_bits
    | simp only [kept_mk_eq]
    | split

theorem State.violClear_kept {s₀ s : State} (h : Kept s₀ s)  :
    Kept s₀ (State.violClear s) := by
  unfold State.violClear
  repeat' first
    | with_reducible exact h
    | with_reducible assumption
    | with_reducible intro _
    | with_reducible apply kept_ite
    | with_reducible apply kept_each
    | with_reducible apply State.wrV_kept
    | with_reducible apply State.wr_kept
    | with_reducible apply kept_bits
    | simp only [kept_mk_eq]
    | split

theorem State.rtcWrite_kept {s₀ s : State} (h : Kept s₀ s) (t : Nat) :
    Kept s₀ (State.rtcWrite s t).1 := by
  unfold State.rtcWrite
  repeat' first
    | with_reducible exact h
    | with_reducible assumption
    | with_reducible intro _
    | with_reducible apply kept_ite
    | with_reducible apply kept_ite_fst
    | with_reducible refine kept_of_fst (by assumption) ?_
    | with_reducible apply State.stepTime_kept
    | with_reducible apply kept_bits
    | simp only [kept_mk_eq]
    | split

theorem State.modeReq_kept {s₀ s : State} (h : Kept s₀ s) (m n : Nat) (secure : Bool) (a : Ans) :
    Kept s₀ (State.modeReq s m n secure a).1 := by
  unfold State.modeReq
  repeat' first
    | with_reducible exact h
    | with_reducible assumption
    | with_reducible intro _
    | with_reducible apply kept_ite
    | with_reducible apply kept_ite_fst
    | with_reducible refine kept_of_fst (by assumption) ?_
    | with_reducible apply State.startSwitch_kept
    | with_reducible apply kept_bits
    | simp only [kept_mk_eq]
    | split

theorem State.commitWrite_kept {s₀ s : State} (h : Kept s₀ s) (n : Nat) (a : Ans) :
    Kept s₀ (State.commitWrite s n a).1 := by
  unfold State.commitWrite
  repeat' first
    | with_reducible exact h
    | with_reducible assumption
    | with_reducible intro _
    | with_reducible apply kept_ite
    | with_reducible apply kept_ite_fst
    | with_reducible refine kept_of_fst (by assumption) ?_
    | with_reducible apply kept_ite_snd
    | with_reducible refine kept_of_snd (by assumption) ?_
    | with_reducible apply State.commitImage_kept
    | with_reducible apply State.modSe_kept
    | with_reducible apply kept_bits
    | simp only [kept_mk_eq]
    | split

theorem State.keyWrite_kept {s₀ s : State} (h : Kept s₀ s) (k : Nat) (b : List Byte) :
    Kept s₀ (State.keyWrite s k b).1 := by
  unfold State.keyWrite
  repeat' first
    | with_reducible exact h
    | with_reducible assumption
    | with_reducible intro _
    | with_reducible apply kept_ite
    | with_reducible apply kept_ite_fst
    | with_reducible refine kept_of_fst (by assumption) ?_
    | with_reducible apply State.nvmPut_kept
    | with_reducible apply kept_bits
    | simp only [kept_mk_eq]
    | split

theorem State.goWrite_kept {s₀ s : State} (h : Kept s₀ s) (sel : Nat) (a : Ans) :
    Kept s₀ (State.goWrite s sel a).1 := by
  unfold State.goWrite
  repeat' first
    | with_reducible exact h
    | with_reducible assumption
    | with_reducible intro _
    | with_reducible apply kept_ite
    | with_reducible apply kept_ite_fst
    | with_reducible refine kept_of_fst (by assumption) ?_
    | with_reducible apply State.sp1Go_kept
    | with_reducible apply kept_bits
    | simp only [kept_mk_eq]
    | split

theorem State.effectOf_kept {s₀ s : State} (h : Kept s₀ s) (o : Obj) (i e n : Nat) (secure : Bool) (v : Val) (a : Ans) :
    Kept s₀ (State.effectOf s o i e n secure v a).1 := by
  unfold State.effectOf
  repeat' first
    | with_reducible exact h
    | with_reducible assumption
    | with_reducible intro _
    | with_reducible apply kept_ite
    | with_reducible apply kept_ite_fst
    | with_reducible refine kept_of_fst (by assumption) ?_
    | with_reducible apply kept_ite_snd
    | with_reducible refine kept_of_snd (by assumption) ?_
    | with_reducible apply kept_getD
    | with_reducible apply State.putCfg_kept
    | with_reducible apply State.outCmd_kept
    | with_reducible apply State.declWrite_kept
    | with_reducible apply State.rangeReq_kept
    | with_reducible apply State.lawHold_kept
    | with_reducible apply State.boostWrite_kept
    | with_reducible apply State.pushHost_kept
    | with_reducible apply State.rebase_kept
    | with_reducible apply State.chtWrite_kept
    | with_reducible apply State.epWrite_kept
    | with_reducible apply State.modCh_kept
    | with_reducible apply State.ctlStartReq_kept
    | with_reducible apply State.ctlStopReq_kept
    | with_reducible apply State.filtStartReq_kept
    | with_reducible apply State.filtStopReq_kept
    | with_reducible apply State.groupPwr_kept
    | with_reducible apply State.calWrite_kept
    | with_reducible apply State.handoverReq_kept
    | with_reducible apply State.monUrgentReq_kept
    | with_reducible apply State.monRestartReq_kept
    | with_reducible apply State.mtrgoRise_kept
    | with_reducible apply State.testStart_kept
    | with_reducible apply State.fire_kept
    | with_reducible apply State.mtxRestartReq_kept
    | with_reducible apply State.ledgerCmd_kept
    | with_reducible apply State.commitReq_kept
    | with_reducible apply State.askRelease_kept
    | with_reducible apply State.safeReq_kept
    | with_reducible apply State.faultLogClear_kept
    | with_reducible apply State.streamStart_kept
    | with_reducible apply State.streamStop_kept
    | with_reducible apply State.rtcWrite_kept
    | with_reducible apply State.modSp_kept
    | with_reducible apply State.releaseReq_kept
    | with_reducible apply State.goWrite_kept
    | with_reducible apply State.mailboxPut_kept
    | with_reducible apply State.modeReq_kept
    | with_reducible apply State.commitWrite_kept
    | with_reducible apply State.loadBase_kept
    | with_reducible apply State.violClear_kept
    | with_reducible apply State.keyWrite_kept
    | with_reducible apply State.sleepReq_kept
    | with_reducible apply State.bankWrite_kept
    | with_reducible apply kept_bits
    | simp only [kept_mk_eq]
    | split

theorem State.writeEffect_kept {s₀ s : State} (h : Kept s₀ s) (o : Obj) (i e n : Nat) (secure : Bool) (v : Val) (a : Ans) :
    Kept s₀ (State.writeEffect s o i e n secure v a).1 := by
  unfold State.writeEffect
  repeat' first
    | with_reducible exact h
    | with_reducible assumption
    | with_reducible intro _
    | with_reducible apply kept_ite
    | with_reducible apply kept_ite_fst
    | with_reducible refine kept_of_fst (by assumption) ?_
    | with_reducible apply kept_ite_snd
    | with_reducible refine kept_of_snd (by assumption) ?_
    | with_reducible apply State.effectOf_kept
    | with_reducible apply State.configOut_kept
    | with_reducible apply kept_bits
    | simp only [kept_mk_eq]
    | split

theorem State.afterRead_kept {s₀ s : State} (h : Kept s₀ s) (n : Nat) (o : Obj) (i e : Nat) :
    Kept s₀ (State.afterRead s n o i e) := by
  unfold State.afterRead
  repeat' first
    | with_reducible exact h
    | with_reducible assumption
    | with_reducible intro _
    | with_reducible apply kept_ite
    | with_reducible apply kept_ite_fst
    | with_reducible refine kept_of_fst (by assumption) ?_
    | with_reducible apply kept_each
    | with_reducible apply State.draw_kept
    | with_reducible apply State.accClear_kept
    | with_reducible apply kept_bits
    | simp only [kept_mk_eq]
    | split

end Sys2Proof.Machine
end

