-- ==== Sys2Proof/Laws/BlockKept.lean ====
section
/-! SUPPORT. What the operations of Machine/Block.lean keep. -/
namespace Sys2Proof.Machine
open Sys2Proof

theorem State.say_kept {s₀ s : State} (h : Kept s₀ s) (st : Status) :
    Kept s₀ (State.say s st).1 := by
  unfold State.say
  repeat' first
    | with_reducible exact h
    | with_reducible assumption
    | with_reducible intro _
    | with_reducible apply kept_ite
    | with_reducible apply kept_ite_fst
    | with_reducible refine kept_of_fst (by assumption) ?_
    | with_reducible apply kept_bits
    | simp only [kept_mk_eq]
    | split

theorem State.blockOpen_kept {s₀ s : State} (h : Kept s₀ s) (n : Nat) (secure : Bool) (idx sub : Nat) (w : Bool) (off cnt : Nat) (res : Bool) :
    Kept s₀ (State.blockOpen s n secure idx sub w off cnt res).1 := by
  unfold State.blockOpen
  repeat' first
    | with_reducible exact h
    | with_reducible assumption
    | with_reducible intro _
    | with_reducible apply kept_ite
    | with_reducible apply kept_ite_fst
    | with_reducible refine kept_of_fst (by assumption) ?_
    | with_reducible apply State.say_kept
    | with_reducible apply State.modSe_kept
    | with_reducible apply kept_bits
    | simp only [kept_mk_eq]
    | split

theorem State.mapWrite_kept {s₀ s : State} (h : Kept s₀ s) (k v : Nat) :
    Kept s₀ (State.mapWrite s k v).1 := by
  unfold State.mapWrite
  repeat' first
    | with_reducible exact h
    | with_reducible assumption
    | with_reducible intro _
    | with_reducible apply kept_ite
    | with_reducible apply kept_ite_fst
    | with_reducible refine kept_of_fst (by assumption) ?_
    | with_reducible apply State.wr_kept
    | with_reducible apply kept_bits
    | simp only [kept_mk_eq]
    | split

theorem State.elemOut_kept {s₀ s : State} (h : Kept s₀ s) (u : OwnUnit) (m : MirrorConfig) :
    Kept s₀ (State.elemOut s u m) := by
  unfold State.elemOut
  repeat' first
    | with_reducible exact h
    | with_reducible assumption
    | with_reducible intro _
    | with_reducible apply kept_ite
    | with_reducible apply kept_ite_fst
    | with_reducible refine kept_of_fst (by assumption) ?_
    | with_reducible apply State.tellConfig_kept
    | with_reducible apply kept_bits
    | simp only [kept_mk_eq]
    | split

theorem State.elemWrite_kept {s₀ s : State} (h : Kept s₀ s) (n : Nat) (secure : Bool) (idx sub k : Nat) (b : List Byte) :
    Kept s₀ (State.elemWrite s n secure idx sub k b).1 := by
  unfold State.elemWrite
  repeat' first
    | with_reducible exact h
    | with_reducible assumption
    | with_reducible intro _
    | with_reducible apply kept_ite
    | with_reducible apply KeptBits.putSweep
    | with_reducible apply kept_ite_fst
    | with_reducible refine kept_of_fst (by assumption) ?_
    | with_reducible apply kept_ite_snd
    | with_reducible refine kept_of_snd (by assumption) ?_
    | with_reducible apply State.elemOut_kept
    | with_reducible apply State.mapWrite_kept
    | with_reducible apply State.nvmPut_kept
    | with_reducible apply kept_bits
    | simp only [kept_mk_eq]
    | split

theorem segWrite_kept {s₀ : State} (n : Nat) (secure : Bool) (idx sub m : Nat) :
    ∀ {s : State} (k : Nat) (b : List Byte), Kept s₀ s → Kept s₀ (segWrite n secure idx sub m k b s).1 := by
  induction m with
  | zero => intro s k b h; exact h
  | succ m ih =>
    intro s k b h
    have he := State.elemWrite_kept h n secure idx sub k (b.take (elemSize idx))
    unfold segWrite
    split
    · rename_i t heq
      rw [heq] at he
      exact ih _ _ he
    · rename_i t st _ heq
      rw [heq] at he
      exact he

theorem State.blockEnd_kept {s₀ s : State} (h : Kept s₀ s) (n : Nat) :
    Kept s₀ (State.blockEnd s n) := by
  unfold State.blockEnd
  repeat' first
    | with_reducible exact h
    | with_reducible assumption
    | with_reducible intro _
    | with_reducible apply kept_ite
    | with_reducible apply State.modSe_kept
    | with_reducible apply State.transferEnd_kept
    | with_reducible apply kept_bits
    | simp only [kept_mk_eq]
    | split

theorem State.blockSeg_kept {s₀ s : State} (h : Kept s₀ s) (n : Nat) (secure : Bool) (off cnt : Nat) (data : List Byte) (res : Bool) :
    Kept s₀ (State.blockSeg s n secure off cnt data res).1 := by
  unfold State.blockSeg
  repeat' first
    | with_reducible exact h
    | with_reducible assumption
    | with_reducible intro _
    | with_reducible apply kept_ite
    | with_reducible apply kept_ite_fst
    | with_reducible refine kept_of_fst (by assumption) ?_
    | with_reducible apply State.say_kept
    | with_reducible apply State.violate_kept
    | with_reducible apply segWrite_kept
    | with_reducible apply State.modSe_kept
    | with_reducible apply State.blockEnd_kept
    | with_reducible apply kept_bits
    | simp only [kept_mk_eq]
    | split

theorem State.blockClose_kept {s₀ s : State} (h : Kept s₀ s) (n crc : Nat) :
    Kept s₀ (State.blockClose s n crc).1 := by
  unfold State.blockClose
  repeat' first
    | with_reducible exact h
    | with_reducible assumption
    | with_reducible intro _
    | with_reducible apply kept_ite
    | with_reducible apply kept_ite_fst
    | with_reducible refine kept_of_fst (by assumption) ?_
    | with_reducible apply State.say_kept
    | with_reducible apply State.blockEnd_kept
    | with_reducible apply kept_bits
    | simp only [kept_mk_eq]
    | split

theorem State.closeMarked_kept {s₀ s : State} (h : Kept s₀ s) (n : Nat) {plain : Now} (hp : Kept s₀ plain.1) :
    Kept s₀ (s.closeMarked n plain).1 := by
  unfold State.closeMarked
  repeat' first
    | with_reducible exact h
    | with_reducible exact hp
    | with_reducible apply kept_ite_fst
    | with_reducible apply State.say_kept
    | with_reducible apply State.violate_kept
    | split

theorem State.blockAbort_kept {s₀ s : State} (h : Kept s₀ s) (n : Nat) :
    Kept s₀ (State.blockAbort s n).1 := by
  unfold State.blockAbort
  repeat' first
    | with_reducible exact h
    | with_reducible assumption
    | with_reducible intro _
    | with_reducible apply kept_ite
    | with_reducible apply kept_ite_fst
    | with_reducible refine kept_of_fst (by assumption) ?_
    | with_reducible apply State.say_kept
    | with_reducible apply State.blockEnd_kept
    | with_reducible apply kept_bits
    | simp only [kept_mk_eq]
    | split

end Sys2Proof.Machine
end

