-- ==== Sys2Proof/Laws/RequestsKept.lean ====
section
/-! SUPPORT. What the operations of Machine/Requests.lean keep. -/
namespace Sys2Proof.Machine
open Sys2Proof

theorem State.doRead_kept {s₀ s : State} (h : Kept s₀ s) (n : Nat) (secure : Bool) (t : Target) :
    Kept s₀ (State.doRead s n secure t).1 := by
  unfold State.doRead
  repeat' first
    | with_reducible exact h
    | with_reducible assumption
    | with_reducible intro _
    | with_reducible apply kept_ite
    | with_reducible apply kept_ite_fst
    | with_reducible refine kept_of_fst (by assumption) ?_
    | with_reducible apply State.say_kept
    | with_reducible apply State.afterRead_kept
    | with_reducible apply State.inc_kept
    | with_reducible apply kept_bits
    | simp only [kept_mk_eq]
    | split

theorem State.writeObj_kept {s₀ s : State} (h : Kept s₀ s) (n : Nat) (secure : Bool) (o : Obj) (i e : Nat) (w : WireVal) (a : Ans) :
    Kept s₀ (State.writeObj s n secure o i e w a).1 := by
  unfold State.writeObj
  repeat' first
    | with_reducible exact h
    | with_reducible assumption
    | with_reducible intro _
    | with_reducible apply kept_ite
    | with_reducible apply kept_ite_fst
    | with_reducible refine kept_of_fst (by assumption) ?_
    | with_reducible apply State.writeEffect_kept
    | with_reducible apply kept_bits
    | simp only [kept_mk_eq]
    | split

theorem State.doWrite_kept {s₀ s : State} (h : Kept s₀ s) (n : Nat) (secure : Bool) (t : Target) (w : WireVal) (a : Ans) :
    Kept s₀ (State.doWrite s n secure t w a).1 := by
  unfold State.doWrite
  repeat' first
    | with_reducible exact h
    | with_reducible assumption
    | with_reducible intro _
    | with_reducible apply kept_ite
    | with_reducible apply kept_ite_fst
    | with_reducible refine kept_of_fst (by assumption) ?_
    | with_reducible apply State.writeObj_kept
    | with_reducible apply kept_bits
    | simp only [kept_mk_eq]
    | split

theorem State.closeReq_kept {s₀ s : State} (h : Kept s₀ s) (n : Nat) (a : Ans) :
    Kept s₀ (State.closeReq s n a).1 := by
  unfold State.closeReq
  repeat' first
    | with_reducible exact h
    | with_reducible assumption
    | with_reducible intro _
    | with_reducible apply kept_ite
    | with_reducible apply kept_ite_fst
    | with_reducible refine kept_of_fst (by assumption) ?_
    | with_reducible apply State.modSe_kept
    | with_reducible apply State.say_kept
    | with_reducible apply kept_bits
    | simp only [kept_mk_eq]
    | split

theorem State.runOp_kept {s₀ s : State} (h : Kept s₀ s) (n : Nat) (secure : Bool) (op : ReqOp) (a : Ans) :
    Kept s₀ (State.runOp s n secure op a).1 := by
  unfold State.runOp
  repeat' first
    | with_reducible exact h
    | with_reducible assumption
    | with_reducible intro _
    | with_reducible apply kept_ite
    | with_reducible apply kept_ite_fst
    | with_reducible refine kept_of_fst (by assumption) ?_
    | with_reducible apply kept_ite_snd
    | with_reducible refine kept_of_snd (by assumption) ?_
    | with_reducible apply State.doRead_kept
    | with_reducible apply State.doWrite_kept
    | with_reducible apply State.say_kept
    | with_reducible apply State.closeReq_kept
    | with_reducible apply State.blockOpen_kept
    | with_reducible apply State.blockSeg_kept
    | with_reducible apply State.blockClose_kept
    | with_reducible apply State.blockAbort_kept
    | with_reducible apply State.closeMarked_kept
    | with_reducible apply kept_bits
    | simp only [kept_mk_eq]
    | split

theorem State.enter_kept {s₀ s : State} (h : Kept s₀ s) (n : Nat) (q : Req) :
    Kept s₀ (State.enter s n q) := by
  unfold State.enter
  repeat' first
    | with_reducible exact h
    | with_reducible assumption
    | with_reducible intro _
    | with_reducible apply kept_ite
    | with_reducible apply State.modSe_kept
    | with_reducible apply State.inc_kept
    | with_reducible apply kept_bits
    | simp only [kept_mk_eq]
    | split

theorem State.runReq_kept {s₀ s : State} (h : Kept s₀ s) (n : Nat) (q : Req) :
    Kept s₀ (State.runReq s n q) := by
  unfold State.runReq
  repeat' first
    | with_reducible exact h
    | with_reducible assumption
    | with_reducible intro _
    | with_reducible apply kept_ite
    | with_reducible apply kept_ite_fst
    | with_reducible refine kept_of_fst (by assumption) ?_
    | with_reducible apply State.enter_kept
    | with_reducible apply State.runOp_kept
    | with_reducible apply State.answer_kept
    | with_reducible apply kept_bits
    | simp only [kept_mk_eq]
    | split

theorem State.kopTake_kept {s₀ s : State} (h : Kept s₀ s) (n : Nat) (q : Req) :
    Kept s₀ (State.kopTake s n q) := by
  unfold State.kopTake
  repeat' first
    | with_reducible exact h
    | with_reducible assumption
    | with_reducible intro _
    | with_reducible apply kept_ite
    | with_reducible apply kept_ite_fst
    | with_reducible refine kept_of_fst (by assumption) ?_
    | with_reducible apply State.modSe_kept
    | with_reducible apply State.emit_kept
    | with_reducible apply State.inc_kept
    | with_reducible apply State.runReq_kept
    | with_reducible apply kept_bits
    | simp only [kept_mk_eq]
    | split

theorem State.kopIn_kept {s₀ s : State} (h : Kept s₀ s) (h : Hdr) (op : ReqOp) :
    Kept s₀ (State.kopIn s h op) := by
  unfold State.kopIn
  repeat' first
    | with_reducible exact h
    | with_reducible assumption
    | with_reducible intro _
    | with_reducible apply kept_ite
    | with_reducible apply State.inc_kept
    | with_reducible apply State.kopTake_kept
    | with_reducible apply kept_bits
    | simp only [kept_mk_eq]
    | split

theorem State.runQueued_kept {s₀ s : State} (h : Kept s₀ s) (n : Nat) :
    Kept s₀ (State.runQueued s n) := by
  unfold State.runQueued
  repeat' first
    | with_reducible exact h
    | with_reducible assumption
    | with_reducible intro _
    | with_reducible apply kept_ite
    | with_reducible apply kept_ite_fst
    | with_reducible refine kept_of_fst (by assumption) ?_
    | with_reducible apply State.modSe_kept
    | with_reducible apply State.runReq_kept
    | with_reducible apply kept_bits
    | simp only [kept_mk_eq]
    | split

theorem State.runAll_kept {s₀ : State} (n k : Nat) : ∀ {s : State}, Kept s₀ s → Kept s₀ (s.runAll n k) := by
  induction k with
  | zero => intro s h; exact h
  | succ k ih => intro s h; exact ih (State.runQueued_kept h _)

theorem State.orphanOp_kept {s₀ s : State} (h : Kept s₀ s) (n : Nat) (secure : Bool) (op : ReqOp) (b : Option Block) :
    Kept s₀ (State.orphanOp s n secure op b).1 := by
  unfold State.orphanOp
  repeat' first
    | with_reducible exact h
    | with_reducible assumption
    | with_reducible intro _
    | with_reducible apply kept_ite
    | with_reducible apply kept_ite_fst
    | with_reducible refine kept_of_fst (by assumption) ?_
    | with_reducible apply kept_ite_snd
    | with_reducible refine kept_of_snd (by assumption) ?_
    | with_reducible apply State.modSe_kept
    | with_reducible apply State.inc_kept
    | with_reducible apply State.runOp_kept
    | with_reducible apply State.violate_kept
    | with_reducible apply kept_bits
    | simp only [kept_mk_eq]
    | split

theorem State.runOrphan_kept {s₀ s : State} (h : Kept s₀ s) (x : Orphan) :
    Kept s₀ (State.runOrphan s x) := by
  unfold State.runOrphan
  repeat' first
    | with_reducible exact h
    | with_reducible assumption
    | with_reducible intro _
    | with_reducible apply kept_ite
    | with_reducible apply kept_ite_fst
    | with_reducible refine kept_of_fst (by assumption) ?_
    | with_reducible apply kept_ite_snd
    | with_reducible refine kept_of_snd (by assumption) ?_
    | with_reducible apply State.orphanOp_kept
    | with_reducible apply State.transferEnd_kept
    | with_reducible apply kept_bits
    | simp only [kept_mk_eq]
    | split

theorem State.runWaiting_kept {s₀ s : State} (h : Kept s₀ s) (n : Nat) :
    Kept s₀ (State.runWaiting s n) := by
  unfold State.runWaiting
  repeat' first
    | with_reducible exact h
    | with_reducible assumption
    | with_reducible intro _
    | with_reducible apply kept_ite
    | with_reducible apply kept_ite_fst
    | with_reducible refine kept_of_fst (by assumption) ?_
    | with_reducible apply State.runOrphan_kept
    | with_reducible apply State.runQueued_kept
    | with_reducible apply kept_bits
    | simp only [kept_mk_eq]
    | split

theorem State.closeSession_kept {s₀ s : State} (h : Kept s₀ s) (n : Nat) :
    Kept s₀ (State.closeSession s n) := by
  unfold State.closeSession
  repeat' first
    | with_reducible exact h
    | with_reducible assumption
    | with_reducible intro _
    | with_reducible apply kept_ite
    | with_reducible apply State.modSe_kept
    | with_reducible apply State.runAll_kept
    | with_reducible apply State.dropSession_kept
    | with_reducible apply kept_bits
    | simp only [kept_mk_eq]
    | split

theorem State.shake_kept {s₀ s : State} (h : Kept s₀ s) (h : Hdr) (type : Nat) (st : Status) (body : List Byte) :
    Kept s₀ (State.shake s h type st body) := by
  unfold State.shake
  repeat' first
    | with_reducible exact h
    | with_reducible assumption
    | with_reducible intro _
    | with_reducible apply kept_ite
    | with_reducible apply kept_ite_fst
    | with_reducible refine kept_of_fst (by assumption) ?_
    | with_reducible apply State.send_kept
    | with_reducible apply State.inc_kept
    | with_reducible apply kept_bits
    | simp only [kept_mk_eq]
    | split

theorem State.authFail_kept {s₀ s : State} (h : Kept s₀ s) (h : Hdr) (type : Nat) (body : List Byte) :
    Kept s₀ (State.authFail s h type body) := by
  unfold State.authFail
  repeat' first
    | with_reducible exact h
    | with_reducible assumption
    | with_reducible intro _
    | with_reducible apply kept_ite
    | with_reducible apply State.violate_kept
    | with_reducible apply State.shake_kept
    | with_reducible apply kept_bits
    | simp only [kept_mk_eq]
    | split

theorem State.sessionStart_kept {s₀ s : State} (h : Kept s₀ s) (h : Hdr) (kind : Nat) (ks : List Byte) :
    Kept s₀ (State.sessionStart s h kind ks) := by
  unfold State.sessionStart
  repeat' first
    | with_reducible exact h
    | with_reducible assumption
    | with_reducible intro _
    | with_reducible apply kept_ite
    | with_reducible apply State.closeSession_kept
    | with_reducible apply State.modSe_kept
    | with_reducible apply State.inc_kept
    | with_reducible apply kept_bits
    | simp only [kept_mk_eq]
    | split

theorem State.nonce_kept {s₀ s : State} (h : Kept s₀ s)  :
    Kept s₀ (State.nonce s).2 := by
  unfold State.nonce
  repeat' first
    | with_reducible exact h
    | with_reducible assumption
    | with_reducible intro _
    | with_reducible apply kept_ite
    | with_reducible apply kept_ite_snd
    | with_reducible refine kept_of_snd (by assumption) ?_
    | with_reducible apply kept_bits
    | simp only [kept_mk_eq]
    | split

theorem State.openIn_kept {s₀ s : State} (h : Kept s₀ s) (h : Hdr) (secure : Bool) (cnonce : List Byte) :
    Kept s₀ (State.openIn s h secure cnonce) := by
  unfold State.openIn
  repeat' first
    | with_reducible exact h
    | with_reducible assumption
    | with_reducible intro _
    | with_reducible apply kept_ite
    | with_reducible apply kept_ite_fst
    | with_reducible refine kept_of_fst (by assumption) ?_
    | with_reducible apply kept_ite_snd
    | with_reducible refine kept_of_snd (by assumption) ?_
    | with_reducible apply State.inc_kept
    | with_reducible apply State.shake_kept
    | with_reducible apply State.authFail_kept
    | with_reducible apply State.nonce_kept
    | with_reducible apply State.sessionStart_kept
    | with_reducible apply kept_bits
    | simp only [kept_mk_eq]
    | split

theorem State.proofOther_kept {s₀ s : State} (h : Kept s₀ s) (h : Hdr) :
    Kept s₀ (State.proofOther s h) := by
  unfold State.proofOther
  repeat' first
    | with_reducible exact h
    | with_reducible assumption
    | with_reducible intro _
    | with_reducible apply kept_ite
    | with_reducible apply State.inc_kept
    | with_reducible apply State.authFail_kept
    | with_reducible apply kept_bits
    | simp only [kept_mk_eq]
    | split

theorem State.proofIn_kept {s₀ s : State} (h : Kept s₀ s) (h : Hdr) (hproof : List Byte) :
    Kept s₀ (State.proofIn s h hproof) := by
  unfold State.proofIn
  repeat' first
    | with_reducible exact h
    | with_reducible assumption
    | with_reducible intro _
    | with_reducible apply kept_ite
    | with_reducible apply kept_ite_fst
    | with_reducible refine kept_of_fst (by assumption) ?_
    | with_reducible apply State.proofOther_kept
    | with_reducible apply State.sessionStart_kept
    | with_reducible apply State.shake_kept
    | with_reducible apply State.authFail_kept
    | with_reducible apply kept_bits
    | simp only [kept_mk_eq]
    | split

theorem State.pendExpire_kept {s₀ s : State} (h : Kept s₀ s) (n : Nat) :
    Kept s₀ (State.pendExpire s n) := by
  unfold State.pendExpire
  repeat' first
    | with_reducible exact h
    | with_reducible assumption
    | with_reducible intro _
    | with_reducible apply kept_ite
    | with_reducible apply kept_ite_fst
    | with_reducible refine kept_of_fst (by assumption) ?_
    | with_reducible apply kept_bits
    | simp only [kept_mk_eq]
    | split

theorem State.timeoutSession_kept {s₀ s : State} (h : Kept s₀ s) (n : Nat) :
    Kept s₀ (State.timeoutSession s n) := by
  unfold State.timeoutSession
  repeat' first
    | with_reducible exact h
    | with_reducible assumption
    | with_reducible intro _
    | with_reducible apply kept_ite
    | with_reducible apply State.closeSession_kept
    | with_reducible apply kept_bits
    | simp only [kept_mk_eq]
    | split

theorem State.commitEnd_kept {s₀ s : State} (h : Kept s₀ s) (ok : Bool) :
    Kept s₀ (State.commitEnd s ok) := by
  unfold State.commitEnd
  repeat' first
    | with_reducible exact h
    | with_reducible assumption
    | with_reducible intro _
    | with_reducible apply kept_ite
    | with_reducible apply kept_ite_fst
    | with_reducible refine kept_of_fst (by assumption) ?_
    | with_reducible apply State.modSe_kept
    | with_reducible apply State.imageDone_kept
    | with_reducible apply kept_bits
    | simp only [kept_mk_eq]
    | split

theorem State.datagramIn_kept {s₀ s : State} (h : Kept s₀ s) (p ip udp eth : Nat) (b : List Byte) :
    Kept s₀ (State.datagramIn s p ip udp eth b) := by
  unfold State.datagramIn
  repeat' first
    | with_reducible exact h
    | with_reducible assumption
    | with_reducible intro _
    | with_reducible apply kept_ite
    | with_reducible apply kept_ite_fst
    | with_reducible refine kept_of_fst (by assumption) ?_
    | with_reducible apply State.inc_kept
    | with_reducible apply State.openIn_kept
    | with_reducible apply State.proofIn_kept
    | with_reducible apply State.kopIn_kept
    | with_reducible apply kept_bits
    | simp only [kept_mk_eq]
    | split

theorem State.ipIn_kept {s₀ s : State} (h : Kept s₀ s) (p : Nat) (version : Nat) (sumOk fragment udpSumOk : Bool) (src dst srcMac : Nat) (body : List Byte) (proto sport dport : Nat) :
    Kept s₀ (State.ipIn s p version sumOk fragment udpSumOk src dst srcMac body proto sport dport) := by
  unfold State.ipIn
  repeat' first
    | with_reducible exact h
    | with_reducible assumption
    | with_reducible intro _
    | with_reducible apply kept_ite
    | with_reducible apply State.inc_kept
    | with_reducible apply State.icmpTake_kept
    | with_reducible apply State.datagramIn_kept
    | with_reducible apply kept_bits
    | simp only [kept_mk_eq]
    | split

theorem State.frameIn_kept {s₀ s : State} (h : Kept s₀ s) (f : Frame) :
    Kept s₀ (State.frameIn s f) := by
  unfold State.frameIn
  repeat' first
    | with_reducible exact h
    | with_reducible assumption
    | with_reducible intro _
    | with_reducible apply kept_ite
    | with_reducible apply kept_ite_fst
    | with_reducible refine kept_of_fst (by assumption) ?_
    | with_reducible apply kept_each
    | with_reducible apply State.inc_kept
    | with_reducible apply State.arpTake_kept
    | with_reducible apply State.arpLearn_kept
    | with_reducible apply State.streamTry_kept
    | with_reducible apply State.ipIn_kept
    | with_reducible apply kept_bits
    | simp only [kept_mk_eq]
    | split

end Sys2Proof.Machine
end

