-- ==== Sys2Proof/Laws/IdleKept.lean ====
section
/-! SUPPORT. What the operations of Machine/Idle.lean keep. -/
namespace Sys2Proof.Machine
open Sys2Proof

theorem State.idle_kept {s₀ s : State} (h : Kept s₀ s)  :
    Kept s₀ (State.idle s) := by
  unfold State.idle
  repeat' first
    | with_reducible exact h
    | with_reducible assumption
    | with_reducible intro _
    | with_reducible apply kept_ite
    | with_reducible apply State.intake_kept
    | with_reducible apply State.pairSlot_kept
    | with_reducible apply kept_bits
    | simp only [kept_mk_eq]
    | split

end Sys2Proof.Machine
end

