-- ==== Sys2Proof/Laws/ExecKept.lean ====
section
/-! SUPPORT. What each command keeps: every command but a loss of supply 6 and a power-on reset. -/
namespace Sys2Proof.Machine
open Sys2Proof

theorem execFrameStart_kept {s t' : State} (e : execFrameStart s = .next t') : Kept s t' := by
  have h := Kept.refl s
  unfold execFrameStart at e
  injection e with e
  subst e
  repeat' first
    | with_reducible exact h
    | with_reducible assumption
    | with_reducible intro _
    | with_reducible apply kept_ite
    | with_reducible apply State.frame_kept

theorem execGroupTick_kept {s t' : State} (g : GroupNo) (slots : List SlotIn) (pace : Nat) (recordMiss : Bool) (e : execGroupTick g slots pace recordMiss s = .next t') : Kept s t' := by
  have h := Kept.refl s
  unfold execGroupTick at e
  injection e with e
  subst e
  repeat' first
    | with_reducible exact h
    | with_reducible assumption
    | with_reducible intro _
    | with_reducible apply kept_ite
    | with_reducible apply State.tick_kept

theorem execStagingClose_kept {s t' : State} (g : GroupNo) (missed : List Nat) (e : execStagingClose g missed s = .next t') : Kept s t' := by
  have h := Kept.refl s
  unfold execStagingClose at e
  injection e with e
  subst e
  repeat' first
    | with_reducible exact h
    | with_reducible assumption
    | with_reducible intro _
    | with_reducible apply kept_ite
    | with_reducible apply State.staging_kept

theorem execLoadStrobe_kept {s t' : State} (g : GroupNo) (e : execLoadStrobe g s = .next t') : Kept s t' := by
  have h := Kept.refl s
  unfold execLoadStrobe at e
  injection e with e
  subst e
  repeat' first
    | with_reducible exact h
    | with_reducible assumption
    | with_reducible intro _
    | with_reducible apply kept_ite
    | with_reducible apply State.strobe_kept

theorem execClockMonitorWindow_kept {s t' : State} (tb : Fin 25) (found : ClkState) (e : execClockMonitorWindow tb found s = .next t') : Kept s t' := by
  have h := Kept.refl s
  unfold execClockMonitorWindow at e
  injection e with e
  subst e
  repeat' first
    | with_reducible exact h
    | with_reducible assumption
    | with_reducible intro _
    | with_reducible apply kept_ite
    | with_reducible apply State.clockWindow_kept

theorem execTbaStopDetect_kept {s t' : State} (e : execTbaStopDetect s = .next t') : Kept s t' := by
  have h := Kept.refl s
  unfold execTbaStopDetect at e
  injection e with e
  subst e
  repeat' first
    | with_reducible exact h
    | with_reducible assumption
    | with_reducible intro _
    | with_reducible apply kept_ite
    | with_reducible apply State.setTb_kept
    | with_reducible apply State.safeTrip_kept
    | with_reducible apply kept_bits
    | simp only [kept_mk_eq]

theorem execTbaFreqCheck_kept {s t' : State} (edges : Nat) (e : execTbaFreqCheck edges s = .next t') : Kept s t' := by
  have h := Kept.refl s
  unfold execTbaFreqCheck at e
  injection e with e
  subst e
  repeat' first
    | with_reducible exact h
    | with_reducible assumption
    | with_reducible intro _
    | with_reducible apply kept_ite
    | with_reducible apply State.report_kept

theorem execTbaTick_kept {s t' : State} (reeds : List ReedIn) (e : execTbaTick reeds s = .next t') : Kept s t' := by
  have h := Kept.refl s
  unfold execTbaTick at e
  injection e with e
  subst e
  repeat' first
    | with_reducible exact h
    | with_reducible assumption
    | with_reducible intro _
    | with_reducible apply kept_ite
    | with_reducible apply kept_each
    | with_reducible apply State.tbaRuns_kept
    | with_reducible apply State.leak_kept
    | with_reducible apply State.reedAll_kept
    | with_reducible apply State.tbaGroup_kept
    | with_reducible apply kept_bits
    | simp only [kept_mk_eq]

theorem execDeclI_kept {s t' : State} (h : Hdr) (c : ChanNo) (v : Int) (e : execDeclI h c v s = .next t') : Kept s t' := by
  injection e with e; subst e; exact State.kopIn_kept (Kept.refl s) _ _

theorem execOpenSession_kept {s t' : State} (h : Hdr) (secure : Bool) (cnonce : List Byte) (e : execOpenSession h secure cnonce s = .next t') : Kept s t' := by
  have h := Kept.refl s
  unfold execOpenSession at e
  injection e with e
  subst e
  repeat' first
    | with_reducible exact h
    | with_reducible assumption
    | with_reducible intro _
    | with_reducible apply kept_ite
    | with_reducible apply State.openIn_kept

theorem execProof_kept {s t' : State} (h : Hdr) (hproof : List Byte) (e : execProof h hproof s = .next t') : Kept s t' := by
  have h := Kept.refl s
  unfold execProof at e
  injection e with e
  subst e
  repeat' first
    | with_reducible exact h
    | with_reducible assumption
    | with_reducible intro _
    | with_reducible apply kept_ite
    | with_reducible apply State.proofIn_kept

theorem execSecurePendingExpiry_kept {s t' : State} (n : Nat) (e : execSecurePendingExpiry n s = .next t') : Kept s t' := by
  have h := Kept.refl s
  unfold execSecurePendingExpiry at e
  injection e with e
  subst e
  repeat' first
    | with_reducible exact h
    | with_reducible assumption
    | with_reducible intro _
    | with_reducible apply kept_ite
    | with_reducible apply State.pendExpire_kept

theorem execClose_kept {s t' : State} (h : Hdr) (e : execClose h s = .next t') : Kept s t' := by
  injection e with e; subst e; exact State.kopIn_kept (Kept.refl s) _ _

theorem execNop_kept {s t' : State} (h : Hdr) (e : execNop h s = .next t') : Kept s t' := by
  injection e with e; subst e; exact State.kopIn_kept (Kept.refl s) _ _

theorem execRead_kept {s t' : State} (h : Hdr) (idx sub : Nat) (e : execRead h idx sub s = .next t') : Kept s t' := by
  injection e with e; subst e; exact State.kopIn_kept (Kept.refl s) _ _

theorem execWrite_kept {s t' : State} (h : Hdr) (idx sub : Nat) (v : WireVal) (e : execWrite h idx sub v s = .next t') : Kept s t' := by
  injection e with e; subst e; exact State.kopIn_kept (Kept.refl s) _ _

theorem execQueuedRequestExecute_kept {s t' : State} (n : Nat) (e : execQueuedRequestExecute n s = .next t') : Kept s t' := by
  have h := Kept.refl s
  unfold execQueuedRequestExecute at e
  injection e with e
  subst e
  repeat' first
    | with_reducible exact h
    | with_reducible assumption
    | with_reducible intro _
    | with_reducible apply kept_ite
    | with_reducible apply State.runWaiting_kept

theorem execSessionTimeout_kept {s t' : State} (n : Nat) (e : execSessionTimeout n s = .next t') : Kept s t' := by
  have h := Kept.refl s
  unfold execSessionTimeout at e
  injection e with e
  subst e
  repeat' first
    | with_reducible exact h
    | with_reducible assumption
    | with_reducible intro _
    | with_reducible apply kept_ite
    | with_reducible apply State.timeoutSession_kept

theorem execBlockOpen_kept {s t' : State} (h : Hdr) (idx sub : Nat) (dirWrite : Bool) (offset count : Nat) (e : execBlockOpen h idx sub dirWrite offset count s = .next t') : Kept s t' := by
  have h := Kept.refl s
  unfold execBlockOpen at e
  injection e with e
  subst e
  repeat' first
    | with_reducible exact h
    | with_reducible assumption
    | with_reducible intro _
    | with_reducible apply kept_ite
    | with_reducible apply State.kopIn_kept
    | with_reducible apply State.blockOpen_kept

theorem execBlockSeg_kept {s t' : State} (h : Hdr) (offset count : Nat) (data : List Byte) (e : execBlockSeg h offset count data s = .next t') : Kept s t' := by
  have h := Kept.refl s
  unfold execBlockSeg at e
  injection e with e
  subst e
  repeat' first
    | with_reducible exact h
    | with_reducible assumption
    | with_reducible intro _
    | with_reducible apply kept_ite
    | with_reducible apply State.kopIn_kept
    | with_reducible apply State.blockSeg_kept

theorem execBlockClose_kept {s t' : State} (h : Hdr) (crc : Nat) (e : execBlockClose h crc s = .next t') : Kept s t' := by
  have h := Kept.refl s
  unfold execBlockClose at e
  injection e with e
  subst e
  repeat' first
    | with_reducible exact h
    | with_reducible assumption
    | with_reducible intro _
    | with_reducible apply kept_ite
    | with_reducible apply State.kopIn_kept
    | with_reducible apply State.blockClose_kept

theorem execBlockAbort_kept {s t' : State} (h : Hdr) (e : execBlockAbort h s = .next t') : Kept s t' := by
  have h := Kept.refl s
  unfold execBlockAbort at e
  injection e with e
  subst e
  repeat' first
    | with_reducible exact h
    | with_reducible assumption
    | with_reducible intro _
    | with_reducible apply kept_ite
    | with_reducible apply State.kopIn_kept
    | with_reducible apply State.blockAbort_kept

theorem execMode_kept {s t' : State} (h : Hdr) (m : Int) (e : execMode h m s = .next t') : Kept s t' := by
  injection e with e; subst e; exact State.kopIn_kept (Kept.refl s) _ _

theorem execModeValidationDone_kept {s t' : State} (e : execModeValidationDone s = .next t') : Kept s t' := by
  have h := Kept.refl s
  unfold execModeValidationDone at e
  injection e with e
  subst e
  repeat' first
    | with_reducible exact h
    | with_reducible assumption
    | with_reducible intro _
    | with_reducible apply kept_ite
    | with_reducible apply State.switchValidated_kept

theorem execImageCommit_kept {s t' : State} (h : Hdr) (e : execImageCommit h s = .next t') : Kept s t' := by
  injection e with e; subst e; exact State.kopIn_kept (Kept.refl s) _ _

theorem execImageCommitDone_kept {s t' : State} (verified : Bool) (e : execImageCommitDone verified s = .next t') : Kept s t' := by
  have h := Kept.refl s
  unfold execImageCommitDone at e
  injection e with e
  subst e
  repeat' first
    | with_reducible exact h
    | with_reducible assumption
    | with_reducible intro _
    | with_reducible apply kept_ite
    | with_reducible apply State.commitEnd_kept

theorem execLoadBase_kept {s t' : State} (h : Hdr) (e : execLoadBase h s = .next t') : Kept s t' := by
  injection e with e; subst e; exact State.kopIn_kept (Kept.refl s) _ _

theorem execViolClear_kept {s t' : State} (h : Hdr) (e : execViolClear h s = .next t') : Kept s t' := by
  injection e with e; subst e; exact State.kopIn_kept (Kept.refl s) _ _

theorem execArm_kept {s t' : State} (h : Hdr) (c : ChanNo) (e : execArm h c s = .next t') : Kept s t' := by
  injection e with e; subst e; exact State.kopIn_kept (Kept.refl s) _ _

theorem execEnable_kept {s t' : State} (h : Hdr) (c : ChanNo) (e : execEnable h c s = .next t') : Kept s t' := by
  injection e with e; subst e; exact State.kopIn_kept (Kept.refl s) _ _

theorem execOutOff_kept {s t' : State} (h : Hdr) (c : ChanNo) (e : execOutOff h c s = .next t') : Kept s t' := by
  injection e with e; subst e; exact State.kopIn_kept (Kept.refl s) _ _

theorem execOutMute_kept {s t' : State} (h : Hdr) (c : ChanNo) (e : execOutMute h c s = .next t') : Kept s t' := by
  injection e with e; subst e; exact State.kopIn_kept (Kept.refl s) _ _

theorem execOutResume_kept {s t' : State} (h : Hdr) (c : ChanNo) (e : execOutResume h c s = .next t') : Kept s t' := by
  injection e with e; subst e; exact State.kopIn_kept (Kept.refl s) _ _

theorem execArmTransitEnd_kept {s t' : State} (c : ChanNo) (e : execArmTransitEnd c s = .next t') : Kept s t' := by
  have h := Kept.refl s
  unfold execArmTransitEnd at e
  injection e with e
  subst e
  repeat' first
    | with_reducible exact h
    | with_reducible assumption
    | with_reducible intro _
    | with_reducible apply kept_ite
    | with_reducible apply State.modCh_kept
    | with_reducible apply State.answers_kept
    | with_reducible apply kept_bits
    | simp only [kept_mk_eq]

theorem execOffRampEnd_kept {s t' : State} (c : ChanNo) (e : execOffRampEnd c s = .next t') : Kept s t' := by
  have h := Kept.refl s
  unfold execOffRampEnd at e
  injection e with e
  subst e
  repeat' first
    | with_reducible exact h
    | with_reducible assumption
    | with_reducible intro _
    | with_reducible apply kept_ite
    | with_reducible apply State.offDone_kept

theorem execSafeRampEnd_kept {s t' : State} (c : ChanNo) (e : execSafeRampEnd c s = .next t') : Kept s t' := by
  have h := Kept.refl s
  unfold execSafeRampEnd at e
  injection e with e
  subst e
  repeat' first
    | with_reducible exact h
    | with_reducible assumption
    | with_reducible intro _
    | with_reducible apply kept_ite
    | with_reducible apply State.modCh_kept
    | with_reducible apply State.switches_kept
    | with_reducible apply State.safeIsolated_kept
    | with_reducible apply kept_bits
    | simp only [kept_mk_eq]
    | split

theorem execBoostDecl_kept {s t' : State} (h : Hdr) (c : ChanNo) (v : Int) (e : execBoostDecl h c v s = .next t') : Kept s t' := by
  injection e with e; subst e; exact State.kopIn_kept (Kept.refl s) _ _

theorem execForceMode_kept {s t' : State} (h : Hdr) (c : ChanNo) (v : Int) (e : execForceMode h c v s = .next t') : Kept s t' := by
  injection e with e; subst e; exact State.kopIn_kept (Kept.refl s) _ _

theorem execNotchEn_kept {s t' : State} (h : Hdr) (c : ChanNo) (v : Int) (e : execNotchEn h c v s = .next t') : Kept s t' := by
  injection e with e; subst e; exact State.kopIn_kept (Kept.refl s) _ _

theorem execLawHoldSet_kept {s t' : State} (h : Hdr) (c : ChanNo) (e : execLawHoldSet h c s = .next t') : Kept s t' := by
  injection e with e; subst e; exact State.kopIn_kept (Kept.refl s) _ _

theorem execLawHoldCommit_kept {s t' : State} (h : Hdr) (c : ChanNo) (e : execLawHoldCommit h c s = .next t') : Kept s t' := by
  injection e with e; subst e; exact State.kopIn_kept (Kept.refl s) _ _

theorem execCtlRunStart_kept {s t' : State} (h : Hdr) (g : GroupNo) (e : execCtlRunStart h g s = .next t') : Kept s t' := by
  injection e with e; subst e; exact State.kopIn_kept (Kept.refl s) _ _

theorem execCtlRunStop_kept {s t' : State} (h : Hdr) (g : GroupNo) (e : execCtlRunStop h g s = .next t') : Kept s t' := by
  injection e with e; subst e; exact State.kopIn_kept (Kept.refl s) _ _

theorem execVRange_kept {s t' : State} (h : Hdr) (c : ChanNo) (v : Int) (e : execVRange h c v s = .next t') : Kept s t' := by
  injection e with e; subst e; exact State.kopIn_kept (Kept.refl s) _ _

theorem execIRange_kept {s t' : State} (h : Hdr) (c : ChanNo) (v : Int) (e : execIRange h c v s = .next t') : Kept s t' := by
  injection e with e; subst e; exact State.kopIn_kept (Kept.refl s) _ _

theorem execRangeSet_kept {s t' : State} (h : Hdr) (c : ChanNo) (v : Int) (e : execRangeSet h c v s = .next t') : Kept s t' := by
  injection e with e; subst e; exact State.kopIn_kept (Kept.refl s) _ _

theorem execSlidePrepEnd_kept {s t' : State} (c : ChanNo) (e : execSlidePrepEnd c s = .next t') : Kept s t' := by
  have h := Kept.refl s
  unfold execSlidePrepEnd at e
  injection e with e
  subst e
  repeat' first
    | with_reducible exact h
    | with_reducible assumption
    | with_reducible intro _
    | with_reducible apply kept_ite
    | with_reducible apply State.slideMake_kept
    | with_reducible apply State.lawPass_kept
    | dsimp only
    | split

theorem execSlideComplete_kept {s t' : State} (c : ChanNo) (e : execSlideComplete c s = .next t') : Kept s t' := by
  have h := Kept.refl s
  unfold execSlideComplete at e
  injection e with e
  subst e
  repeat' first
    | with_reducible exact h
    | with_reducible assumption
    | with_reducible intro _
    | with_reducible apply kept_ite
    | with_reducible apply State.slideDone_kept
    | with_reducible apply State.inc_kept
    | with_reducible apply State.modCh_kept
    | with_reducible apply State.idle_kept
    | with_reducible apply State.rangeRefuse_kept
    | with_reducible apply State.slideStart_kept
    | with_reducible apply State.lawPass_kept
    | with_reducible apply kept_bits
    | simp only [kept_mk_eq]
    | split

theorem execAutoRangeStep_kept {s t' : State} (c : ChanNo) (e : execAutoRangeStep c s = .next t') : Kept s t' := by
  have h := Kept.refl s
  unfold execAutoRangeStep at e
  injection e with e
  subst e
  repeat' first
    | with_reducible exact h
    | with_reducible assumption
    | with_reducible intro _
    | with_reducible apply kept_ite
    | with_reducible apply State.modAper_kept
    | with_reducible apply State.modGr_kept
    | with_reducible apply kept_bits
    | simp only [kept_mk_eq]
    | split

theorem execModulatorOverload_kept {s t' : State} (g : GroupNo) (slot : Nat) (current : Bool) (what : Overload) (e : execModulatorOverload g slot current what s = .next t') : Kept s t' := by
  have h := Kept.refl s
  unfold execModulatorOverload at e
  injection e with e
  subst e
  repeat' first
    | with_reducible exact h
    | with_reducible assumption
    | with_reducible intro _
    | with_reducible apply kept_ite
    | with_reducible apply State.modSl_kept
    | with_reducible apply State.inc_kept
    | with_reducible apply kept_bits
    | simp only [kept_mk_eq]

theorem execApertureClose_kept {s t' : State} (c : ChanNo) (e : execApertureClose c s = .next t') : Kept s t' := by
  have h := Kept.refl s
  unfold execApertureClose at e
  injection e with e
  subst e
  repeat' first
    | with_reducible exact h
    | with_reducible assumption
    | with_reducible intro _
    | with_reducible apply kept_ite
    | with_reducible apply State.closeAper_kept

theorem execApertureN_kept {s t' : State} (h : Hdr) (c : ChanNo) (v : Int) (e : execApertureN h c v s = .next t') : Kept s t' := by
  injection e with e; subst e; exact State.kopIn_kept (Kept.refl s) _ _

theorem execApertureRebase_kept {s t' : State} (h : Hdr) (c : ChanNo) (e : execApertureRebase h c s = .next t') : Kept s t' := by
  injection e with e; subst e; exact State.kopIn_kept (Kept.refl s) _ _

theorem execAggWindowClose_kept {s t' : State} (g : GroupNo) (e : execAggWindowClose g s = .next t') : Kept s t' := by
  have h := Kept.refl s
  unfold execAggWindowClose at e
  injection e with e
  subst e
  repeat' first
    | with_reducible exact h
    | with_reducible assumption
    | with_reducible intro _
    | with_reducible apply kept_ite
    | with_reducible apply State.aggClose_kept

theorem execRecFlushExpiry_kept {s t' : State} (c : ChanNo) (e : execRecFlushExpiry c s = .next t') : Kept s t' := by
  have h := Kept.refl s
  unfold execRecFlushExpiry at e
  injection e with e
  subst e
  repeat' first
    | with_reducible exact h
    | with_reducible assumption
    | with_reducible intro _
    | with_reducible apply kept_ite
    | with_reducible apply State.closeBlock_kept
    | split

theorem execFiltRunStart_kept {s t' : State} (h : Hdr) (g : GroupNo) (e : execFiltRunStart h g s = .next t') : Kept s t' := by
  injection e with e; subst e; exact State.kopIn_kept (Kept.refl s) _ _

theorem execFiltRunStop_kept {s t' : State} (h : Hdr) (g : GroupNo) (e : execFiltRunStop h g s = .next t') : Kept s t' := by
  injection e with e; subst e; exact State.kopIn_kept (Kept.refl s) _ _

theorem execFiltFillDone_kept {s t' : State} (g : GroupNo) (e : execFiltFillDone g s = .next t') : Kept s t' := by
  have h := Kept.refl s
  unfold execFiltFillDone at e
  injection e with e
  subst e
  repeat' first
    | with_reducible exact h
    | with_reducible assumption
    | with_reducible intro _
    | with_reducible apply kept_ite
    | with_reducible apply State.push_kept

theorem execReservationWrite_kept {s t' : State} (c : ChanNo) (e : execReservationWrite c s = .next t') : Kept s t' := by
  have h := Kept.refl s
  unfold execReservationWrite at e
  injection e with e
  subst e
  repeat' first
    | with_reducible exact h
    | with_reducible assumption
    | with_reducible intro _
    | with_reducible apply kept_ite
    | with_reducible apply State.modAper_kept
    | with_reducible apply State.nvmPut_kept
    | with_reducible apply kept_bits
    | simp only [kept_mk_eq]

theorem execReservationConfirm_kept {s t' : State} (c : ChanNo) (e : execReservationConfirm c s = .next t') : Kept s t' := by
  have h := Kept.refl s
  unfold execReservationConfirm at e
  injection e with e
  subst e
  repeat' first
    | with_reducible exact h
    | with_reducible assumption
    | with_reducible intro _
    | with_reducible apply kept_ite
    | with_reducible apply State.modAper_kept
    | with_reducible apply kept_bits
    | simp only [kept_mk_eq]
    | split

theorem execChtStop_kept {s t' : State} (h : Hdr) (c : ChanNo) (e : execChtStop h c s = .next t') : Kept s t' := by
  injection e with e; subst e; exact State.kopIn_kept (Kept.refl s) _ _

theorem execChtStart_kept {s t' : State} (h : Hdr) (c : ChanNo) (e : execChtStart h c s = .next t') : Kept s t' := by
  injection e with e; subst e; exact State.kopIn_kept (Kept.refl s) _ _

theorem execChtPause_kept {s t' : State} (h : Hdr) (c : ChanNo) (e : execChtPause h c s = .next t') : Kept s t' := by
  injection e with e; subst e; exact State.kopIn_kept (Kept.refl s) _ _

theorem execChtResume_kept {s t' : State} (h : Hdr) (c : ChanNo) (e : execChtResume h c s = .next t') : Kept s t' := by
  injection e with e; subst e; exact State.kopIn_kept (Kept.refl s) _ _

theorem execChtAdvance_kept {s t' : State} (h : Hdr) (c : ChanNo) (e : execChtAdvance h c s = .next t') : Kept s t' := by
  injection e with e; subst e; exact State.kopIn_kept (Kept.refl s) _ _

theorem execUnitBegin_kept {s t' : State} (c : ChanNo) (sramBad : Bool) (e : execUnitBegin c sramBad s = .next t') : Kept s t' := by
  have h := Kept.refl s
  unfold execUnitBegin at e
  injection e with e
  subst e
  repeat' first
    | with_reducible exact h
    | with_reducible assumption
    | with_reducible intro _
    | with_reducible apply kept_ite
    | with_reducible apply State.unitBegin_kept
    | with_reducible apply State.sramBad_kept

theorem execUnitApply_kept {s t' : State} (x : ApplyIn) (e : execUnitApply x s = .next t') : Kept s t' := by
  have h := Kept.refl s
  unfold execUnitApply at e
  injection e with e
  subst e
  repeat' first
    | with_reducible exact h
    | with_reducible assumption
    | with_reducible intro _
    | with_reducible apply kept_ite
    | with_reducible apply State.push_kept

theorem execUnitSettle_kept {s t' : State} (c : ChanNo) (e : execUnitSettle c s = .next t') : Kept s t' := by
  have h := Kept.refl s
  unfold execUnitSettle at e
  injection e with e
  subst e
  repeat' first
    | with_reducible exact h
    | with_reducible assumption
    | with_reducible intro _
    | with_reducible apply kept_ite
    | with_reducible apply State.unitSettle_kept
    | with_reducible apply State.chtTick_kept
    | with_reducible apply State.mirrorOut_kept
    | dsimp only

theorem execUnitEnd_kept {s t' : State} (c : ChanNo) (e : execUnitEnd c s = .next t') : Kept s t' := by
  have h := Kept.refl s
  unfold execUnitEnd at e
  injection e with e
  subst e
  repeat' first
    | with_reducible exact h
    | with_reducible assumption
    | with_reducible intro _
    | with_reducible apply kept_ite
    | with_reducible apply State.push_kept
    | with_reducible apply State.unitEnd_kept

theorem execWavePoint_kept {s t' : State} (c : ChanNo) (ue : Option (Fin 4)) (e : execWavePoint c ue s = .next t') : Kept s t' := by
  have h := Kept.refl s
  unfold execWavePoint at e
  injection e with e
  subst e
  repeat' first
    | with_reducible exact h
    | with_reducible assumption
    | with_reducible intro _
    | with_reducible apply kept_ite
    | with_reducible apply State.push_kept

theorem execWaveLen_kept {s t' : State} (h : Hdr) (n : Fin 64) (v : Int) (e : execWaveLen h n v s = .next t') : Kept s t' := by
  injection e with e; subst e; exact State.kopIn_kept (Kept.refl s) _ _

theorem execClaimAnswer_kept {s t' : State} (c : ChanNo) (e : execClaimAnswer c s = .next t') : Kept s t' := by
  have h := Kept.refl s
  unfold execClaimAnswer at e
  injection e with e
  subst e
  repeat' first
    | with_reducible exact h
    | with_reducible assumption
    | with_reducible intro _
    | with_reducible apply kept_ite
    | with_reducible apply State.answerClaim_kept

theorem execEpConnect_kept {s t' : State} (h : Hdr) (c : ChanNo) (v : Int) (e : execEpConnect h c v s = .next t') : Kept s t' := by
  injection e with e; subst e; exact State.kopIn_kept (Kept.refl s) _ _

theorem execEpRelease_kept {s t' : State} (h : Hdr) (c : ChanNo) (e : execEpRelease h c s = .next t') : Kept s t' := by
  injection e with e; subst e; exact State.kopIn_kept (Kept.refl s) _ _

theorem execMatrixGrant_kept {s t' : State} (e : execMatrixGrant s = .next t') : Kept s t' := by
  have h := Kept.refl s
  unfold execMatrixGrant at e
  injection e with e
  subst e
  repeat' first
    | with_reducible exact h
    | with_reducible assumption
    | with_reducible intro _
    | with_reducible apply kept_ite
    | with_reducible apply State.mtxGrant_kept

theorem execMatrixWordEcho_kept {s t' : State} (echo : BitVec 32) (strobe : StrobeIn) (e : execMatrixWordEcho echo strobe s = .next t') : Kept s t' := by
  have h := Kept.refl s
  unfold execMatrixWordEcho at e
  injection e with e
  subst e
  repeat' first
    | with_reducible exact h
    | with_reducible assumption
    | with_reducible intro _
    | with_reducible apply kept_ite
    | with_reducible apply State.mtxEcho_kept
    | with_reducible apply State.strobe_kept

theorem execBreakSettled_kept {s t' : State} (c : ChanNo) (e : execBreakSettled c s = .next t') : Kept s t' := by
  have h := Kept.refl s
  unfold execBreakSettled at e
  injection e with e
  subst e
  repeat' first
    | with_reducible exact h
    | with_reducible assumption
    | with_reducible intro _
    | with_reducible apply kept_ite
    | with_reducible apply State.breakDone_kept

theorem execConnectionSettled_kept {s t' : State} (c : ChanNo) (e : execConnectionSettled c s = .next t') : Kept s t' := by
  have h := Kept.refl s
  unfold execConnectionSettled at e
  injection e with e
  subst e
  repeat' first
    | with_reducible exact h
    | with_reducible assumption
    | with_reducible intro _
    | with_reducible apply kept_ite
    | with_reducible apply State.makeDone_kept

theorem execMtxRestart_kept {s t' : State} (h : Hdr) (line : Fin 8) (e : execMtxRestart h line s = .next t') : Kept s t' := by
  injection e with e; subst e; exact State.kopIn_kept (Kept.refl s) _ _

theorem execLedgerRetire_kept {s t' : State} (h : Hdr) (ep : Fin 1048576) (e : execLedgerRetire h ep s = .next t') : Kept s t' := by
  injection e with e; subst e; exact State.kopIn_kept (Kept.refl s) _ _

theorem execLedgerRestore_kept {s t' : State} (h : Hdr) (ep : Fin 1048576) (e : execLedgerRestore h ep s = .next t') : Kept s t' := by
  injection e with e; subst e; exact State.kopIn_kept (Kept.refl s) _ _

theorem execLedgerClearBias_kept {s t' : State} (h : Hdr) (ep : Fin 1048576) (e : execLedgerClearBias h ep s = .next t') : Kept s t' := by
  injection e with e; subst e; exact State.kopIn_kept (Kept.refl s) _ _

theorem execLedgerCommit_kept {s t' : State} (h : Hdr) (e : execLedgerCommit h s = .next t') : Kept s t' := by
  injection e with e; subst e; exact State.kopIn_kept (Kept.refl s) _ _

theorem execLedgerCommitPeriodic_kept {s t' : State} (e : execLedgerCommitPeriodic s = .next t') : Kept s t' := by
  have h := State.started_kept (Kept.refl s) .DRN_LATE_LEDGER s.drn.dueLed 5000000000
  have hd (x : Drone) {s' : State} (h' : Kept s s') : Kept s { s' with drn := x } := h'
  have hm (x : Matrix) : Kept s { s with mtx := x } := Kept.refl s
  unfold execLedgerCommitPeriodic at e
  split at e
  · injection e with e; subst e; exact Kept.refl s
  · split at e
    · injection e with e; subst e; exact State.commitStart_kept (hm _) _
    · split at e <;> (injection e with e; subst e)
      · exact State.commitStart_kept (hd _ h) _
      · exact Kept.refl s

theorem execLedgerCommitDone_kept {s t' : State} (e : execLedgerCommitDone s = .next t') : Kept s t' := by
  have h := Kept.refl s
  unfold execLedgerCommitDone at e
  injection e with e
  subst e
  repeat' first
    | with_reducible exact h
    | with_reducible assumption
    | with_reducible intro _
    | with_reducible apply kept_ite
    | with_reducible apply State.commitDone_kept

theorem execMtrgEdge_kept {s t' : State} (ball : Fin 4) (rising : Bool) (e : execMtrgEdge ball rising s = .next t') : Kept s t' := by
  have h := Kept.refl s
  unfold execMtrgEdge at e
  injection e with e
  subst e
  repeat' first
    | with_reducible exact h
    | with_reducible assumption
    | with_reducible intro _
    | with_reducible apply kept_ite
    | with_reducible apply kept_each
    | with_reducible apply State.monTrigger_kept
    | with_reducible apply kept_bits
    | dsimp only

theorem execMonStartupEnd_kept {s t' : State} (g : GroupNo) (e : execMonStartupEnd g s = .next t') : Kept s t' := by
  have h := Kept.refl s
  unfold execMonStartupEnd at e
  injection e with e
  subst e
  repeat' first
    | with_reducible exact h
    | with_reducible assumption
    | with_reducible intro _
    | with_reducible apply kept_ite
    | with_reducible apply State.monFinish_kept
    | with_reducible apply State.modMon_kept
    | dsimp only

theorem execMonSlotEnd_kept {s t' : State} (g : GroupNo) (e : execMonSlotEnd g s = .next t') : Kept s t' := by
  have h := Kept.refl s
  unfold execMonSlotEnd at e
  injection e with e
  subst e
  repeat' first
    | with_reducible exact h
    | with_reducible assumption
    | with_reducible intro _
    | with_reducible apply kept_ite
    | with_reducible apply State.monFinish_kept
    | with_reducible apply State.modMon_kept
    | dsimp only
    | split

theorem execMonDecisionDone_kept {s t' : State} (g : GroupNo) (a b : Int) (e : execMonDecisionDone g a b s = .next t') : Kept s t' := by
  have h := Kept.refl s
  unfold execMonDecisionDone at e
  injection e with e
  subst e
  repeat' first
    | with_reducible exact h
    | with_reducible assumption
    | with_reducible intro _
    | with_reducible apply kept_ite
    | with_reducible apply State.monDecided_kept
    | split

theorem execMonUrgent_kept {s t' : State} (h : Hdr) (g : GroupNo) (e : Int) (e : execMonUrgent h g e s = .next t') : Kept s t' := by
  injection e with e; subst e; exact State.kopIn_kept (Kept.refl s) _ _

theorem execMonEntry_kept {s t' : State} (h : Hdr) (g : GroupNo) (e : Fin 16) (v : Int) (e : execMonEntry h g e v s = .next t') : Kept s t' := by
  injection e with e; subst e; exact State.kopIn_kept (Kept.refl s) _ _

theorem execMonAccA_kept {s t' : State} (h : Hdr) (g : GroupNo) (e : Fin 16) (e : execMonAccA h g e s = .next t') : Kept s t' := by
  injection e with e; subst e; exact State.kopIn_kept (Kept.refl s) _ _

theorem execMonAccB_kept {s t' : State} (h : Hdr) (g : GroupNo) (e : Fin 16) (e : execMonAccB h g e s = .next t') : Kept s t' := by
  injection e with e; subst e; exact State.kopIn_kept (Kept.refl s) _ _

theorem execMonSnap_kept {s t' : State} (h : Hdr) (g : GroupNo) (e : execMonSnap h g s = .next t') : Kept s t' := by
  injection e with e; subst e; exact State.kopIn_kept (Kept.refl s) _ _

theorem execMonRestart_kept {s t' : State} (h : Hdr) (g : GroupNo) (e : execMonRestart h g s = .next t') : Kept s t' := by
  injection e with e; subst e; exact State.kopIn_kept (Kept.refl s) _ _

theorem execMonSpareSwap_kept {s t' : State} (g : GroupNo) (convB : Bool) (offset gainPpm : Int) (e : execMonSpareSwap g convB offset gainPpm s = .next t') : Kept s t' := by
  have h := Kept.refl s
  unfold execMonSpareSwap at e
  injection e with e
  subst e
  repeat' first
    | with_reducible exact h
    | with_reducible assumption
    | with_reducible intro _
    | with_reducible apply kept_ite
    | with_reducible apply State.monSwap_kept

theorem execMtrgoPulse_kept {s t' : State} (h : Hdr) (e : execMtrgoPulse h s = .next t') : Kept s t' := by
  injection e with e; subst e; exact State.kopIn_kept (Kept.refl s) _ _

theorem execMtrgoPeriodic_kept {s t' : State} (m : Nat) (e : execMtrgoPeriodic m s = .next t') : Kept s t' := by
  have h := Kept.refl s
  unfold execMtrgoPeriodic at e
  injection e with e
  subst e
  repeat' first
    | with_reducible exact h
    | with_reducible assumption
    | with_reducible intro _
    | with_reducible apply kept_ite
    | with_reducible apply State.mtrgoRise_kept
    | dsimp only

theorem execMtrgoPulseEnd_kept {s t' : State} (e : execMtrgoPulseEnd s = .next t') : Kept s t' := by
  have h := Kept.refl s
  unfold execMtrgoPulseEnd at e
  injection e with e
  subst e
  repeat' first
    | with_reducible exact h
    | with_reducible assumption
    | with_reducible intro _
    | with_reducible apply kept_ite
    | with_reducible apply kept_bits
    | simp only [kept_mk_eq]

theorem execReedSample_kept {s t' : State} (g : GroupNo) (reeds : List ReedIn) (e : execReedSample g reeds s = .next t') : Kept s t' := by
  have h := Kept.refl s
  unfold execReedSample at e
  injection e with e
  subst e
  repeat' first
    | with_reducible exact h
    | with_reducible assumption
    | with_reducible intro _
    | with_reducible apply kept_ite
    | with_reducible apply State.reedAll_kept

theorem execReedClear_kept {s t' : State} (h : Hdr) (c : ChanNo) (e : execReedClear h c s = .next t') : Kept s t' := by
  injection e with e; subst e; exact State.kopIn_kept (Kept.refl s) _ _

theorem execReedTest_kept {s t' : State} (h : Hdr) (g : GroupNo) (e : execReedTest h g s = .next t') : Kept s t' := by
  injection e with e; subst e; exact State.kopIn_kept (Kept.refl s) _ _

theorem execReedTestPeriodic_kept {s t' : State} (e : execReedTestPeriodic s = .next t') : Kept s t' := by
  have h := Kept.refl s
  unfold execReedTestPeriodic at e
  injection e with e
  subst e
  repeat' first
    | with_reducible exact h
    | with_reducible assumption
    | with_reducible intro _
    | with_reducible apply kept_ite
    | with_reducible apply kept_each
    | with_reducible apply State.testStart_kept
    | with_reducible apply kept_bits
    | simp only [kept_mk_eq]

theorem execReedTestTick_kept {s t' : State} (g : GroupNo) (v i : TestOut) (e : execReedTestTick g v i s = .next t') : Kept s t' := by
  have h := Kept.refl s
  unfold execReedTestTick at e
  injection e with e
  subst e
  repeat' first
    | with_reducible exact h
    | with_reducible assumption
    | with_reducible intro _
    | with_reducible apply kept_ite
    | with_reducible apply State.testTick_kept

theorem execEviEdge_kept {s t' : State} (ball : Fin 16) (rising : Bool) (e : execEviEdge ball rising s = .next t') : Kept s t' := by
  have h := Kept.refl s
  unfold execEviEdge at e
  injection e with e
  subst e
  repeat' first
    | with_reducible exact h
    | with_reducible assumption
    | with_reducible intro _
    | with_reducible apply kept_ite
    | with_reducible apply State.witnessEdge_kept
    | with_reducible apply State.edge_kept
    | with_reducible apply kept_bits
    | simp only [kept_mk_eq]

theorem execEvFire_kept {s t' : State} (h : Hdr) (n : Fin 256) (e : execEvFire h n s = .next t') : Kept s t' := by
  injection e with e; subst e; exact State.kopIn_kept (Kept.refl s) _ _

theorem execEvoPulseEnd_kept {s t' : State} (ball : Fin 16) (e : execEvoPulseEnd ball s = .next t') : Kept s t' := by
  have h := Kept.refl s
  unfold execEvoPulseEnd at e
  injection e with e
  subst e
  repeat' first
    | with_reducible exact h
    | with_reducible assumption
    | with_reducible intro _
    | with_reducible apply kept_ite
    | with_reducible apply kept_bits
    | simp only [kept_mk_eq]

theorem execEvLogClear_kept {s t' : State} (h : Hdr) (e : execEvLogClear h s = .next t') : Kept s t' := by
  injection e with e; subst e; exact State.kopIn_kept (Kept.refl s) _ _

theorem execCalStart_kept {s t' : State} (h : Hdr) (g : GroupNo) (e : execCalStart h g s = .next t') : Kept s t' := by
  injection e with e; subst e; exact State.kopIn_kept (Kept.refl s) _ _

theorem execCalAbort_kept {s t' : State} (h : Hdr) (g : GroupNo) (e : execCalAbort h g s = .next t') : Kept s t' := by
  injection e with e; subst e; exact State.kopIn_kept (Kept.refl s) _ _

theorem execCalExtCheck_kept {s t' : State} (g : GroupNo) (means : List (Nat × Int × Int)) (e : execCalExtCheck g means s = .next t') : Kept s t' := by
  have h := Kept.refl s
  unfold execCalExtCheck at e
  injection e with e
  subst e
  repeat' first
    | with_reducible exact h
    | with_reducible assumption
    | with_reducible intro _
    | with_reducible apply kept_ite
    | with_reducible apply State.modGr_kept
    | with_reducible apply State.answer_kept
    | with_reducible apply State.calRun_kept
    | with_reducible apply State.calEnd_kept
    | with_reducible apply State.push_kept
    | with_reducible apply State.calBegin_kept
    | with_reducible apply kept_bits
    | simp only [kept_mk_eq]
    | split

theorem execCalPointDone_kept {s t' : State} (g : GroupNo) (x : Int) (e : execCalPointDone g x s = .next t') : Kept s t' := by
  have h := Kept.refl s
  unfold execCalPointDone at e
  injection e with e
  subst e
  repeat' first
    | with_reducible exact h
    | with_reducible assumption
    | with_reducible intro _
    | with_reducible apply kept_ite
    | with_reducible apply State.calPoint_kept

theorem execCalNvmWriteDone_kept {s t' : State} (g : GroupNo) (verified : Bool) (e : execCalNvmWriteDone g verified s = .next t') : Kept s t' := by
  have h := Kept.refl s
  unfold execCalNvmWriteDone at e
  injection e with e
  subst e
  repeat' first
    | with_reducible exact h
    | with_reducible assumption
    | with_reducible intro _
    | with_reducible apply kept_ite
    | with_reducible apply State.calWritten_kept

theorem execSliceTempRead_kept {s t' : State} (temps : List (Nat × Int)) (e : execSliceTempRead temps s = .next t') : Kept s t' := by
  have h := Kept.refl s
  unfold execSliceTempRead at e
  injection e with e
  subst e
  repeat' first
    | with_reducible exact h
    | with_reducible assumption
    | with_reducible intro _
    | with_reducible apply kept_ite
    | with_reducible apply kept_each
    | with_reducible apply State.modSl_kept
    | with_reducible apply State.thermalLimit_kept
    | with_reducible apply kept_bits
    | simp only [kept_mk_eq]

theorem kept_slice {s₀ s : State} {x : SMap SliceSt} (h : Kept s₀ s) : Kept s₀ { s with slice := x } := h

theorem execCalThermalUpdate_kept {s t' : State} (e : execCalThermalUpdate s = .next t') : Kept s t' := by
  have h : Kept s (s.each allChans fun s c => s.thermal c) := kept_each (Kept.refl s) fun s c hs => State.thermal_kept hs c
  obtain rfl := Host.Outcome.next.inj e
  exact kept_slice h

theorem execFaultReport_kept {s t' : State} (m : Option FaultMsg) (e : execFaultReport m s = .next t') : Kept s t' := by
  have h := Kept.refl s
  unfold execFaultReport at e
  injection e with e
  subst e
  repeat' first
    | with_reducible exact h
    | with_reducible assumption
    | with_reducible intro _
    | with_reducible apply kept_ite
    | with_reducible apply State.acceptReport_kept

theorem execFenceArrival_kept {s t' : State} (e : execFenceArrival s = .next t') : Kept s t' := by
  have h := Kept.refl s
  unfold execFenceArrival at e
  injection e with e
  subst e
  repeat' first
    | with_reducible exact h
    | with_reducible assumption
    | with_reducible intro _
    | with_reducible apply kept_ite
    | with_reducible apply State.arriveFence_kept
    | with_reducible apply kept_bits
    | simp only [kept_mk_eq]
    | split

theorem execTakeoverBlankEnd_kept {s t' : State} (c : ChanNo) (e : execTakeoverBlankEnd c s = .next t') : Kept s t' := by
  have h := Kept.refl s
  unfold execTakeoverBlankEnd at e
  injection e with e
  subst e
  repeat' first
    | with_reducible exact h
    | with_reducible assumption
    | with_reducible intro _
    | with_reducible apply kept_ite
    | with_reducible apply State.modCh_kept
    | with_reducible apply kept_bits
    | simp only [kept_mk_eq]

theorem execFaultLogDrain_kept {s t' : State} (e : execFaultLogDrain s = .next t') : Kept s t' := by
  have h := Kept.refl s
  unfold execFaultLogDrain at e
  injection e with e
  subst e
  repeat' first
    | with_reducible exact h
    | with_reducible assumption
    | with_reducible intro _
    | with_reducible apply kept_ite
    | with_reducible apply State.drain_kept

theorem execCollectorVote_kept {s t' : State} (disagree : Option Nat) (e : execCollectorVote disagree s = .next t') : Kept s t' := by
  have h := Kept.refl s
  unfold execCollectorVote at e
  injection e with e
  subst e
  repeat' first
    | with_reducible exact h
    | with_reducible assumption
    | with_reducible intro _
    | with_reducible apply kept_ite
    | with_reducible apply State.safeEntry_kept
    | with_reducible apply State.faultLog_kept
    | dsimp only
    | split

theorem execErrorLineChange_kept {s t' : State} (k : Fin 26) (pair : Fin 4) (lasting : Bool) (e : execErrorLineChange k pair lasting s = .next t') : Kept s t' := by
  have h := Kept.refl s
  unfold execErrorLineChange at e
  injection e with e
  subst e
  repeat' first
    | with_reducible exact h
    | with_reducible assumption
    | with_reducible intro _
    | with_reducible apply kept_ite
    | with_reducible apply State.lineChange_kept

theorem execFltUnfence_kept {s t' : State} (h : Hdr) (src : Int) (e : execFltUnfence h src s = .next t') : Kept s t' := by
  injection e with e; subst e; exact State.kopIn_kept (Kept.refl s) _ _

theorem execUnfenceSelftestDone_kept {s t' : State} (found : SelftestOut) (e : execUnfenceSelftestDone found s = .next t') : Kept s t' := by
  have h := Kept.refl s
  unfold execUnfenceSelftestDone at e
  injection e with e
  subst e
  repeat' first
    | with_reducible exact h
    | with_reducible assumption
    | with_reducible intro _
    | with_reducible apply kept_ite
    | with_reducible apply State.releaseDone_kept

theorem execFltSafe_kept {s t' : State} (h : Hdr) (e : execFltSafe h s = .next t') : Kept s t' := by
  injection e with e; subst e; exact State.kopIn_kept (Kept.refl s) _ _

theorem execFltLogClear_kept {s t' : State} (h : Hdr) (e : execFltLogClear h s = .next t') : Kept s t' := by
  injection e with e; subst e; exact State.kopIn_kept (Kept.refl s) _ _

theorem execFltN_kept {s t' : State} (h : Hdr) (t : Fin 23) (v : Int) (e : execFltN h t v s = .next t') : Kept s t' := by
  injection e with e; subst e; exact State.kopIn_kept (Kept.refl s) _ _

theorem execFltW_kept {s t' : State} (h : Hdr) (t : Fin 23) (v : Int) (e : execFltW h t v s = .next t') : Kept s t' := by
  injection e with e; subst e; exact State.kopIn_kept (Kept.refl s) _ _

theorem execFrameReceive_kept {s t' : State} (f : Frame) (e : execFrameReceive f s = .next t') : Kept s t' := by
  have h := Kept.refl s
  unfold execFrameReceive at e
  injection e with e
  subst e
  repeat' first
    | with_reducible exact h
    | with_reducible assumption
    | with_reducible intro _
    | with_reducible apply kept_ite
    | with_reducible apply State.frameIn_kept

theorem execNetMode_kept {s t' : State} (h : Hdr) (n : Fin 2) (v : Int) (e : execNetMode h n v s = .next t') : Kept s t' := by
  injection e with e; subst e; exact State.kopIn_kept (Kept.refl s) _ _

theorem execNetAn_kept {s t' : State} (h : Hdr) (n : Fin 2) (v : Int) (e : execNetAn h n v s = .next t') : Kept s t' := by
  injection e with e; subst e; exact State.kopIn_kept (Kept.refl s) _ _

theorem execLinkUp_kept {s t' : State} (n : Fin 2) (e : execLinkUp n s = .next t') : Kept s t' := by
  have h := Kept.refl s
  unfold execLinkUp at e
  injection e with e
  subst e
  repeat' first
    | with_reducible exact h
    | with_reducible assumption
    | with_reducible intro _
    | with_reducible apply kept_ite
    | with_reducible apply State.linkOn_kept
    | with_reducible apply State.ptpMoved_kept

theorem execLinkDown_kept {s t' : State} (n : Fin 2) (errorsOnly : Bool) (e : execLinkDown n errorsOnly s = .next t') : Kept s t' := by
  have h := Kept.refl s
  unfold execLinkDown at e
  injection e with e
  subst e
  repeat' first
    | with_reducible exact h
    | with_reducible assumption
    | with_reducible intro _
    | with_reducible apply kept_ite
    | with_reducible apply State.report_kept
    | with_reducible apply State.linkOff_kept
    | with_reducible apply State.ptpMoved_kept

theorem execStreamPortReturn_kept {s t' : State} (st : Fin 32) (e : execStreamPortReturn st s = .next t') : Kept s t' := by
  have h := Kept.refl s
  unfold execStreamPortReturn at e
  injection e with e
  subst e
  repeat' first
    | with_reducible exact h
    | with_reducible assumption
    | with_reducible intro _
    | with_reducible apply kept_ite
    | with_reducible apply State.streamReturn_kept

theorem execDhcpMessage_kept {s t' : State} (n : Fin 2) (m : DhcpIn) (e : execDhcpMessage n m s = .next t') : Kept s t' := by
  have h := Kept.refl s
  unfold execDhcpMessage at e
  injection e with e
  subst e
  repeat' first
    | with_reducible exact h
    | with_reducible assumption
    | with_reducible intro _
    | with_reducible apply kept_ite
    | with_reducible apply State.dhcpTake_kept

theorem execDhcpDiscoverRetry_kept {s t' : State} (n : Fin 2) (e : execDhcpDiscoverRetry n s = .next t') : Kept s t' := by
  have h := Kept.refl s
  unfold execDhcpDiscoverRetry at e
  injection e with e
  subst e
  repeat' first
    | with_reducible exact h
    | with_reducible assumption
    | with_reducible intro _
    | with_reducible apply kept_ite
    | with_reducible apply State.modPort_kept
    | with_reducible apply State.dhcpSend_kept
    | with_reducible apply kept_bits
    | simp only [kept_mk_eq]

theorem execDhcpRenew_kept {s t' : State} (n : Fin 2) (e : execDhcpRenew n s = .next t') : Kept s t' := by
  have h := Kept.refl s
  unfold execDhcpRenew at e
  injection e with e
  subst e
  repeat' first
    | with_reducible exact h
    | with_reducible assumption
    | with_reducible intro _
    | with_reducible apply kept_ite
    | with_reducible apply State.modPort_kept
    | with_reducible apply State.dhcpSend_kept
    | with_reducible apply kept_bits
    | simp only [kept_mk_eq]

theorem execDhcpRebind_kept {s t' : State} (n : Fin 2) (e : execDhcpRebind n s = .next t') : Kept s t' := by
  have h := Kept.refl s
  unfold execDhcpRebind at e
  injection e with e
  subst e
  repeat' first
    | with_reducible exact h
    | with_reducible assumption
    | with_reducible intro _
    | with_reducible apply kept_ite
    | with_reducible apply State.modPort_kept
    | with_reducible apply State.dhcpSend_kept
    | with_reducible apply kept_bits
    | simp only [kept_mk_eq]

theorem execDhcpLeaseExpiry_kept {s t' : State} (n : Fin 2) (e : execDhcpLeaseExpiry n s = .next t') : Kept s t' := by
  have h := Kept.refl s
  unfold execDhcpLeaseExpiry at e
  injection e with e
  subst e
  repeat' first
    | with_reducible exact h
    | with_reducible assumption
    | with_reducible intro _
    | with_reducible apply kept_ite
    | with_reducible apply State.modPort_kept
    | with_reducible apply State.setAddr_kept
    | with_reducible apply State.dhcpStart_kept
    | with_reducible apply kept_bits
    | simp only [kept_mk_eq]

theorem execArpRequest_kept {s t' : State} (n : Fin 2) (senderIp senderMac targetIp : Nat) (e : execArpRequest n senderIp senderMac targetIp s = .next t') : Kept s t' := by
  have h := Kept.refl s
  unfold execArpRequest at e
  injection e with e
  subst e
  repeat' first
    | with_reducible exact h
    | with_reducible assumption
    | with_reducible intro _
    | with_reducible apply kept_ite
    | with_reducible apply State.arpTake_kept

theorem execArpCacheExpiry_kept {s t' : State} (n : Fin 2) (ip : Nat) (e : execArpCacheExpiry n ip s = .next t') : Kept s t' := by
  have h := Kept.refl s
  unfold execArpCacheExpiry at e
  injection e with e
  subst e
  repeat' first
    | with_reducible exact h
    | with_reducible assumption
    | with_reducible intro _
    | with_reducible apply kept_ite
    | with_reducible apply kept_each
    | with_reducible apply State.modPort_kept
    | with_reducible apply State.streamAsk_kept
    | with_reducible apply kept_bits
    | simp only [kept_mk_eq]

theorem execArpRetry_kept {s t' : State} (n : Fin 2) (ip : Nat) (e : execArpRetry n ip s = .next t') : Kept s t' := by
  have h := Kept.refl s
  unfold execArpRetry at e
  injection e with e
  subst e
  repeat' first
    | with_reducible exact h
    | with_reducible assumption
    | with_reducible intro _
    | with_reducible apply kept_ite
    | with_reducible apply State.modPort_kept
    | with_reducible apply State.arpAsk_kept
    | with_reducible apply kept_bits
    | simp only [kept_mk_eq]

theorem execIcmpEcho_kept {s t' : State} (n : Fin 2) (srcIp srcMac : Nat) (data : List Byte) (e : execIcmpEcho n srcIp srcMac data s = .next t') : Kept s t' := by
  have h := Kept.refl s
  unfold execIcmpEcho at e
  injection e with e
  subst e
  repeat' first
    | with_reducible exact h
    | with_reducible assumption
    | with_reducible intro _
    | with_reducible apply kept_ite
    | with_reducible apply State.icmpTake_kept

theorem execPtpMessage_kept {s t' : State} (n : Fin 2) (m : PtpIn) (e : execPtpMessage n m s = .next t') : Kept s t' := by
  have h := Kept.refl s
  unfold execPtpMessage at e
  injection e with e
  subst e
  repeat' first
    | with_reducible exact h
    | with_reducible assumption
    | with_reducible intro _
    | with_reducible apply kept_ite
    | with_reducible apply State.ptpTake_kept

theorem execPtpDelayReqSend_kept {s t' : State} (e : execPtpDelayReqSend s = .next t') : Kept s t' := by
  have h := Kept.refl s
  unfold execPtpDelayReqSend at e
  injection e with e
  subst e
  repeat' first
    | with_reducible exact h
    | with_reducible assumption
    | with_reducible intro _
    | with_reducible apply kept_ite
    | with_reducible apply State.sendFrame_kept
    | with_reducible apply kept_bits
    | simp only [kept_mk_eq]

theorem execPtpTimeout_kept {s t' : State} (e : execPtpTimeout s = .next t') : Kept s t' := by
  have h := Kept.refl s
  unfold execPtpTimeout at e
  injection e with e
  subst e
  repeat' first
    | with_reducible exact h
    | with_reducible assumption
    | with_reducible intro _
    | with_reducible apply kept_ite
    | with_reducible apply State.servoTimeout_kept

theorem execTimeSrc_kept {s t' : State} (h : Hdr) (v : Int) (e : execTimeSrc h v s = .next t') : Kept s t' := by
  injection e with e; subst e; exact State.kopIn_kept (Kept.refl s) _ _

theorem execPpsinEdge_kept {s t' : State} (e : execPpsinEdge s = .next t') : Kept s t' := by
  have h := Kept.refl s
  unfold execPpsinEdge at e
  injection e with e
  subst e
  repeat' first
    | with_reducible exact h
    | with_reducible assumption
    | with_reducible intro _
    | with_reducible apply kept_ite
    | with_reducible apply State.ppsEdge_kept

theorem execPpsoutPulse_kept {s t' : State} (e : execPpsoutPulse s = .next t') : Kept s t' := by
  have h := Kept.refl s
  unfold execPpsoutPulse at e
  injection e with e
  subst e
  repeat' first
    | with_reducible exact h
    | with_reducible assumption
    | with_reducible intro _
    | with_reducible apply kept_ite
    | with_reducible apply State.edge_kept
    | with_reducible apply kept_bits
    | simp only [kept_mk_eq]

theorem execStreamEnable_kept {s t' : State} (h : Hdr) (st : Fin 32) (e : execStreamEnable h st s = .next t') : Kept s t' := by
  injection e with e; subst e; exact State.kopIn_kept (Kept.refl s) _ _

theorem execStreamArpResolved_kept {s t' : State} (st : Fin 32) (n : Fin 2) (mac : Nat) (e : execStreamArpResolved st n mac s = .next t') : Kept s t' := by
  have h := Kept.refl s
  unfold execStreamArpResolved at e
  injection e with e
  subst e
  repeat' first
    | with_reducible exact h
    | with_reducible assumption
    | with_reducible intro _
    | with_reducible apply kept_ite
    | with_reducible apply State.arpLearn_kept
    | with_reducible apply State.streamTry_kept

theorem execStreamDisable_kept {s t' : State} (h : Hdr) (st : Fin 32) (e : execStreamDisable h st s = .next t') : Kept s t' := by
  injection e with e; subst e; exact State.kopIn_kept (Kept.refl s) _ _

theorem execStreamPacketSend_kept {s t' : State} (n : Fin 2) (readUe : List Nat) (e : execStreamPacketSend n readUe s = .next t') : Kept s t' := by
  have h := Kept.refl s
  unfold execStreamPacketSend at e
  injection e with e
  subst e
  repeat' first
    | with_reducible exact h
    | with_reducible assumption
    | with_reducible intro _
    | with_reducible apply kept_ite
    | with_reducible apply State.sendPacket_kept

theorem execSpBusIdle_kept {s t' : State} (n : Fin 2) (e : execSpBusIdle n s = .next t') : Kept s t' := by
  have h := Kept.refl s
  unfold execSpBusIdle at e
  injection e with e
  subst e
  repeat' first
    | with_reducible exact h
    | with_reducible assumption
    | with_reducible intro _
    | with_reducible apply kept_ite
    | with_reducible apply State.mtxRestart_kept
    | with_reducible apply State.sp1Idle_kept

theorem execSpCollision_kept {s t' : State} (n : Fin 2) (line : Fin 8) (replies : List Nat) (e : execSpCollision n line replies s = .next t') : Kept s t' := by
  have h := Kept.refl s
  unfold execSpCollision at e
  injection e with e
  subst e
  repeat' first
    | with_reducible exact h
    | with_reducible assumption
    | with_reducible intro _
    | with_reducible apply kept_ite
    | with_reducible apply State.collide_kept
    | with_reducible apply State.replies_kept

theorem execSlaveSelectAssert_kept {s t' : State} (e : execSlaveSelectAssert s = .next t') : Kept s t' := by
  have h := Kept.refl s
  unfold execSlaveSelectAssert at e
  injection e with e
  subst e
  repeat' first
    | with_reducible exact h
    | with_reducible assumption
    | with_reducible intro _
    | with_reducible apply kept_ite
    | with_reducible apply State.slaveSelect_kept

theorem execSlaveWordComplete_kept {s t' : State} (w : Nat) (e : execSlaveWordComplete w s = .next t') : Kept s t' := by
  have h := Kept.refl s
  unfold execSlaveWordComplete at e
  injection e with e
  subst e
  repeat' first
    | with_reducible exact h
    | with_reducible assumption
    | with_reducible intro _
    | with_reducible apply kept_ite
    | with_reducible apply State.slaveDone_kept

theorem execSlavePartial_kept {s t' : State} (e : execSlavePartial s = .next t') : Kept s t' := by
  have h := Kept.refl s
  unfold execSlavePartial at e
  injection e with e
  subst e
  repeat' first
    | with_reducible exact h
    | with_reducible assumption
    | with_reducible intro _
    | with_reducible apply kept_ite
    | with_reducible apply State.slaveCut_kept

theorem execSp1Go_kept {s t' : State} (h : Hdr) (sel : Int) (e : execSp1Go h sel s = .next t') : Kept s t' := by
  injection e with e; subst e; exact State.kopIn_kept (Kept.refl s) _ _

theorem execSp1Poll_kept {s t' : State} (m : Nat) (e : execSp1Poll m s = .next t') : Kept s t' := by
  have h := Kept.refl s
  unfold execSp1Poll at e
  injection e with e
  subst e
  repeat' first
    | with_reducible exact h
    | with_reducible assumption
    | with_reducible intro _
    | with_reducible apply kept_ite
    | with_reducible apply State.sp1PollDue_kept

theorem execSp1ListEnd_kept {s t' : State} (replies : List Nat) (strobeErr : Bool) (e : execSp1ListEnd replies strobeErr s = .next t') : Kept s t' := by
  have h := Kept.refl s
  unfold execSp1ListEnd at e
  injection e with e
  subst e
  repeat' first
    | with_reducible exact h
    | with_reducible assumption
    | with_reducible intro _
    | with_reducible apply kept_ite
    | with_reducible apply State.strobeError_kept
    | with_reducible apply State.sp1End_kept
    | with_reducible apply State.replies_kept
    | split

theorem execSp1MbTx_kept {s t' : State} (h : Hdr) (words : List Nat) (e : execSp1MbTx h words s = .next t') : Kept s t' := by
  injection e with e; subst e; exact State.kopIn_kept (Kept.refl s) _ _

theorem execSp1MbRx_kept {s t' : State} (h : Hdr) (e : execSp1MbRx h s = .next t') : Kept s t' := by
  injection e with e; subst e; exact State.kopIn_kept (Kept.refl s) _ _

theorem execSpRestart_kept {s t' : State} (h : Hdr) (n : Fin 2) (e : execSpRestart h n s = .next t') : Kept s t' := by
  injection e with e; subst e; exact State.kopIn_kept (Kept.refl s) _ _

theorem execSpClear_kept {s t' : State} (h : Hdr) (n : Fin 2) (e : execSpClear h n s = .next t') : Kept s t' := by
  injection e with e; subst e; exact State.kopIn_kept (Kept.refl s) _ _

theorem execPairEnable_kept {s t' : State} (h : Hdr) (e : execPairEnable h s = .next t') : Kept s t' := by
  injection e with e; subst e; exact State.kopIn_kept (Kept.refl s) _ _

theorem execPairForm_kept {s t' : State} (p : Partner) (e : execPairForm p s = .next t') : Kept s t' := by
  have h := Kept.refl s
  unfold execPairForm at e
  injection e with e
  subst e
  repeat' first
    | with_reducible exact h
    | with_reducible assumption
    | with_reducible intro _
    | with_reducible apply kept_ite
    | with_reducible apply State.form_kept
    | dsimp only

theorem execPairDissolve_kept {s t' : State} (h : Hdr) (e : execPairDissolve h s = .next t') : Kept s t' := by
  injection e with e; subst e; exact State.kopIn_kept (Kept.refl s) _ _

theorem execHeartbeat_kept {s t' : State} (b : Beat) (e : execHeartbeat b s = .next t') : Kept s t' := by
  have h := Kept.refl s
  unfold execHeartbeat at e
  injection e with e
  subst e
  repeat' first
    | with_reducible exact h
    | with_reducible assumption
    | with_reducible intro _
    | with_reducible apply kept_ite
    | with_reducible apply State.beat_kept

theorem execStateCell_kept {s t' : State} (lane : Nat) (items : List (Nat × MirrorState)) (e : execStateCell lane items s = .next t') : Kept s t' := by
  have h := Kept.refl s
  unfold execStateCell at e
  injection e with e
  subst e
  repeat' first
    | with_reducible exact h
    | with_reducible assumption
    | with_reducible intro _
    | with_reducible apply kept_ite
    | with_reducible apply kept_each
    | with_reducible apply State.cellIn_kept
    | with_reducible apply State.mirrorIn_kept
    | with_reducible apply kept_bits

theorem execConfigCell_kept {s t' : State} (lane : Nat) (items : List MirrorConfig) (e : execConfigCell lane items s = .next t') : Kept s t' := by
  have h := Kept.refl s
  unfold execConfigCell at e
  injection e with e
  subst e
  repeat' first
    | with_reducible exact h
    | with_reducible assumption
    | with_reducible intro _
    | with_reducible apply kept_ite
    | with_reducible apply kept_each
    | with_reducible apply State.cellIn_kept
    | with_reducible apply State.mirrorConfig_kept
    | with_reducible apply kept_bits

theorem execFailCell_kept {s t' : State} (lane : Nat) (e : execFailCell lane s = .next t') : Kept s t' := by
  have h := Kept.refl s
  unfold execFailCell at e
  injection e with e
  subst e
  repeat' first
    | with_reducible exact h
    | with_reducible assumption
    | with_reducible intro _
    | with_reducible apply kept_ite
    | with_reducible apply kept_each
    | with_reducible apply State.cellIn_kept
    | with_reducible apply State.trigger_kept
    | with_reducible apply kept_bits

theorem execGroupFailCell_kept {s t' : State} (lane : Nat) (g : GroupNo) (e : execGroupFailCell lane g s = .next t') : Kept s t' := by
  have h := Kept.refl s
  unfold execGroupFailCell at e
  injection e with e
  subst e
  repeat' first
    | with_reducible exact h
    | with_reducible assumption
    | with_reducible intro _
    | with_reducible apply kept_ite
    | with_reducible apply State.cellIn_kept
    | with_reducible apply State.trigger_kept

theorem execHandoverCell_kept {s t' : State} (lane : Nat) (g : GroupNo) (left : Nat) (e : execHandoverCell lane g left s = .next t') : Kept s t' := by
  have h := Kept.refl s
  unfold execHandoverCell at e
  injection e with e
  subst e
  repeat' first
    | with_reducible exact h
    | with_reducible assumption
    | with_reducible intro _
    | with_reducible apply kept_ite
    | with_reducible apply State.cellIn_kept
    | with_reducible apply State.modGr_kept
    | with_reducible apply State.sendCell_kept
    | with_reducible apply kept_bits
    | simp only [kept_mk_eq]

theorem execAckCell_kept {s t' : State} (lane : Nat) (g : GroupNo) (e : execAckCell lane g s = .next t') : Kept s t' := by
  have h := Kept.refl s
  unfold execAckCell at e
  injection e with e
  subst e
  repeat' first
    | with_reducible exact h
    | with_reducible assumption
    | with_reducible intro _
    | with_reducible apply kept_ite
    | with_reducible apply State.cellIn_kept
    | with_reducible apply State.modGr_kept
    | with_reducible apply kept_bits
    | simp only [kept_mk_eq]

theorem execPairHandover_kept {s t' : State} (h : Hdr) (g : GroupNo) (e : execPairHandover h g s = .next t') : Kept s t' := by
  injection e with e; subst e; exact State.kopIn_kept (Kept.refl s) _ _

theorem execHandoverAckTimeout_kept {s t' : State} (g : GroupNo) (e : execHandoverAckTimeout g s = .next t') : Kept s t' := by
  have h := Kept.refl s
  unfold execHandoverAckTimeout at e
  injection e with e
  subst e
  repeat' first
    | with_reducible exact h
    | with_reducible assumption
    | with_reducible intro _
    | with_reducible apply kept_ite
    | with_reducible apply State.giveEnd_kept
    | dsimp only

theorem execLaneDown_kept {s t' : State} (lane : Fin 4) (e : execLaneDown lane s = .next t') : Kept s t' := by
  have h := Kept.refl s
  unfold execLaneDown at e
  injection e with e
  subst e
  repeat' first
    | with_reducible exact h
    | with_reducible assumption
    | with_reducible intro _
    | with_reducible apply kept_ite
    | with_reducible apply State.wr_kept
    | with_reducible apply State.report_kept
    | dsimp only

theorem execHeartbeatLoss_kept {s t' : State} (e : execHeartbeatLoss s = .next t') : Kept s t' := by
  have h := Kept.refl s
  unfold execHeartbeatLoss at e
  injection e with e
  subst e
  repeat' first
    | with_reducible exact h
    | with_reducible assumption
    | with_reducible intro _
    | with_reducible apply kept_ite
    | with_reducible apply State.linkLost_kept
    | with_reducible apply State.partnerDead_kept
    | with_reducible apply kept_bits
    | simp only [kept_mk_eq]

theorem execWitnessSilent_kept {s t' : State} (e : execWitnessSilent s = .next t') : Kept s t' := by
  have h := Kept.refl s
  unfold execWitnessSilent at e
  injection e with e
  subst e
  repeat' first
    | with_reducible exact h
    | with_reducible assumption
    | with_reducible intro _
    | with_reducible apply kept_ite
    | with_reducible apply State.partnerDead_kept
    | with_reducible apply kept_bits
    | simp only [kept_mk_eq]

theorem execWitnessToggle_kept {s t' : State} (m : Nat) (e : execWitnessToggle m s = .next t') : Kept s t' := by
  have h := Kept.refl s
  unfold execWitnessToggle at e
  injection e with e
  subst e
  repeat' first
    | with_reducible exact h
    | with_reducible assumption
    | with_reducible intro _
    | with_reducible apply kept_ite
    | with_reducible apply kept_bits
    | simp only [kept_mk_eq]

theorem execSramScrubSlice_kept {s t' : State} (found : List ScrubFind) (free : Bool) (e : execSramScrubSlice found free s = .next t') : Kept s t' := by
  have h := Kept.refl s
  unfold execSramScrubSlice at e
  injection e with e
  subst e
  repeat' first
    | with_reducible exact h
    | with_reducible assumption
    | with_reducible intro _
    | with_reducible apply kept_ite
    | with_reducible apply kept_each
    | with_reducible apply State.started_kept
    | with_reducible apply State.sramFind_kept
    | with_reducible apply State.inc_kept
    | with_reducible apply State.wr_kept
    | with_reducible apply kept_bits
    | simp only [kept_mk_eq]

theorem execNvmScrubSlice_kept {s t' : State} (found : List ScrubFind) (free : Bool) (e : execNvmScrubSlice found free s = .next t') : Kept s t' := by
  have h := Kept.refl s
  unfold execNvmScrubSlice at e
  injection e with e
  subst e
  repeat' first
    | with_reducible exact h
    | with_reducible assumption
    | with_reducible intro _
    | with_reducible apply kept_ite
    | with_reducible apply kept_each
    | with_reducible apply State.started_kept
    | with_reducible apply State.nvmFind_kept
    | with_reducible apply State.nvmPut_kept
    | with_reducible apply State.wr_kept
    | with_reducible apply kept_bits
    | simp only [kept_mk_eq]

theorem kept_drn {s₀ s : State} {x : Drone} (h : Kept s₀ s) : Kept s₀ { s with drn := x } := h

theorem execLogCopy_kept {s t' : State} (free : Bool) (e : execLogCopy free s = .next t') : Kept s t' := by
  have h := State.started_kept (Kept.refl s) .DRN_LATE_LOG s.drn.dueLog 500000000
  unfold execLogCopy at e
  split at e <;> (injection e with e; subst e)
  · exact Kept.refl s
  · exact State.copyLogs_kept (kept_drn h)

theorem execTelemetryFrame_kept {s t' : State} (m : Measured) (free : Bool) (e : execTelemetryFrame m free s = .next t') : Kept s t' := by
  have h := Kept.refl s
  unfold execTelemetryFrame at e
  injection e with e
  subst e
  repeat' first
    | with_reducible exact h
    | with_reducible assumption
    | with_reducible intro _
    | with_reducible apply kept_ite
    | with_reducible apply State.inc_kept
    | with_reducible apply State.telemetry_kept
    | with_reducible apply kept_bits
    | simp only [kept_mk_eq]

theorem execLineTest_kept {s t' : State} (wires : List (Nat × Nat)) (e : execLineTest wires s = .next t') : Kept s t' := by
  have h := Kept.refl s
  unfold execLineTest at e
  injection e with e
  subst e
  repeat' first
    | with_reducible exact h
    | with_reducible assumption
    | with_reducible intro _
    | with_reducible apply kept_ite
    | with_reducible apply kept_each
    | with_reducible apply State.report_kept
    | with_reducible apply State.inc_kept
    | with_reducible apply kept_bits
    | simp only [kept_mk_eq]

theorem execNvmPageFlush_kept {s t' : State} (bank page : Nat) (verified : Bool) (e : execNvmPageFlush bank page verified s = .next t') : Kept s t' := by
  have h := Kept.refl s
  unfold execNvmPageFlush at e
  injection e with e
  subst e
  repeat' first
    | with_reducible exact h
    | with_reducible assumption
    | with_reducible intro _
    | with_reducible apply kept_ite
    | with_reducible apply State.pageFlush_kept

theorem execBankCopyDone_kept {s t' : State} (e : execBankCopyDone s = .next t') : Kept s t' := by
  have h := Kept.refl s
  unfold execBankCopyDone at e
  injection e with e
  subst e
  repeat' first
    | with_reducible exact h
    | with_reducible assumption
    | with_reducible intro _
    | with_reducible apply kept_ite
    | with_reducible apply kept_each
    | with_reducible apply State.leaveReserve_kept
    | with_reducible apply State.pageWrite_kept
    | with_reducible apply State.wr_kept
    | with_reducible apply kept_bits
    | simp only [kept_mk_eq]
    | split

theorem execRtcRealign_kept {s t' : State} (e : execRtcRealign s = .next t') : Kept s t' := by
  have h := Kept.refl s
  unfold execRtcRealign at e
  injection e with e
  subst e
  repeat' first
    | with_reducible exact h
    | with_reducible assumption
    | with_reducible intro _
    | with_reducible apply kept_ite
    | with_reducible apply State.wr_kept
    | with_reducible apply kept_bits
    | simp only [kept_mk_eq]

theorem execRtcTrimStore_kept {s t' : State} (ppb : Int) (e : execRtcTrimStore ppb s = .next t') : Kept s t' := by
  have h := Kept.refl s
  unfold execRtcTrimStore at e
  injection e with e
  subst e
  repeat' first
    | with_reducible exact h
    | with_reducible assumption
    | with_reducible intro _
    | with_reducible apply kept_ite
    | with_reducible apply State.nvmPut_kept
    | with_reducible apply kept_bits
    | simp only [kept_mk_eq]

theorem execRtcSet_kept {s t' : State} (h : Hdr) (t : Int) (e : execRtcSet h t s = .next t') : Kept s t' := by
  injection e with e; subst e; exact State.kopIn_kept (Kept.refl s) _ _

theorem execSupplyReturn_kept {s t' : State} (e : execSupplyReturn s = .next t') : Kept s t' := by
  have h := Kept.refl s
  unfold execSupplyReturn at e
  injection e with e
  subst e
  repeat' first
    | with_reducible exact h
    | with_reducible assumption
    | with_reducible intro _
    | with_reducible apply kept_ite
    | with_reducible apply State.railsBack_kept

theorem execNrst_kept {s t' : State} (e : execNrst s = .next t') : Kept s t' := by
  have h := Kept.refl s
  unfold execNrst at e
  injection e with e
  subst e
  repeat' first
    | with_reducible exact h
    | with_reducible assumption
    | with_reducible intro _
    | with_reducible apply kept_ite
    | with_reducible refine State.restart_kept ?_ (by decide)

theorem execSysReset_kept {s t' : State} (h : Hdr) (e : execSysReset h s = .next t') : Kept s t' := by
  injection e with e; subst e; exact State.kopIn_kept (Kept.refl s) _ _

theorem execBootStageComplete_kept {s t' : State} (b : BootIn) (e : execBootStageComplete b s = .next t') : Kept s t' := by
  have h := Kept.refl s
  unfold execBootStageComplete at e
  injection e with e
  subst e
  repeat' first
    | with_reducible exact h
    | with_reducible assumption
    | with_reducible intro _
    | with_reducible apply kept_ite
    | with_reducible apply State.bootStage0_kept
    | with_reducible apply State.bootStage1_kept
    | with_reducible apply State.bootStage2_kept
    | with_reducible apply State.bootStage3_kept
    | with_reducible apply State.bootStage4_kept
    | split

theorem execBootRefclkTimeout_kept {s t' : State} (e : execBootRefclkTimeout s = .next t') : Kept s t' := by
  have h := Kept.refl s
  unfold execBootRefclkTimeout at e
  injection e with e
  subst e
  repeat' first
    | with_reducible exact h
    | with_reducible assumption
    | with_reducible intro _
    | with_reducible apply kept_ite
    | with_reducible apply State.report_kept

theorem execGroupPowerDown_kept {s t' : State} (h : Hdr) (g : GroupNo) (e : execGroupPowerDown h g s = .next t') : Kept s t' := by
  injection e with e; subst e; exact State.kopIn_kept (Kept.refl s) _ _

theorem execGroupPowerUp_kept {s t' : State} (h : Hdr) (g : GroupNo) (e : execGroupPowerUp h g s = .next t') : Kept s t' := by
  injection e with e; subst e; exact State.kopIn_kept (Kept.refl s) _ _

theorem execPwrCmd_kept {s t' : State} (h : Hdr) (e : execPwrCmd h s = .next t') : Kept s t' := by
  injection e with e; subst e; exact State.kopIn_kept (Kept.refl s) _ _

theorem execSleepRampsDone_kept {s t' : State} (e : execSleepRampsDone s = .next t') : Kept s t' := by
  have h := Kept.refl s
  unfold execSleepRampsDone at e
  injection e with e
  subst e
  repeat' first
    | with_reducible exact h
    | with_reducible assumption
    | with_reducible intro _
    | with_reducible apply kept_ite
    | with_reducible apply State.sleepRamped_kept

theorem execSleepQuiesceDone_kept {s t' : State} (e : execSleepQuiesceDone s = .next t') : Kept s t' := by
  have h := Kept.refl s
  unfold execSleepQuiesceDone at e
  injection e with e
  subst e
  repeat' first
    | with_reducible exact h
    | with_reducible assumption
    | with_reducible intro _
    | with_reducible apply kept_ite
    | with_reducible apply State.sleepQuiet_kept

theorem execSleepCommitDone_kept {s t' : State} (e : execSleepCommitDone s = .next t') : Kept s t' := by
  have h := Kept.refl s
  unfold execSleepCommitDone at e
  injection e with e
  subst e
  repeat' first
    | with_reducible exact h
    | with_reducible assumption
    | with_reducible intro _
    | with_reducible apply kept_ite
    | with_reducible apply State.sleepCommitted_kept

theorem execSleepPowerDown_kept {s t' : State} (e : execSleepPowerDown s = .next t') : Kept s t' := by
  have h := Kept.refl s
  unfold execSleepPowerDown at e
  injection e with e
  subst e
  repeat' first
    | with_reducible exact h
    | with_reducible assumption
    | with_reducible intro _
    | with_reducible apply kept_ite
    | with_reducible apply State.sleepNow_kept

theorem execSleepUntilReached_kept {s t' : State} (e : execSleepUntilReached s = .next t') : Kept s t' := by
  have h := Kept.refl s
  unfold execSleepUntilReached at e
  injection e with e
  subst e
  repeat' first
    | with_reducible exact h
    | with_reducible assumption
    | with_reducible intro _
    | with_reducible apply kept_ite
    | with_reducible apply State.wakeBy_kept

theorem execWakeComplete_kept {s t' : State} (e : execWakeComplete s = .next t') : Kept s t' := by
  have h := Kept.refl s
  unfold execWakeComplete at e
  injection e with e
  subst e
  repeat' first
    | with_reducible exact h
    | with_reducible assumption
    | with_reducible intro _
    | with_reducible apply kept_ite
    | with_reducible apply State.woken_kept

theorem execVddcStepUp_kept {s t' : State} (e : execVddcStepUp s = .next t') : Kept s t' := by
  have h := Kept.refl s
  unfold execVddcStepUp at e
  injection e with e
  subst e
  repeat' first
    | with_reducible exact h
    | with_reducible assumption
    | with_reducible intro _
    | with_reducible apply kept_ite
    | with_reducible apply State.vddcUp_kept

theorem execVddcStepDown_kept {s t' : State} (e : execVddcStepDown s = .next t') : Kept s t' := by
  have h := Kept.refl s
  unfold execVddcStepDown at e
  injection e with e
  subst e
  repeat' first
    | with_reducible exact h
    | with_reducible assumption
    | with_reducible intro _
    | with_reducible apply kept_ite
    | with_reducible apply State.vddcDown_kept

theorem execVddcFallback_kept {s t' : State} (meas : Nat) (e : execVddcFallback meas s = .next t') : Kept s t' := by
  have h := Kept.refl s
  unfold execVddcFallback at e
  injection e with e
  subst e
  repeat' first
    | with_reducible exact h
    | with_reducible assumption
    | with_reducible intro _
    | with_reducible apply kept_ite
    | with_reducible apply State.vddcFall_kept

theorem execPowerAccounting_kept {s t' : State} (avpp avnn : Int) (means : List (Nat × Int × Int)) (totalMw : Nat) (e : execPowerAccounting avpp avnn means totalMw s = .next t') : Kept s t' := by
  have h := Kept.refl s
  unfold execPowerAccounting at e
  injection e with e
  subst e
  repeat' first
    | with_reducible exact h
    | with_reducible assumption
    | with_reducible intro _
    | with_reducible apply kept_ite
    | with_reducible apply State.account_kept

theorem execPpsoutPulseEnd_kept {s t' : State} (e : execPpsoutPulseEnd s = .next t') : Kept s t' := by
  have h := Kept.refl s
  unfold execPpsoutPulseEnd at e
  injection e with e
  subst e
  repeat' first
    | with_reducible exact h
    | with_reducible assumption
    | with_reducible intro _
    | with_reducible apply kept_ite
    | with_reducible apply kept_bits
    | simp only [kept_mk_eq]

theorem execHostResetDelayExpiry_kept {s t' : State} (e : execHostResetDelayExpiry s = .next t') : Kept s t' := by
  have h := Kept.refl s
  unfold execHostResetDelayExpiry at e
  injection e with e
  subst e
  repeat' first
    | with_reducible exact h
    | with_reducible assumption
    | with_reducible intro _
    | with_reducible apply kept_ite
    | with_reducible refine State.restart_kept ?_ (by decide)
    | split

theorem execGroupPllLock_kept {s t' : State} (g : GroupNo) (e : execGroupPllLock g s = .next t') : Kept s t' := by
  have h := Kept.refl s
  unfold execGroupPllLock at e
  injection e with e
  subst e
  repeat' first
    | with_reducible exact h
    | with_reducible assumption
    | with_reducible intro _
    | with_reducible apply kept_ite
    | with_reducible apply State.pllLock_kept

theorem execLineErrWindowExpiry_kept {s t' : State} (k : Fin 26) (e : execLineErrWindowExpiry k s = .next t') : Kept s t' := by
  have h := Kept.refl s
  unfold execLineErrWindowExpiry at e
  injection e with e
  subst e
  repeat' first
    | with_reducible exact h
    | with_reducible assumption
    | with_reducible intro _
    | with_reducible apply kept_ite
    | with_reducible apply State.report_kept
    | with_reducible apply kept_bits
    | simp only [kept_mk_eq]

theorem execPairCellDiscard_kept {s t' : State} (lane : Fin 4) (e : execPairCellDiscard lane s = .next t') : Kept s t' := by
  have h := Kept.refl s
  unfold execPairCellDiscard at e
  injection e with e
  subst e
  repeat' first
    | with_reducible exact h
    | with_reducible assumption
    | with_reducible intro _
    | with_reducible apply kept_ite
    | with_reducible apply State.inc_kept

theorem execAnalogueRailsInside9V_kept {s t' : State} (e : execAnalogueRailsInside9V s = .next t') : Kept s t' := by
  have h := Kept.refl s
  unfold execAnalogueRailsInside9V at e
  injection e with e
  subst e
  repeat' first
    | with_reducible exact h
    | with_reducible assumption
    | with_reducible intro _
    | with_reducible apply kept_ite
    | with_reducible apply kept_each
    | with_reducible apply State.modCh_kept
    | with_reducible apply State.switches_kept
    | with_reducible apply State.safeIsolated_kept
    | with_reducible apply kept_bits
    | simp only [kept_mk_eq]

end Sys2Proof.Machine
end

