-- ==== Sys2Proof/Laws/State.lean ====
section
/-! SUPPORT. What each update of the state leaves as it was, and what reading a record back after an update gives. -/
namespace Sys2Proof.Machine
open Sys2Proof

variable (s : State)

/-! ### A record read back -/

@[simp] theorem State.ch_modCh (k : Nat) (f : Chan → Chan) : (s.modCh k f).ch k = f (s.ch k) :=
  SMap.get_put_same _ _ k _
theorem State.ch_modCh_other (f : Chan → Chan) {j k : Nat} (h : j ≠ k) : (s.modCh k f).ch j = s.ch j :=
  SMap.get_put_other _ _ _ h
@[simp] theorem State.gr_modGr (k : Nat) (f : Group → Group) : (s.modGr k f).gr k = f (s.gr k) :=
  SMap.get_put_same _ _ k _
theorem State.gr_modGr_other (f : Group → Group) {j k : Nat} (h : j ≠ k) : (s.modGr k f).gr j = s.gr j :=
  SMap.get_put_other _ _ _ h
@[simp] theorem State.sl_modSl (k : Nat) (f : SliceSt → SliceSt) : (s.modSl k f).sl k = f (s.sl k) :=
  SMap.get_put_same _ _ k _
theorem State.sl_modSl_other (f : SliceSt → SliceSt) {j k : Nat} (h : j ≠ k) : (s.modSl k f).sl j = s.sl j :=
  SMap.get_put_other _ _ _ h
@[simp] theorem State.se_modSe (k : Nat) (f : Session → Session) : (s.modSe k f).se k = f (s.se k) :=
  SMap.get_put_same _ _ k _
theorem State.se_modSe_other (f : Session → Session) {j k : Nat} (h : j ≠ k) : (s.modSe k f).se j = s.se j :=
  SMap.get_put_other _ _ _ h
@[simp] theorem State.st_modSt (k : Nat) (f : Stream → Stream) : (s.modSt k f).st k = f (s.st k) :=
  SMap.get_put_same _ _ k _
theorem State.st_modSt_other (f : Stream → Stream) {j k : Nat} (h : j ≠ k) : (s.modSt k f).st j = s.st j :=
  SMap.get_put_other _ _ _ h
@[simp] theorem State.port_modPort (n : Nat) (f : Port → Port) : (s.modPort n f).port n = f (s.port n) := by
  by_cases h : n = 0 <;> simp [State.modPort, State.port, h]
@[simp] theorem State.sp_modSp (n : Nat) (f : Serial → Serial) : (s.modSp n f).sp n = f (s.sp n) := by
  by_cases h : n = 0 <;> simp [State.modSp, State.sp, h]

/-! ### An object read back -/

@[simp] theorem State.rdV_wrV (o : Obj) (i e : Nat) (v : Val) : (s.wrV o i e v).rdV o i e = v :=
  SMap.get_put_same _ _ _ _
@[simp] theorem State.rd_wr (o : Obj) (i e : Nat) (v : Int) : (s.wr o i e v).rd o i e = v :=
  congrArg Val.int (s.rdV_wrV o i e (.num v))
theorem State.rdV_wrV_other (v : Val) {o p : Obj} {i j e f : Nat} (h : objKey p j f ≠ objKey o i e) :
    (s.wrV o i e v).rdV p j f = s.rdV p j f := by
  unfold State.rdV State.wrV
  dsimp only
  unfold SMap.put
  split
  · exact SMap.get_drop_other _ _ h
  · exact (SMap.get_place_other _ _ _ h).trans (SMap.get_drop_other _ _ h)
theorem State.rd_wr_other (v : Int) {o p : Obj} {i j e f : Nat} (h : objKey p j f ≠ objKey o i e) :
    (s.wr o i e v).rd p j f = s.rd p j f := congrArg Val.int (s.rdV_wrV_other (.num v) h)

/-! ### What an update leaves -/

section
variable (c : Nat) (f : Chan → Chan)
@[simp] theorem State.modCh_od : (s.modCh c f).od = s.od := rfl
@[simp] theorem State.modCh_slice : (s.modCh c f).slice = s.slice := rfl
@[simp] theorem State.modCh_grp : (s.modCh c f).grp = s.grp := rfl
@[simp] theorem State.modCh_sess : (s.modCh c f).sess = s.sess := rfl
@[simp] theorem State.modCh_orphans : (s.modCh c f).orphans = s.orphans := rfl
@[simp] theorem State.modCh_pend : (s.modCh c f).pend = s.pend := rfl
@[simp] theorem State.modCh_cal : (s.modCh c f).cal = s.cal := rfl
@[simp] theorem State.modCh_sweep : (s.modCh c f).sweep = s.sweep := rfl
@[simp] theorem State.modCh_flt : (s.modCh c f).flt = s.flt := rfl
@[simp] theorem State.modCh_rtr : (s.modCh c f).rtr = s.rtr := rfl
@[simp] theorem State.modCh_mtx : (s.modCh c f).mtx = s.mtx := rfl
@[simp] theorem State.modCh_sp0 : (s.modCh c f).sp0 = s.sp0 := rfl
@[simp] theorem State.modCh_sp1 : (s.modCh c f).sp1 = s.sp1 := rfl
@[simp] theorem State.modCh_mbox : (s.modCh c f).mbox = s.mbox := rfl
@[simp] theorem State.modCh_net0 : (s.modCh c f).net0 = s.net0 := rfl
@[simp] theorem State.modCh_net1 : (s.modCh c f).net1 = s.net1 := rfl
@[simp] theorem State.modCh_strm : (s.modCh c f).strm = s.strm := rfl
@[simp] theorem State.modCh_clk : (s.modCh c f).clk = s.clk := rfl
@[simp] theorem State.modCh_pair : (s.modCh c f).pair = s.pair := rfl
@[simp] theorem State.modCh_cfg : (s.modCh c f).cfg = s.cfg := rfl
@[simp] theorem State.modCh_nvm : (s.modCh c f).nvm = s.nvm := rfl
@[simp] theorem State.modCh_pwr : (s.modCh c f).pwr = s.pwr := rfl
@[simp] theorem State.modCh_drn : (s.modCh c f).drn = s.drn := rfl
@[simp] theorem State.modCh_mtrgo : (s.modCh c f).mtrgo = s.mtrgo := rfl
@[simp] theorem State.modCh_latch : (s.modCh c f).latch = s.latch := rfl
@[simp] theorem State.modCh_cause : (s.modCh c f).cause = s.cause := rfl
@[simp] theorem State.modCh_stopCause : (s.modCh c f).stopCause = s.stopCause := rfl
@[simp] theorem State.modCh_safeBreak : (s.modCh c f).safeBreak = s.safeBreak := rfl
@[simp] theorem State.modCh_nSafe : (s.modCh c f).nSafe = s.nSafe := rfl
@[simp] theorem State.modCh_tx : (s.modCh c f).tx = s.tx := rfl
@[simp] theorem State.modCh_fresh : (s.modCh c f).fresh = s.fresh := rfl
@[simp] theorem State.modCh_pending : (s.modCh c f).pending = s.pending := rfl
end

section
variable (g : Nat) (f : Group → Group)
@[simp] theorem State.modGr_od : (s.modGr g f).od = s.od := rfl
@[simp] theorem State.modGr_chan : (s.modGr g f).chan = s.chan := rfl
@[simp] theorem State.modGr_slice : (s.modGr g f).slice = s.slice := rfl
@[simp] theorem State.modGr_sess : (s.modGr g f).sess = s.sess := rfl
@[simp] theorem State.modGr_orphans : (s.modGr g f).orphans = s.orphans := rfl
@[simp] theorem State.modGr_pend : (s.modGr g f).pend = s.pend := rfl
@[simp] theorem State.modGr_cal : (s.modGr g f).cal = s.cal := rfl
@[simp] theorem State.modGr_sweep : (s.modGr g f).sweep = s.sweep := rfl
@[simp] theorem State.modGr_flt : (s.modGr g f).flt = s.flt := rfl
@[simp] theorem State.modGr_rtr : (s.modGr g f).rtr = s.rtr := rfl
@[simp] theorem State.modGr_mtx : (s.modGr g f).mtx = s.mtx := rfl
@[simp] theorem State.modGr_sp0 : (s.modGr g f).sp0 = s.sp0 := rfl
@[simp] theorem State.modGr_sp1 : (s.modGr g f).sp1 = s.sp1 := rfl
@[simp] theorem State.modGr_mbox : (s.modGr g f).mbox = s.mbox := rfl
@[simp] theorem State.modGr_net0 : (s.modGr g f).net0 = s.net0 := rfl
@[simp] theorem State.modGr_net1 : (s.modGr g f).net1 = s.net1 := rfl
@[simp] theorem State.modGr_strm : (s.modGr g f).strm = s.strm := rfl
@[simp] theorem State.modGr_clk : (s.modGr g f).clk = s.clk := rfl
@[simp] theorem State.modGr_pair : (s.modGr g f).pair = s.pair := rfl
@[simp] theorem State.modGr_cfg : (s.modGr g f).cfg = s.cfg := rfl
@[simp] theorem State.modGr_nvm : (s.modGr g f).nvm = s.nvm := rfl
@[simp] theorem State.modGr_pwr : (s.modGr g f).pwr = s.pwr := rfl
@[simp] theorem State.modGr_drn : (s.modGr g f).drn = s.drn := rfl
@[simp] theorem State.modGr_mtrgo : (s.modGr g f).mtrgo = s.mtrgo := rfl
@[simp] theorem State.modGr_latch : (s.modGr g f).latch = s.latch := rfl
@[simp] theorem State.modGr_cause : (s.modGr g f).cause = s.cause := rfl
@[simp] theorem State.modGr_stopCause : (s.modGr g f).stopCause = s.stopCause := rfl
@[simp] theorem State.modGr_safeBreak : (s.modGr g f).safeBreak = s.safeBreak := rfl
@[simp] theorem State.modGr_nSafe : (s.modGr g f).nSafe = s.nSafe := rfl
@[simp] theorem State.modGr_tx : (s.modGr g f).tx = s.tx := rfl
@[simp] theorem State.modGr_fresh : (s.modGr g f).fresh = s.fresh := rfl
@[simp] theorem State.modGr_pending : (s.modGr g f).pending = s.pending := rfl
end

section
variable (k : Nat) (f : SliceSt → SliceSt)
@[simp] theorem State.modSl_od : (s.modSl k f).od = s.od := rfl
@[simp] theorem State.modSl_chan : (s.modSl k f).chan = s.chan := rfl
@[simp] theorem State.modSl_grp : (s.modSl k f).grp = s.grp := rfl
@[simp] theorem State.modSl_sess : (s.modSl k f).sess = s.sess := rfl
@[simp] theorem State.modSl_orphans : (s.modSl k f).orphans = s.orphans := rfl
@[simp] theorem State.modSl_pend : (s.modSl k f).pend = s.pend := rfl
@[simp] theorem State.modSl_cal : (s.modSl k f).cal = s.cal := rfl
@[simp] theorem State.modSl_sweep : (s.modSl k f).sweep = s.sweep := rfl
@[simp] theorem State.modSl_flt : (s.modSl k f).flt = s.flt := rfl
@[simp] theorem State.modSl_rtr : (s.modSl k f).rtr = s.rtr := rfl
@[simp] theorem State.modSl_mtx : (s.modSl k f).mtx = s.mtx := rfl
@[simp] theorem State.modSl_sp0 : (s.modSl k f).sp0 = s.sp0 := rfl
@[simp] theorem State.modSl_sp1 : (s.modSl k f).sp1 = s.sp1 := rfl
@[simp] theorem State.modSl_mbox : (s.modSl k f).mbox = s.mbox := rfl
@[simp] theorem State.modSl_net0 : (s.modSl k f).net0 = s.net0 := rfl
@[simp] theorem State.modSl_net1 : (s.modSl k f).net1 = s.net1 := rfl
@[simp] theorem State.modSl_strm : (s.modSl k f).strm = s.strm := rfl
@[simp] theorem State.modSl_clk : (s.modSl k f).clk = s.clk := rfl
@[simp] theorem State.modSl_pair : (s.modSl k f).pair = s.pair := rfl
@[simp] theorem State.modSl_cfg : (s.modSl k f).cfg = s.cfg := rfl
@[simp] theorem State.modSl_nvm : (s.modSl k f).nvm = s.nvm := rfl
@[simp] theorem State.modSl_pwr : (s.modSl k f).pwr = s.pwr := rfl
@[simp] theorem State.modSl_drn : (s.modSl k f).drn = s.drn := rfl
@[simp] theorem State.modSl_mtrgo : (s.modSl k f).mtrgo = s.mtrgo := rfl
@[simp] theorem State.modSl_latch : (s.modSl k f).latch = s.latch := rfl
@[simp] theorem State.modSl_cause : (s.modSl k f).cause = s.cause := rfl
@[simp] theorem State.modSl_stopCause : (s.modSl k f).stopCause = s.stopCause := rfl
@[simp] theorem State.modSl_safeBreak : (s.modSl k f).safeBreak = s.safeBreak := rfl
@[simp] theorem State.modSl_nSafe : (s.modSl k f).nSafe = s.nSafe := rfl
@[simp] theorem State.modSl_tx : (s.modSl k f).tx = s.tx := rfl
@[simp] theorem State.modSl_fresh : (s.modSl k f).fresh = s.fresh := rfl
@[simp] theorem State.modSl_pending : (s.modSl k f).pending = s.pending := rfl
end

section
variable (n : Nat) (f : Session → Session)
@[simp] theorem State.modSe_od : (s.modSe n f).od = s.od := rfl
@[simp] theorem State.modSe_chan : (s.modSe n f).chan = s.chan := rfl
@[simp] theorem State.modSe_slice : (s.modSe n f).slice = s.slice := rfl
@[simp] theorem State.modSe_grp : (s.modSe n f).grp = s.grp := rfl
@[simp] theorem State.modSe_orphans : (s.modSe n f).orphans = s.orphans := rfl
@[simp] theorem State.modSe_pend : (s.modSe n f).pend = s.pend := rfl
@[simp] theorem State.modSe_cal : (s.modSe n f).cal = s.cal := rfl
@[simp] theorem State.modSe_sweep : (s.modSe n f).sweep = s.sweep := rfl
@[simp] theorem State.modSe_flt : (s.modSe n f).flt = s.flt := rfl
@[simp] theorem State.modSe_rtr : (s.modSe n f).rtr = s.rtr := rfl
@[simp] theorem State.modSe_mtx : (s.modSe n f).mtx = s.mtx := rfl
@[simp] theorem State.modSe_sp0 : (s.modSe n f).sp0 = s.sp0 := rfl
@[simp] theorem State.modSe_sp1 : (s.modSe n f).sp1 = s.sp1 := rfl
@[simp] theorem State.modSe_mbox : (s.modSe n f).mbox = s.mbox := rfl
@[simp] theorem State.modSe_net0 : (s.modSe n f).net0 = s.net0 := rfl
@[simp] theorem State.modSe_net1 : (s.modSe n f).net1 = s.net1 := rfl
@[simp] theorem State.modSe_strm : (s.modSe n f).strm = s.strm := rfl
@[simp] theorem State.modSe_clk : (s.modSe n f).clk = s.clk := rfl
@[simp] theorem State.modSe_pair : (s.modSe n f).pair = s.pair := rfl
@[simp] theorem State.modSe_cfg : (s.modSe n f).cfg = s.cfg := rfl
@[simp] theorem State.modSe_nvm : (s.modSe n f).nvm = s.nvm := rfl
@[simp] theorem State.modSe_pwr : (s.modSe n f).pwr = s.pwr := rfl
@[simp] theorem State.modSe_drn : (s.modSe n f).drn = s.drn := rfl
@[simp] theorem State.modSe_mtrgo : (s.modSe n f).mtrgo = s.mtrgo := rfl
@[simp] theorem State.modSe_latch : (s.modSe n f).latch = s.latch := rfl
@[simp] theorem State.modSe_cause : (s.modSe n f).cause = s.cause := rfl
@[simp] theorem State.modSe_stopCause : (s.modSe n f).stopCause = s.stopCause := rfl
@[simp] theorem State.modSe_safeBreak : (s.modSe n f).safeBreak = s.safeBreak := rfl
@[simp] theorem State.modSe_nSafe : (s.modSe n f).nSafe = s.nSafe := rfl
@[simp] theorem State.modSe_tx : (s.modSe n f).tx = s.tx := rfl
@[simp] theorem State.modSe_fresh : (s.modSe n f).fresh = s.fresh := rfl
@[simp] theorem State.modSe_pending : (s.modSe n f).pending = s.pending := rfl
end

section
variable (n : Nat) (f : Stream → Stream)
@[simp] theorem State.modSt_od : (s.modSt n f).od = s.od := rfl
@[simp] theorem State.modSt_chan : (s.modSt n f).chan = s.chan := rfl
@[simp] theorem State.modSt_slice : (s.modSt n f).slice = s.slice := rfl
@[simp] theorem State.modSt_grp : (s.modSt n f).grp = s.grp := rfl
@[simp] theorem State.modSt_sess : (s.modSt n f).sess = s.sess := rfl
@[simp] theorem State.modSt_orphans : (s.modSt n f).orphans = s.orphans := rfl
@[simp] theorem State.modSt_pend : (s.modSt n f).pend = s.pend := rfl
@[simp] theorem State.modSt_cal : (s.modSt n f).cal = s.cal := rfl
@[simp] theorem State.modSt_sweep : (s.modSt n f).sweep = s.sweep := rfl
@[simp] theorem State.modSt_flt : (s.modSt n f).flt = s.flt := rfl
@[simp] theorem State.modSt_rtr : (s.modSt n f).rtr = s.rtr := rfl
@[simp] theorem State.modSt_mtx : (s.modSt n f).mtx = s.mtx := rfl
@[simp] theorem State.modSt_sp0 : (s.modSt n f).sp0 = s.sp0 := rfl
@[simp] theorem State.modSt_sp1 : (s.modSt n f).sp1 = s.sp1 := rfl
@[simp] theorem State.modSt_mbox : (s.modSt n f).mbox = s.mbox := rfl
@[simp] theorem State.modSt_net0 : (s.modSt n f).net0 = s.net0 := rfl
@[simp] theorem State.modSt_net1 : (s.modSt n f).net1 = s.net1 := rfl
@[simp] theorem State.modSt_clk : (s.modSt n f).clk = s.clk := rfl
@[simp] theorem State.modSt_pair : (s.modSt n f).pair = s.pair := rfl
@[simp] theorem State.modSt_cfg : (s.modSt n f).cfg = s.cfg := rfl
@[simp] theorem State.modSt_nvm : (s.modSt n f).nvm = s.nvm := rfl
@[simp] theorem State.modSt_pwr : (s.modSt n f).pwr = s.pwr := rfl
@[simp] theorem State.modSt_drn : (s.modSt n f).drn = s.drn := rfl
@[simp] theorem State.modSt_mtrgo : (s.modSt n f).mtrgo = s.mtrgo := rfl
@[simp] theorem State.modSt_latch : (s.modSt n f).latch = s.latch := rfl
@[simp] theorem State.modSt_cause : (s.modSt n f).cause = s.cause := rfl
@[simp] theorem State.modSt_stopCause : (s.modSt n f).stopCause = s.stopCause := rfl
@[simp] theorem State.modSt_safeBreak : (s.modSt n f).safeBreak = s.safeBreak := rfl
@[simp] theorem State.modSt_nSafe : (s.modSt n f).nSafe = s.nSafe := rfl
@[simp] theorem State.modSt_tx : (s.modSt n f).tx = s.tx := rfl
@[simp] theorem State.modSt_fresh : (s.modSt n f).fresh = s.fresh := rfl
@[simp] theorem State.modSt_pending : (s.modSt n f).pending = s.pending := rfl
end

section
variable (o : Obj) (i e : Nat) (v : Val)
@[simp] theorem State.wrV_chan : (s.wrV o i e v).chan = s.chan := rfl
@[simp] theorem State.wrV_slice : (s.wrV o i e v).slice = s.slice := rfl
@[simp] theorem State.wrV_grp : (s.wrV o i e v).grp = s.grp := rfl
@[simp] theorem State.wrV_sess : (s.wrV o i e v).sess = s.sess := rfl
@[simp] theorem State.wrV_orphans : (s.wrV o i e v).orphans = s.orphans := rfl
@[simp] theorem State.wrV_pend : (s.wrV o i e v).pend = s.pend := rfl
@[simp] theorem State.wrV_cal : (s.wrV o i e v).cal = s.cal := rfl
@[simp] theorem State.wrV_sweep : (s.wrV o i e v).sweep = s.sweep := rfl
@[simp] theorem State.wrV_flt : (s.wrV o i e v).flt = s.flt := rfl
@[simp] theorem State.wrV_rtr : (s.wrV o i e v).rtr = s.rtr := rfl
@[simp] theorem State.wrV_mtx : (s.wrV o i e v).mtx = s.mtx := rfl
@[simp] theorem State.wrV_sp0 : (s.wrV o i e v).sp0 = s.sp0 := rfl
@[simp] theorem State.wrV_sp1 : (s.wrV o i e v).sp1 = s.sp1 := rfl
@[simp] theorem State.wrV_mbox : (s.wrV o i e v).mbox = s.mbox := rfl
@[simp] theorem State.wrV_net0 : (s.wrV o i e v).net0 = s.net0 := rfl
@[simp] theorem State.wrV_net1 : (s.wrV o i e v).net1 = s.net1 := rfl
@[simp] theorem State.wrV_strm : (s.wrV o i e v).strm = s.strm := rfl
@[simp] theorem State.wrV_clk : (s.wrV o i e v).clk = s.clk := rfl
@[simp] theorem State.wrV_pair : (s.wrV o i e v).pair = s.pair := rfl
@[simp] theorem State.wrV_cfg : (s.wrV o i e v).cfg = s.cfg := rfl
@[simp] theorem State.wrV_nvm : (s.wrV o i e v).nvm = s.nvm := rfl
@[simp] theorem State.wrV_pwr : (s.wrV o i e v).pwr = s.pwr := rfl
@[simp] theorem State.wrV_drn : (s.wrV o i e v).drn = s.drn := rfl
@[simp] theorem State.wrV_mtrgo : (s.wrV o i e v).mtrgo = s.mtrgo := rfl
@[simp] theorem State.wrV_latch : (s.wrV o i e v).latch = s.latch := rfl
@[simp] theorem State.wrV_cause : (s.wrV o i e v).cause = s.cause := rfl
@[simp] theorem State.wrV_stopCause : (s.wrV o i e v).stopCause = s.stopCause := rfl
@[simp] theorem State.wrV_safeBreak : (s.wrV o i e v).safeBreak = s.safeBreak := rfl
@[simp] theorem State.wrV_nSafe : (s.wrV o i e v).nSafe = s.nSafe := rfl
@[simp] theorem State.wrV_tx : (s.wrV o i e v).tx = s.tx := rfl
@[simp] theorem State.wrV_fresh : (s.wrV o i e v).fresh = s.fresh := rfl
@[simp] theorem State.wrV_pending : (s.wrV o i e v).pending = s.pending := rfl
end

section
variable (o : Obj) (i e : Nat) (v : Int)
@[simp] theorem State.wr_chan : (s.wr o i e v).chan = s.chan := rfl
@[simp] theorem State.wr_slice : (s.wr o i e v).slice = s.slice := rfl
@[simp] theorem State.wr_grp : (s.wr o i e v).grp = s.grp := rfl
@[simp] theorem State.wr_sess : (s.wr o i e v).sess = s.sess := rfl
@[simp] theorem State.wr_orphans : (s.wr o i e v).orphans = s.orphans := rfl
@[simp] theorem State.wr_pend : (s.wr o i e v).pend = s.pend := rfl
@[simp] theorem State.wr_cal : (s.wr o i e v).cal = s.cal := rfl
@[simp] theorem State.wr_sweep : (s.wr o i e v).sweep = s.sweep := rfl
@[simp] theorem State.wr_flt : (s.wr o i e v).flt = s.flt := rfl
@[simp] theorem State.wr_rtr : (s.wr o i e v).rtr = s.rtr := rfl
@[simp] theorem State.wr_mtx : (s.wr o i e v).mtx = s.mtx := rfl
@[simp] theorem State.wr_sp0 : (s.wr o i e v).sp0 = s.sp0 := rfl
@[simp] theorem State.wr_sp1 : (s.wr o i e v).sp1 = s.sp1 := rfl
@[simp] theorem State.wr_mbox : (s.wr o i e v).mbox = s.mbox := rfl
@[simp] theorem State.wr_net0 : (s.wr o i e v).net0 = s.net0 := rfl
@[simp] theorem State.wr_net1 : (s.wr o i e v).net1 = s.net1 := rfl
@[simp] theorem State.wr_strm : (s.wr o i e v).strm = s.strm := rfl
@[simp] theorem State.wr_clk : (s.wr o i e v).clk = s.clk := rfl
@[simp] theorem State.wr_pair : (s.wr o i e v).pair = s.pair := rfl
@[simp] theorem State.wr_cfg : (s.wr o i e v).cfg = s.cfg := rfl
@[simp] theorem State.wr_nvm : (s.wr o i e v).nvm = s.nvm := rfl
@[simp] theorem State.wr_pwr : (s.wr o i e v).pwr = s.pwr := rfl
@[simp] theorem State.wr_drn : (s.wr o i e v).drn = s.drn := rfl
@[simp] theorem State.wr_mtrgo : (s.wr o i e v).mtrgo = s.mtrgo := rfl
@[simp] theorem State.wr_latch : (s.wr o i e v).latch = s.latch := rfl
@[simp] theorem State.wr_cause : (s.wr o i e v).cause = s.cause := rfl
@[simp] theorem State.wr_stopCause : (s.wr o i e v).stopCause = s.stopCause := rfl
@[simp] theorem State.wr_safeBreak : (s.wr o i e v).safeBreak = s.safeBreak := rfl
@[simp] theorem State.wr_nSafe : (s.wr o i e v).nSafe = s.nSafe := rfl
@[simp] theorem State.wr_tx : (s.wr o i e v).tx = s.tx := rfl
@[simp] theorem State.wr_fresh : (s.wr o i e v).fresh = s.fresh := rfl
@[simp] theorem State.wr_pending : (s.wr o i e v).pending = s.pending := rfl
end

section
variable (o : Obj) (i n : Nat)
@[simp] theorem State.inc_chan : (s.inc o i n).chan = s.chan := rfl
@[simp] theorem State.inc_slice : (s.inc o i n).slice = s.slice := rfl
@[simp] theorem State.inc_grp : (s.inc o i n).grp = s.grp := rfl
@[simp] theorem State.inc_sess : (s.inc o i n).sess = s.sess := rfl
@[simp] theorem State.inc_orphans : (s.inc o i n).orphans = s.orphans := rfl
@[simp] theorem State.inc_pend : (s.inc o i n).pend = s.pend := rfl
@[simp] theorem State.inc_cal : (s.inc o i n).cal = s.cal := rfl
@[simp] theorem State.inc_sweep : (s.inc o i n).sweep = s.sweep := rfl
@[simp] theorem State.inc_flt : (s.inc o i n).flt = s.flt := rfl
@[simp] theorem State.inc_rtr : (s.inc o i n).rtr = s.rtr := rfl
@[simp] theorem State.inc_mtx : (s.inc o i n).mtx = s.mtx := rfl
@[simp] theorem State.inc_sp0 : (s.inc o i n).sp0 = s.sp0 := rfl
@[simp] theorem State.inc_sp1 : (s.inc o i n).sp1 = s.sp1 := rfl
@[simp] theorem State.inc_mbox : (s.inc o i n).mbox = s.mbox := rfl
@[simp] theorem State.inc_net0 : (s.inc o i n).net0 = s.net0 := rfl
@[simp] theorem State.inc_net1 : (s.inc o i n).net1 = s.net1 := rfl
@[simp] theorem State.inc_strm : (s.inc o i n).strm = s.strm := rfl
@[simp] theorem State.inc_clk : (s.inc o i n).clk = s.clk := rfl
@[simp] theorem State.inc_pair : (s.inc o i n).pair = s.pair := rfl
@[simp] theorem State.inc_cfg : (s.inc o i n).cfg = s.cfg := rfl
@[simp] theorem State.inc_nvm : (s.inc o i n).nvm = s.nvm := rfl
@[simp] theorem State.inc_pwr : (s.inc o i n).pwr = s.pwr := rfl
@[simp] theorem State.inc_drn : (s.inc o i n).drn = s.drn := rfl
@[simp] theorem State.inc_mtrgo : (s.inc o i n).mtrgo = s.mtrgo := rfl
@[simp] theorem State.inc_latch : (s.inc o i n).latch = s.latch := rfl
@[simp] theorem State.inc_cause : (s.inc o i n).cause = s.cause := rfl
@[simp] theorem State.inc_stopCause : (s.inc o i n).stopCause = s.stopCause := rfl
@[simp] theorem State.inc_safeBreak : (s.inc o i n).safeBreak = s.safeBreak := rfl
@[simp] theorem State.inc_nSafe : (s.inc o i n).nSafe = s.nSafe := rfl
@[simp] theorem State.inc_tx : (s.inc o i n).tx = s.tx := rfl
@[simp] theorem State.inc_fresh : (s.inc o i n).fresh = s.fresh := rfl
@[simp] theorem State.inc_pending : (s.inc o i n).pending = s.pending := rfl
end

section
variable (g : Nat) (a : Ans) (w : What)
@[simp] theorem State.push_od : (s.push g a w).od = s.od := rfl
@[simp] theorem State.push_chan : (s.push g a w).chan = s.chan := rfl
@[simp] theorem State.push_slice : (s.push g a w).slice = s.slice := rfl
@[simp] theorem State.push_sess : (s.push g a w).sess = s.sess := rfl
@[simp] theorem State.push_orphans : (s.push g a w).orphans = s.orphans := rfl
@[simp] theorem State.push_pend : (s.push g a w).pend = s.pend := rfl
@[simp] theorem State.push_cal : (s.push g a w).cal = s.cal := rfl
@[simp] theorem State.push_sweep : (s.push g a w).sweep = s.sweep := rfl
@[simp] theorem State.push_flt : (s.push g a w).flt = s.flt := rfl
@[simp] theorem State.push_rtr : (s.push g a w).rtr = s.rtr := rfl
@[simp] theorem State.push_mtx : (s.push g a w).mtx = s.mtx := rfl
@[simp] theorem State.push_sp0 : (s.push g a w).sp0 = s.sp0 := rfl
@[simp] theorem State.push_sp1 : (s.push g a w).sp1 = s.sp1 := rfl
@[simp] theorem State.push_mbox : (s.push g a w).mbox = s.mbox := rfl
@[simp] theorem State.push_net0 : (s.push g a w).net0 = s.net0 := rfl
@[simp] theorem State.push_net1 : (s.push g a w).net1 = s.net1 := rfl
@[simp] theorem State.push_strm : (s.push g a w).strm = s.strm := rfl
@[simp] theorem State.push_clk : (s.push g a w).clk = s.clk := rfl
@[simp] theorem State.push_pair : (s.push g a w).pair = s.pair := rfl
@[simp] theorem State.push_cfg : (s.push g a w).cfg = s.cfg := rfl
@[simp] theorem State.push_nvm : (s.push g a w).nvm = s.nvm := rfl
@[simp] theorem State.push_pwr : (s.push g a w).pwr = s.pwr := rfl
@[simp] theorem State.push_drn : (s.push g a w).drn = s.drn := rfl
@[simp] theorem State.push_mtrgo : (s.push g a w).mtrgo = s.mtrgo := rfl
@[simp] theorem State.push_latch : (s.push g a w).latch = s.latch := rfl
@[simp] theorem State.push_cause : (s.push g a w).cause = s.cause := rfl
@[simp] theorem State.push_stopCause : (s.push g a w).stopCause = s.stopCause := rfl
@[simp] theorem State.push_safeBreak : (s.push g a w).safeBreak = s.safeBreak := rfl
@[simp] theorem State.push_nSafe : (s.push g a w).nSafe = s.nSafe := rfl
@[simp] theorem State.push_tx : (s.push g a w).tx = s.tx := rfl
@[simp] theorem State.push_fresh : (s.push g a w).fresh = s.fresh := rfl
@[simp] theorem State.push_pending : (s.push g a w).pending = s.pending := rfl
end

section
variable (k n d x : Nat) (c : FClass)
@[simp] theorem State.report_od : (s.report k n d x c).od = s.od := rfl
@[simp] theorem State.report_chan : (s.report k n d x c).chan = s.chan := rfl
@[simp] theorem State.report_slice : (s.report k n d x c).slice = s.slice := rfl
@[simp] theorem State.report_grp : (s.report k n d x c).grp = s.grp := rfl
@[simp] theorem State.report_sess : (s.report k n d x c).sess = s.sess := rfl
@[simp] theorem State.report_orphans : (s.report k n d x c).orphans = s.orphans := rfl
@[simp] theorem State.report_pend : (s.report k n d x c).pend = s.pend := rfl
@[simp] theorem State.report_cal : (s.report k n d x c).cal = s.cal := rfl
@[simp] theorem State.report_sweep : (s.report k n d x c).sweep = s.sweep := rfl
@[simp] theorem State.report_rtr : (s.report k n d x c).rtr = s.rtr := rfl
@[simp] theorem State.report_mtx : (s.report k n d x c).mtx = s.mtx := rfl
@[simp] theorem State.report_sp0 : (s.report k n d x c).sp0 = s.sp0 := rfl
@[simp] theorem State.report_sp1 : (s.report k n d x c).sp1 = s.sp1 := rfl
@[simp] theorem State.report_mbox : (s.report k n d x c).mbox = s.mbox := rfl
@[simp] theorem State.report_net0 : (s.report k n d x c).net0 = s.net0 := rfl
@[simp] theorem State.report_net1 : (s.report k n d x c).net1 = s.net1 := rfl
@[simp] theorem State.report_strm : (s.report k n d x c).strm = s.strm := rfl
@[simp] theorem State.report_clk : (s.report k n d x c).clk = s.clk := rfl
@[simp] theorem State.report_pair : (s.report k n d x c).pair = s.pair := rfl
@[simp] theorem State.report_cfg : (s.report k n d x c).cfg = s.cfg := rfl
@[simp] theorem State.report_nvm : (s.report k n d x c).nvm = s.nvm := rfl
@[simp] theorem State.report_pwr : (s.report k n d x c).pwr = s.pwr := rfl
@[simp] theorem State.report_drn : (s.report k n d x c).drn = s.drn := rfl
@[simp] theorem State.report_mtrgo : (s.report k n d x c).mtrgo = s.mtrgo := rfl
@[simp] theorem State.report_latch : (s.report k n d x c).latch = s.latch := rfl
@[simp] theorem State.report_cause : (s.report k n d x c).cause = s.cause := rfl
@[simp] theorem State.report_stopCause : (s.report k n d x c).stopCause = s.stopCause := rfl
@[simp] theorem State.report_safeBreak : (s.report k n d x c).safeBreak = s.safeBreak := rfl
@[simp] theorem State.report_nSafe : (s.report k n d x c).nSafe = s.nSafe := rfl
@[simp] theorem State.report_tx : (s.report k n d x c).tx = s.tx := rfl
@[simp] theorem State.report_fresh : (s.report k n d x c).fresh = s.fresh := rfl
@[simp] theorem State.report_pending : (s.report k n d x c).pending = s.pending := rfl
end

section
variable (t : Tx)
@[simp] theorem State.send_od : (s.send t).od = s.od := rfl
@[simp] theorem State.send_chan : (s.send t).chan = s.chan := rfl
@[simp] theorem State.send_slice : (s.send t).slice = s.slice := rfl
@[simp] theorem State.send_grp : (s.send t).grp = s.grp := rfl
@[simp] theorem State.send_sess : (s.send t).sess = s.sess := rfl
@[simp] theorem State.send_orphans : (s.send t).orphans = s.orphans := rfl
@[simp] theorem State.send_pend : (s.send t).pend = s.pend := rfl
@[simp] theorem State.send_cal : (s.send t).cal = s.cal := rfl
@[simp] theorem State.send_sweep : (s.send t).sweep = s.sweep := rfl
@[simp] theorem State.send_flt : (s.send t).flt = s.flt := rfl
@[simp] theorem State.send_rtr : (s.send t).rtr = s.rtr := rfl
@[simp] theorem State.send_mtx : (s.send t).mtx = s.mtx := rfl
@[simp] theorem State.send_sp0 : (s.send t).sp0 = s.sp0 := rfl
@[simp] theorem State.send_sp1 : (s.send t).sp1 = s.sp1 := rfl
@[simp] theorem State.send_mbox : (s.send t).mbox = s.mbox := rfl
@[simp] theorem State.send_net0 : (s.send t).net0 = s.net0 := rfl
@[simp] theorem State.send_net1 : (s.send t).net1 = s.net1 := rfl
@[simp] theorem State.send_strm : (s.send t).strm = s.strm := rfl
@[simp] theorem State.send_clk : (s.send t).clk = s.clk := rfl
@[simp] theorem State.send_pair : (s.send t).pair = s.pair := rfl
@[simp] theorem State.send_cfg : (s.send t).cfg = s.cfg := rfl
@[simp] theorem State.send_nvm : (s.send t).nvm = s.nvm := rfl
@[simp] theorem State.send_pwr : (s.send t).pwr = s.pwr := rfl
@[simp] theorem State.send_drn : (s.send t).drn = s.drn := rfl
@[simp] theorem State.send_mtrgo : (s.send t).mtrgo = s.mtrgo := rfl
@[simp] theorem State.send_latch : (s.send t).latch = s.latch := rfl
@[simp] theorem State.send_cause : (s.send t).cause = s.cause := rfl
@[simp] theorem State.send_stopCause : (s.send t).stopCause = s.stopCause := rfl
@[simp] theorem State.send_safeBreak : (s.send t).safeBreak = s.safeBreak := rfl
@[simp] theorem State.send_nSafe : (s.send t).nSafe = s.nSafe := rfl
@[simp] theorem State.send_fresh : (s.send t).fresh = s.fresh := rfl
@[simp] theorem State.send_pending : (s.send t).pending = s.pending := rfl
end

section
variable (t v : Nat)
@[simp] theorem State.setTb_od : (s.setTb t v).od = s.od := rfl
@[simp] theorem State.setTb_chan : (s.setTb t v).chan = s.chan := rfl
@[simp] theorem State.setTb_slice : (s.setTb t v).slice = s.slice := rfl
@[simp] theorem State.setTb_grp : (s.setTb t v).grp = s.grp := rfl
@[simp] theorem State.setTb_sess : (s.setTb t v).sess = s.sess := rfl
@[simp] theorem State.setTb_orphans : (s.setTb t v).orphans = s.orphans := rfl
@[simp] theorem State.setTb_pend : (s.setTb t v).pend = s.pend := rfl
@[simp] theorem State.setTb_cal : (s.setTb t v).cal = s.cal := rfl
@[simp] theorem State.setTb_sweep : (s.setTb t v).sweep = s.sweep := rfl
@[simp] theorem State.setTb_flt : (s.setTb t v).flt = s.flt := rfl
@[simp] theorem State.setTb_rtr : (s.setTb t v).rtr = s.rtr := rfl
@[simp] theorem State.setTb_mtx : (s.setTb t v).mtx = s.mtx := rfl
@[simp] theorem State.setTb_sp0 : (s.setTb t v).sp0 = s.sp0 := rfl
@[simp] theorem State.setTb_sp1 : (s.setTb t v).sp1 = s.sp1 := rfl
@[simp] theorem State.setTb_mbox : (s.setTb t v).mbox = s.mbox := rfl
@[simp] theorem State.setTb_net0 : (s.setTb t v).net0 = s.net0 := rfl
@[simp] theorem State.setTb_net1 : (s.setTb t v).net1 = s.net1 := rfl
@[simp] theorem State.setTb_strm : (s.setTb t v).strm = s.strm := rfl
@[simp] theorem State.setTb_pair : (s.setTb t v).pair = s.pair := rfl
@[simp] theorem State.setTb_cfg : (s.setTb t v).cfg = s.cfg := rfl
@[simp] theorem State.setTb_nvm : (s.setTb t v).nvm = s.nvm := rfl
@[simp] theorem State.setTb_pwr : (s.setTb t v).pwr = s.pwr := rfl
@[simp] theorem State.setTb_drn : (s.setTb t v).drn = s.drn := rfl
@[simp] theorem State.setTb_mtrgo : (s.setTb t v).mtrgo = s.mtrgo := rfl
@[simp] theorem State.setTb_latch : (s.setTb t v).latch = s.latch := rfl
@[simp] theorem State.setTb_cause : (s.setTb t v).cause = s.cause := rfl
@[simp] theorem State.setTb_stopCause : (s.setTb t v).stopCause = s.stopCause := rfl
@[simp] theorem State.setTb_safeBreak : (s.setTb t v).safeBreak = s.safeBreak := rfl
@[simp] theorem State.setTb_nSafe : (s.setTb t v).nSafe = s.nSafe := rfl
@[simp] theorem State.setTb_tx : (s.setTb t v).tx = s.tx := rfl
@[simp] theorem State.setTb_fresh : (s.setTb t v).fresh = s.fresh := rfl
@[simp] theorem State.setTb_pending : (s.setTb t v).pending = s.pending := rfl
end

section
variable (c : Nat) (f : Hold → Hold)
@[simp] theorem State.modHold_od : (s.modHold c f).od = s.od := rfl
@[simp] theorem State.modHold_slice : (s.modHold c f).slice = s.slice := rfl
@[simp] theorem State.modHold_grp : (s.modHold c f).grp = s.grp := rfl
@[simp] theorem State.modHold_sess : (s.modHold c f).sess = s.sess := rfl
@[simp] theorem State.modHold_orphans : (s.modHold c f).orphans = s.orphans := rfl
@[simp] theorem State.modHold_pend : (s.modHold c f).pend = s.pend := rfl
@[simp] theorem State.modHold_cal : (s.modHold c f).cal = s.cal := rfl
@[simp] theorem State.modHold_sweep : (s.modHold c f).sweep = s.sweep := rfl
@[simp] theorem State.modHold_flt : (s.modHold c f).flt = s.flt := rfl
@[simp] theorem State.modHold_rtr : (s.modHold c f).rtr = s.rtr := rfl
@[simp] theorem State.modHold_mtx : (s.modHold c f).mtx = s.mtx := rfl
@[simp] theorem State.modHold_sp0 : (s.modHold c f).sp0 = s.sp0 := rfl
@[simp] theorem State.modHold_sp1 : (s.modHold c f).sp1 = s.sp1 := rfl
@[simp] theorem State.modHold_mbox : (s.modHold c f).mbox = s.mbox := rfl
@[simp] theorem State.modHold_net0 : (s.modHold c f).net0 = s.net0 := rfl
@[simp] theorem State.modHold_net1 : (s.modHold c f).net1 = s.net1 := rfl
@[simp] theorem State.modHold_strm : (s.modHold c f).strm = s.strm := rfl
@[simp] theorem State.modHold_clk : (s.modHold c f).clk = s.clk := rfl
@[simp] theorem State.modHold_pair : (s.modHold c f).pair = s.pair := rfl
@[simp] theorem State.modHold_cfg : (s.modHold c f).cfg = s.cfg := rfl
@[simp] theorem State.modHold_nvm : (s.modHold c f).nvm = s.nvm := rfl
@[simp] theorem State.modHold_pwr : (s.modHold c f).pwr = s.pwr := rfl
@[simp] theorem State.modHold_drn : (s.modHold c f).drn = s.drn := rfl
@[simp] theorem State.modHold_mtrgo : (s.modHold c f).mtrgo = s.mtrgo := rfl
@[simp] theorem State.modHold_latch : (s.modHold c f).latch = s.latch := rfl
@[simp] theorem State.modHold_cause : (s.modHold c f).cause = s.cause := rfl
@[simp] theorem State.modHold_stopCause : (s.modHold c f).stopCause = s.stopCause := rfl
@[simp] theorem State.modHold_safeBreak : (s.modHold c f).safeBreak = s.safeBreak := rfl
@[simp] theorem State.modHold_nSafe : (s.modHold c f).nSafe = s.nSafe := rfl
@[simp] theorem State.modHold_tx : (s.modHold c f).tx = s.tx := rfl
@[simp] theorem State.modHold_fresh : (s.modHold c f).fresh = s.fresh := rfl
@[simp] theorem State.modHold_pending : (s.modHold c f).pending = s.pending := rfl
end

section
variable (c : Nat) (f : Chanter → Chanter)
@[simp] theorem State.modCht_od : (s.modCht c f).od = s.od := rfl
@[simp] theorem State.modCht_slice : (s.modCht c f).slice = s.slice := rfl
@[simp] theorem State.modCht_grp : (s.modCht c f).grp = s.grp := rfl
@[simp] theorem State.modCht_sess : (s.modCht c f).sess = s.sess := rfl
@[simp] theorem State.modCht_orphans : (s.modCht c f).orphans = s.orphans := rfl
@[simp] theorem State.modCht_pend : (s.modCht c f).pend = s.pend := rfl
@[simp] theorem State.modCht_cal : (s.modCht c f).cal = s.cal := rfl
@[simp] theorem State.modCht_sweep : (s.modCht c f).sweep = s.sweep := rfl
@[simp] theorem State.modCht_flt : (s.modCht c f).flt = s.flt := rfl
@[simp] theorem State.modCht_rtr : (s.modCht c f).rtr = s.rtr := rfl
@[simp] theorem State.modCht_mtx : (s.modCht c f).mtx = s.mtx := rfl
@[simp] theorem State.modCht_sp0 : (s.modCht c f).sp0 = s.sp0 := rfl
@[simp] theorem State.modCht_sp1 : (s.modCht c f).sp1 = s.sp1 := rfl
@[simp] theorem State.modCht_mbox : (s.modCht c f).mbox = s.mbox := rfl
@[simp] theorem State.modCht_net0 : (s.modCht c f).net0 = s.net0 := rfl
@[simp] theorem State.modCht_net1 : (s.modCht c f).net1 = s.net1 := rfl
@[simp] theorem State.modCht_strm : (s.modCht c f).strm = s.strm := rfl
@[simp] theorem State.modCht_clk : (s.modCht c f).clk = s.clk := rfl
@[simp] theorem State.modCht_pair : (s.modCht c f).pair = s.pair := rfl
@[simp] theorem State.modCht_cfg : (s.modCht c f).cfg = s.cfg := rfl
@[simp] theorem State.modCht_nvm : (s.modCht c f).nvm = s.nvm := rfl
@[simp] theorem State.modCht_pwr : (s.modCht c f).pwr = s.pwr := rfl
@[simp] theorem State.modCht_drn : (s.modCht c f).drn = s.drn := rfl
@[simp] theorem State.modCht_mtrgo : (s.modCht c f).mtrgo = s.mtrgo := rfl
@[simp] theorem State.modCht_latch : (s.modCht c f).latch = s.latch := rfl
@[simp] theorem State.modCht_cause : (s.modCht c f).cause = s.cause := rfl
@[simp] theorem State.modCht_stopCause : (s.modCht c f).stopCause = s.stopCause := rfl
@[simp] theorem State.modCht_safeBreak : (s.modCht c f).safeBreak = s.safeBreak := rfl
@[simp] theorem State.modCht_nSafe : (s.modCht c f).nSafe = s.nSafe := rfl
@[simp] theorem State.modCht_tx : (s.modCht c f).tx = s.tx := rfl
@[simp] theorem State.modCht_fresh : (s.modCht c f).fresh = s.fresh := rfl
@[simp] theorem State.modCht_pending : (s.modCht c f).pending = s.pending := rfl
end

section
variable (c : Nat) (f : Aper → Aper)
@[simp] theorem State.modAper_od : (s.modAper c f).od = s.od := rfl
@[simp] theorem State.modAper_slice : (s.modAper c f).slice = s.slice := rfl
@[simp] theorem State.modAper_grp : (s.modAper c f).grp = s.grp := rfl
@[simp] theorem State.modAper_sess : (s.modAper c f).sess = s.sess := rfl
@[simp] theorem State.modAper_orphans : (s.modAper c f).orphans = s.orphans := rfl
@[simp] theorem State.modAper_pend : (s.modAper c f).pend = s.pend := rfl
@[simp] theorem State.modAper_cal : (s.modAper c f).cal = s.cal := rfl
@[simp] theorem State.modAper_sweep : (s.modAper c f).sweep = s.sweep := rfl
@[simp] theorem State.modAper_flt : (s.modAper c f).flt = s.flt := rfl
@[simp] theorem State.modAper_rtr : (s.modAper c f).rtr = s.rtr := rfl
@[simp] theorem State.modAper_mtx : (s.modAper c f).mtx = s.mtx := rfl
@[simp] theorem State.modAper_sp0 : (s.modAper c f).sp0 = s.sp0 := rfl
@[simp] theorem State.modAper_sp1 : (s.modAper c f).sp1 = s.sp1 := rfl
@[simp] theorem State.modAper_mbox : (s.modAper c f).mbox = s.mbox := rfl
@[simp] theorem State.modAper_net0 : (s.modAper c f).net0 = s.net0 := rfl
@[simp] theorem State.modAper_net1 : (s.modAper c f).net1 = s.net1 := rfl
@[simp] theorem State.modAper_strm : (s.modAper c f).strm = s.strm := rfl
@[simp] theorem State.modAper_clk : (s.modAper c f).clk = s.clk := rfl
@[simp] theorem State.modAper_pair : (s.modAper c f).pair = s.pair := rfl
@[simp] theorem State.modAper_cfg : (s.modAper c f).cfg = s.cfg := rfl
@[simp] theorem State.modAper_nvm : (s.modAper c f).nvm = s.nvm := rfl
@[simp] theorem State.modAper_pwr : (s.modAper c f).pwr = s.pwr := rfl
@[simp] theorem State.modAper_drn : (s.modAper c f).drn = s.drn := rfl
@[simp] theorem State.modAper_mtrgo : (s.modAper c f).mtrgo = s.mtrgo := rfl
@[simp] theorem State.modAper_latch : (s.modAper c f).latch = s.latch := rfl
@[simp] theorem State.modAper_cause : (s.modAper c f).cause = s.cause := rfl
@[simp] theorem State.modAper_stopCause : (s.modAper c f).stopCause = s.stopCause := rfl
@[simp] theorem State.modAper_safeBreak : (s.modAper c f).safeBreak = s.safeBreak := rfl
@[simp] theorem State.modAper_nSafe : (s.modAper c f).nSafe = s.nSafe := rfl
@[simp] theorem State.modAper_tx : (s.modAper c f).tx = s.tx := rfl
@[simp] theorem State.modAper_fresh : (s.modAper c f).fresh = s.fresh := rfl
@[simp] theorem State.modAper_pending : (s.modAper c f).pending = s.pending := rfl
end

section
variable (c : Nat) (f : Slide → Slide)
@[simp] theorem State.modSlide_od : (s.modSlide c f).od = s.od := rfl
@[simp] theorem State.modSlide_slice : (s.modSlide c f).slice = s.slice := rfl
@[simp] theorem State.modSlide_grp : (s.modSlide c f).grp = s.grp := rfl
@[simp] theorem State.modSlide_sess : (s.modSlide c f).sess = s.sess := rfl
@[simp] theorem State.modSlide_orphans : (s.modSlide c f).orphans = s.orphans := rfl
@[simp] theorem State.modSlide_pend : (s.modSlide c f).pend = s.pend := rfl
@[simp] theorem State.modSlide_cal : (s.modSlide c f).cal = s.cal := rfl
@[simp] theorem State.modSlide_sweep : (s.modSlide c f).sweep = s.sweep := rfl
@[simp] theorem State.modSlide_flt : (s.modSlide c f).flt = s.flt := rfl
@[simp] theorem State.modSlide_rtr : (s.modSlide c f).rtr = s.rtr := rfl
@[simp] theorem State.modSlide_mtx : (s.modSlide c f).mtx = s.mtx := rfl
@[simp] theorem State.modSlide_sp0 : (s.modSlide c f).sp0 = s.sp0 := rfl
@[simp] theorem State.modSlide_sp1 : (s.modSlide c f).sp1 = s.sp1 := rfl
@[simp] theorem State.modSlide_mbox : (s.modSlide c f).mbox = s.mbox := rfl
@[simp] theorem State.modSlide_net0 : (s.modSlide c f).net0 = s.net0 := rfl
@[simp] theorem State.modSlide_net1 : (s.modSlide c f).net1 = s.net1 := rfl
@[simp] theorem State.modSlide_strm : (s.modSlide c f).strm = s.strm := rfl
@[simp] theorem State.modSlide_clk : (s.modSlide c f).clk = s.clk := rfl
@[simp] theorem State.modSlide_pair : (s.modSlide c f).pair = s.pair := rfl
@[simp] theorem State.modSlide_cfg : (s.modSlide c f).cfg = s.cfg := rfl
@[simp] theorem State.modSlide_nvm : (s.modSlide c f).nvm = s.nvm := rfl
@[simp] theorem State.modSlide_pwr : (s.modSlide c f).pwr = s.pwr := rfl
@[simp] theorem State.modSlide_drn : (s.modSlide c f).drn = s.drn := rfl
@[simp] theorem State.modSlide_mtrgo : (s.modSlide c f).mtrgo = s.mtrgo := rfl
@[simp] theorem State.modSlide_latch : (s.modSlide c f).latch = s.latch := rfl
@[simp] theorem State.modSlide_cause : (s.modSlide c f).cause = s.cause := rfl
@[simp] theorem State.modSlide_stopCause : (s.modSlide c f).stopCause = s.stopCause := rfl
@[simp] theorem State.modSlide_safeBreak : (s.modSlide c f).safeBreak = s.safeBreak := rfl
@[simp] theorem State.modSlide_nSafe : (s.modSlide c f).nSafe = s.nSafe := rfl
@[simp] theorem State.modSlide_tx : (s.modSlide c f).tx = s.tx := rfl
@[simp] theorem State.modSlide_fresh : (s.modSlide c f).fresh = s.fresh := rfl
@[simp] theorem State.modSlide_pending : (s.modSlide c f).pending = s.pending := rfl
end

section
variable (g : Nat) (f : Mon → Mon)
@[simp] theorem State.modMon_od : (s.modMon g f).od = s.od := rfl
@[simp] theorem State.modMon_chan : (s.modMon g f).chan = s.chan := rfl
@[simp] theorem State.modMon_slice : (s.modMon g f).slice = s.slice := rfl
@[simp] theorem State.modMon_sess : (s.modMon g f).sess = s.sess := rfl
@[simp] theorem State.modMon_orphans : (s.modMon g f).orphans = s.orphans := rfl
@[simp] theorem State.modMon_pend : (s.modMon g f).pend = s.pend := rfl
@[simp] theorem State.modMon_cal : (s.modMon g f).cal = s.cal := rfl
@[simp] theorem State.modMon_sweep : (s.modMon g f).sweep = s.sweep := rfl
@[simp] theorem State.modMon_flt : (s.modMon g f).flt = s.flt := rfl
@[simp] theorem State.modMon_rtr : (s.modMon g f).rtr = s.rtr := rfl
@[simp] theorem State.modMon_mtx : (s.modMon g f).mtx = s.mtx := rfl
@[simp] theorem State.modMon_sp0 : (s.modMon g f).sp0 = s.sp0 := rfl
@[simp] theorem State.modMon_sp1 : (s.modMon g f).sp1 = s.sp1 := rfl
@[simp] theorem State.modMon_mbox : (s.modMon g f).mbox = s.mbox := rfl
@[simp] theorem State.modMon_net0 : (s.modMon g f).net0 = s.net0 := rfl
@[simp] theorem State.modMon_net1 : (s.modMon g f).net1 = s.net1 := rfl
@[simp] theorem State.modMon_strm : (s.modMon g f).strm = s.strm := rfl
@[simp] theorem State.modMon_clk : (s.modMon g f).clk = s.clk := rfl
@[simp] theorem State.modMon_pair : (s.modMon g f).pair = s.pair := rfl
@[simp] theorem State.modMon_cfg : (s.modMon g f).cfg = s.cfg := rfl
@[simp] theorem State.modMon_nvm : (s.modMon g f).nvm = s.nvm := rfl
@[simp] theorem State.modMon_pwr : (s.modMon g f).pwr = s.pwr := rfl
@[simp] theorem State.modMon_drn : (s.modMon g f).drn = s.drn := rfl
@[simp] theorem State.modMon_mtrgo : (s.modMon g f).mtrgo = s.mtrgo := rfl
@[simp] theorem State.modMon_latch : (s.modMon g f).latch = s.latch := rfl
@[simp] theorem State.modMon_cause : (s.modMon g f).cause = s.cause := rfl
@[simp] theorem State.modMon_stopCause : (s.modMon g f).stopCause = s.stopCause := rfl
@[simp] theorem State.modMon_safeBreak : (s.modMon g f).safeBreak = s.safeBreak := rfl
@[simp] theorem State.modMon_nSafe : (s.modMon g f).nSafe = s.nSafe := rfl
@[simp] theorem State.modMon_tx : (s.modMon g f).tx = s.tx := rfl
@[simp] theorem State.modMon_fresh : (s.modMon g f).fresh = s.fresh := rfl
@[simp] theorem State.modMon_pending : (s.modMon g f).pending = s.pending := rfl
end

section
variable (n : Nat) (f : Port → Port)
@[simp] theorem State.modPort_od : (s.modPort n f).od = s.od := by unfold State.modPort; split <;> rfl
@[simp] theorem State.modPort_chan : (s.modPort n f).chan = s.chan := by unfold State.modPort; split <;> rfl
@[simp] theorem State.modPort_slice : (s.modPort n f).slice = s.slice := by unfold State.modPort; split <;> rfl
@[simp] theorem State.modPort_grp : (s.modPort n f).grp = s.grp := by unfold State.modPort; split <;> rfl
@[simp] theorem State.modPort_sess : (s.modPort n f).sess = s.sess := by unfold State.modPort; split <;> rfl
@[simp] theorem State.modPort_orphans : (s.modPort n f).orphans = s.orphans := by unfold State.modPort; split <;> rfl
@[simp] theorem State.modPort_pend : (s.modPort n f).pend = s.pend := by unfold State.modPort; split <;> rfl
@[simp] theorem State.modPort_cal : (s.modPort n f).cal = s.cal := by unfold State.modPort; split <;> rfl
@[simp] theorem State.modPort_sweep : (s.modPort n f).sweep = s.sweep := by unfold State.modPort; split <;> rfl
@[simp] theorem State.modPort_flt : (s.modPort n f).flt = s.flt := by unfold State.modPort; split <;> rfl
@[simp] theorem State.modPort_rtr : (s.modPort n f).rtr = s.rtr := by unfold State.modPort; split <;> rfl
@[simp] theorem State.modPort_mtx : (s.modPort n f).mtx = s.mtx := by unfold State.modPort; split <;> rfl
@[simp] theorem State.modPort_sp0 : (s.modPort n f).sp0 = s.sp0 := by unfold State.modPort; split <;> rfl
@[simp] theorem State.modPort_sp1 : (s.modPort n f).sp1 = s.sp1 := by unfold State.modPort; split <;> rfl
@[simp] theorem State.modPort_mbox : (s.modPort n f).mbox = s.mbox := by unfold State.modPort; split <;> rfl
@[simp] theorem State.modPort_strm : (s.modPort n f).strm = s.strm := by unfold State.modPort; split <;> rfl
@[simp] theorem State.modPort_clk : (s.modPort n f).clk = s.clk := by unfold State.modPort; split <;> rfl
@[simp] theorem State.modPort_pair : (s.modPort n f).pair = s.pair := by unfold State.modPort; split <;> rfl
@[simp] theorem State.modPort_cfg : (s.modPort n f).cfg = s.cfg := by unfold State.modPort; split <;> rfl
@[simp] theorem State.modPort_nvm : (s.modPort n f).nvm = s.nvm := by unfold State.modPort; split <;> rfl
@[simp] theorem State.modPort_pwr : (s.modPort n f).pwr = s.pwr := by unfold State.modPort; split <;> rfl
@[simp] theorem State.modPort_drn : (s.modPort n f).drn = s.drn := by unfold State.modPort; split <;> rfl
@[simp] theorem State.modPort_mtrgo : (s.modPort n f).mtrgo = s.mtrgo := by unfold State.modPort; split <;> rfl
@[simp] theorem State.modPort_latch : (s.modPort n f).latch = s.latch := by unfold State.modPort; split <;> rfl
@[simp] theorem State.modPort_cause : (s.modPort n f).cause = s.cause := by unfold State.modPort; split <;> rfl
@[simp] theorem State.modPort_stopCause : (s.modPort n f).stopCause = s.stopCause := by unfold State.modPort; split <;> rfl
@[simp] theorem State.modPort_safeBreak : (s.modPort n f).safeBreak = s.safeBreak := by unfold State.modPort; split <;> rfl
@[simp] theorem State.modPort_nSafe : (s.modPort n f).nSafe = s.nSafe := by unfold State.modPort; split <;> rfl
@[simp] theorem State.modPort_tx : (s.modPort n f).tx = s.tx := by unfold State.modPort; split <;> rfl
@[simp] theorem State.modPort_fresh : (s.modPort n f).fresh = s.fresh := by unfold State.modPort; split <;> rfl
@[simp] theorem State.modPort_pending : (s.modPort n f).pending = s.pending := by unfold State.modPort; split <;> rfl
end

section
variable (n : Nat) (f : Serial → Serial)
@[simp] theorem State.modSp_od : (s.modSp n f).od = s.od := by unfold State.modSp; split <;> rfl
@[simp] theorem State.modSp_chan : (s.modSp n f).chan = s.chan := by unfold State.modSp; split <;> rfl
@[simp] theorem State.modSp_slice : (s.modSp n f).slice = s.slice := by unfold State.modSp; split <;> rfl
@[simp] theorem State.modSp_grp : (s.modSp n f).grp = s.grp := by unfold State.modSp; split <;> rfl
@[simp] theorem State.modSp_sess : (s.modSp n f).sess = s.sess := by unfold State.modSp; split <;> rfl
@[simp] theorem State.modSp_orphans : (s.modSp n f).orphans = s.orphans := by unfold State.modSp; split <;> rfl
@[simp] theorem State.modSp_pend : (s.modSp n f).pend = s.pend := by unfold State.modSp; split <;> rfl
@[simp] theorem State.modSp_cal : (s.modSp n f).cal = s.cal := by unfold State.modSp; split <;> rfl
@[simp] theorem State.modSp_sweep : (s.modSp n f).sweep = s.sweep := by unfold State.modSp; split <;> rfl
@[simp] theorem State.modSp_flt : (s.modSp n f).flt = s.flt := by unfold State.modSp; split <;> rfl
@[simp] theorem State.modSp_rtr : (s.modSp n f).rtr = s.rtr := by unfold State.modSp; split <;> rfl
@[simp] theorem State.modSp_mtx : (s.modSp n f).mtx = s.mtx := by unfold State.modSp; split <;> rfl
@[simp] theorem State.modSp_mbox : (s.modSp n f).mbox = s.mbox := by unfold State.modSp; split <;> rfl
@[simp] theorem State.modSp_net0 : (s.modSp n f).net0 = s.net0 := by unfold State.modSp; split <;> rfl
@[simp] theorem State.modSp_net1 : (s.modSp n f).net1 = s.net1 := by unfold State.modSp; split <;> rfl
@[simp] theorem State.modSp_strm : (s.modSp n f).strm = s.strm := by unfold State.modSp; split <;> rfl
@[simp] theorem State.modSp_clk : (s.modSp n f).clk = s.clk := by unfold State.modSp; split <;> rfl
@[simp] theorem State.modSp_pair : (s.modSp n f).pair = s.pair := by unfold State.modSp; split <;> rfl
@[simp] theorem State.modSp_cfg : (s.modSp n f).cfg = s.cfg := by unfold State.modSp; split <;> rfl
@[simp] theorem State.modSp_nvm : (s.modSp n f).nvm = s.nvm := by unfold State.modSp; split <;> rfl
@[simp] theorem State.modSp_pwr : (s.modSp n f).pwr = s.pwr := by unfold State.modSp; split <;> rfl
@[simp] theorem State.modSp_drn : (s.modSp n f).drn = s.drn := by unfold State.modSp; split <;> rfl
@[simp] theorem State.modSp_mtrgo : (s.modSp n f).mtrgo = s.mtrgo := by unfold State.modSp; split <;> rfl
@[simp] theorem State.modSp_latch : (s.modSp n f).latch = s.latch := by unfold State.modSp; split <;> rfl
@[simp] theorem State.modSp_cause : (s.modSp n f).cause = s.cause := by unfold State.modSp; split <;> rfl
@[simp] theorem State.modSp_stopCause : (s.modSp n f).stopCause = s.stopCause := by unfold State.modSp; split <;> rfl
@[simp] theorem State.modSp_safeBreak : (s.modSp n f).safeBreak = s.safeBreak := by unfold State.modSp; split <;> rfl
@[simp] theorem State.modSp_nSafe : (s.modSp n f).nSafe = s.nSafe := by unfold State.modSp; split <;> rfl
@[simp] theorem State.modSp_tx : (s.modSp n f).tx = s.tx := by unfold State.modSp; split <;> rfl
@[simp] theorem State.modSp_fresh : (s.modSp n f).fresh = s.fresh := by unfold State.modSp; split <;> rfl
@[simp] theorem State.modSp_pending : (s.modSp n f).pending = s.pending := by unfold State.modSp; split <;> rfl
end

end Sys2Proof.Machine
end

