-- ==== Sys2Proof/Laws/Requests.lean ====
section
/-! SUPPORT. A request that its session takes executes in the state `taken`; a write that passes its checks has the effect of its
object, and a write command is that write. -/
namespace Sys2Proof.Machine
open Sys2Proof

/-- A session that takes a request executes it. -/
theorem State.kopIn_takes {s : State} {h : Hdr} {op : ReqOp} (e : s.takes h op = true) :
    s.kopIn h op = (s.modSe h.sess fun x => { x with lastRx := s.now }).runReq h.sess ⟨h.seq, h.port, op, h.eth⟩ := by
  simp only [State.takes, Bool.and_eq_true, beq_iff_eq, Bool.or_eq_true, decide_eq_true_eq] at e
  obtain ⟨⟨⟨⟨hp, hi⟩, hu⟩, hk⟩, hs⟩ := e
  have hs' : ((s.modSe h.sess fun x => { x with lastRx := s.now }).se h.sess).slot ⟨h.seq, h.port, op, h.eth⟩ = .run := by
    rw [State.se_modSe]; exact hs
  have take : s.kopTake h.sess ⟨h.seq, h.port, op, h.eth⟩ =
      (s.modSe h.sess fun x => { x with lastRx := s.now }).runReq h.sess ⟨h.seq, h.port, op, h.eth⟩ := by
    unfold State.kopTake
    dsimp only
    rw [hs']
  rw [← take]
  rcases hk with ⟨hk, hm⟩ | ⟨hk, hm⟩ <;> simp [State.kopIn, hp, hi, hu, hk, hm]

/-- The execution of a request of which only the answer is open. -/
theorem State.kopIn_run {s : State} {h : Hdr} {op : ReqOp} (e : s.takes h op = true) :
    s.kopIn h op = match (s.taken h op).runOp h.sess ((s.taken h op).secureOf h) op ((s.taken h op).asks h) with
      | (u, some (st, v)) => u.answer ((s.taken h op).asks h) st v
      | (u, none) => u := by
  rw [State.kopIn_takes e]; rfl

/-- A write that passes its checks has the effect of its object, and goes to the pair partner where that object belongs to a
mirrored group (R410). -/
theorem State.writeObj_ok {t : State} {h : Hdr} {o : Obj} {k : Nat} {w : WireVal} {v : Val} (m : t.mayWrite h o k w v) (e : Nat)
    (a : Ans) : t.writeObj h.sess (t.secureOf h) o k e w a = t.writeEffect o k e h.sess (t.secureOf h) v a := by
  obtain ⟨hd, hc, _⟩ := m
  unfold State.writeObj
  rw [hd, hc]

/-- The object is stored by no write at once, or belongs to no group: nothing goes to the pair partner. -/
def unmirrored (o : Obj) (k : Nat) : Bool :=
  !((o.desc.cls == .RW || o.desc.cls == .RWS) && !tickBound o) || (groupOfObj o k).isNone

theorem State.configOut_none {t : State} {o : Obj} {k e : Nat} {v : Int} (h : groupOfObj o k = none) : t.configOut o k e v = t := by
  unfold State.configOut; rw [h]

theorem State.writeEffect_plain {t : State} {h : Hdr} {o : Obj} {k : Nat} {w : WireVal} {v : Val} (m : t.mayWrite h o k w v)
    (hu : unmirrored o k = true) (e : Nat) (a : Ans) :
    t.writeEffect o k e h.sess (t.secureOf h) v a = t.effectOf o k e h.sess (t.secureOf h) v a := by
  obtain ⟨_, _, hx⟩ := m
  unfold State.writeEffect
  rw [hx]
  rcases hr : t.effectOf o k e h.sess (t.secureOf h) v a with ⟨u, r⟩
  dsimp only
  unfold unmirrored at hu
  cases hg : groupOfObj o k with
  | none => rw [State.configOut_none hg, ite_self]
  | some g =>
    rw [hg, Option.isNone_some, Bool.or_false, Bool.not_eq_true'] at hu
    rw [hu]; rfl

/-- A write command: it answers its status, or leaves the answer to its effect. -/
theorem writeRuns_of {i : Instr} {h : Hdr} {o : Obj} {k e : Nat} {w : WireVal} {v : Val} {p : State → Prop}
    {f : State → Ans → State} (hi : ∀ s, exec i s = .next (s.kopIn h (.write (.obj o k e) w)))
    (hf : ∀ (t : State) (a : Ans), a = t.asks h → t.mayWrite h o k w v → p t →
      (match t.writeEffect o k e h.sess (t.secureOf h) v a with
        | (u, some st) => u.answer a st
        | (u, none) => u) = f t a) : WriteRuns i h o k e w v p f := by
  intro s t ht hm hp
  rw [hi, State.kopIn_run ht]
  refine congrArg Host.Outcome.next ?_
  rw [← hf t (t.asks h) rfl hm hp]
  show (match (match t.writeObj h.sess (t.secureOf h) o k e w (t.asks h) with
    | (u, r) => (u, r.map fun st => (st, Val.num 0))) with | (u, some (st, v)) => u.answer (t.asks h) st v | (u, none) => u) = _
  rw [State.writeObj_ok hm]
  rcases t.writeEffect o k e h.sess (t.secureOf h) v (t.asks h) with ⟨u, _ | st⟩ <;> rfl

/-- The same for an object of which nothing goes to a pair partner. -/
theorem writeRuns_plain {i : Instr} {h : Hdr} {o : Obj} {k e : Nat} {w : WireVal} {v : Val} {p : State → Prop}
    {f : State → Ans → State} (hu : unmirrored o k = true) (hi : ∀ s, exec i s = .next (s.kopIn h (.write (.obj o k e) w)))
    (hf : ∀ (t : State) (a : Ans), a = t.asks h → t.mayWrite h o k w v → p t →
      (match t.effectOf o k e h.sess (t.secureOf h) v a with
        | (u, some st) => u.answer a st
        | (u, none) => u) = f t a) : WriteRuns i h o k e w v p f :=
  writeRuns_of hi fun t a ha hm hp => by rw [State.writeEffect_plain hm hu]; exact hf t a ha hm hp

/-- A request command whose execution is `q`. -/
theorem requestRuns_of {i : Instr} {h : Hdr} {op : ReqOp} {p : State → Prop} {f : State → Ans → State}
    (hi : ∀ s, exec i s = .next (s.kopIn h op))
    (hf : ∀ (t : State) (a : Ans), p t →
      (match t.runOp h.sess (t.secureOf h) op a with
        | (u, some (st, v)) => u.answer a st v
        | (u, none) => u) = f t a) : RequestRuns i h op p f := by
  intro s ht hp
  rw [hi, State.kopIn_run ht, ← hf _ _ hp]

end Sys2Proof.Machine
end

