-- ==== Sys2Proof/Tests/Slice0.lean ====
section
/-! SUPPORT. Tests: what the checks of well-formedness refuse, what single commands do, and states that meet the statements'
hypotheses. -/
open Sys2Proof Sys2Proof.Machine

/-- The session takes the write and it passes its checks. -/
def Sys2Proof.Machine.State.passes (s : State) (h : Hdr) (o : Obj) (k e : Nat) (w : WireVal) (v : Val) : Bool :=
  let t := s.taken h (.write (.obj o k e) w)
  s.takes h (.write (.obj o k e) w) && decodeVal o.desc.ty w == some v
    && (t.writeCheck o k h.sess (t.secureOf h) (some v)).isNone && (t.deviceCheck o k v.int).isNone

theorem Sys2Proof.Machine.State.passes_mayWrite {s : State} {h : Hdr} {o : Obj} {k e : Nat} {w : WireVal} {v : Val}
    (p : s.passes h o k e w v = true) :
    s.takes h (.write (.obj o k e) w) = true ∧ (s.taken h (.write (.obj o k e) w)).mayWrite h o k w v := by
  simpa [State.passes, State.mayWrite, and_assoc] using p

namespace Sys2Proof.Tests

/-- A device in RUN, 10000 s after reset, with every timebase good. -/
def run : State :=
  { pwr := { stage := 5 }, sp0 := { on := true }, sp1 := { on := true }
    clk := { up := 10000000000000, tb := (rangeFrom 0 25).map fun t => (t, 2) } }

/-- The device in stage `n` of its boot. -/
def stage (n : Nat) : State := { pwr := { stage := n } }

/-- NET0 up with address 5, and a plain session 1 of peer 7, UDP port 9. -/
def net : State :=
  { run with net0 := { link := true, goodFrom := some 0 }, sess := [(1, { kind := 1, ip := 7, udp := 9 })] }.wr .NET_IP 0 0 5

/-- The session's first request. -/
def h1 : Hdr := ⟨1, 0, 7, 9, 0, none, 0⟩

/-- The same session, secure, and its first request with the MAC that passes. -/
def sec : State := net.modSe 1 fun x => { x with kind := 2 }
def h2 : Hdr := ⟨1, 0, 7, 9, 0, some true, 0⟩

/-- The session's group 0 with both engines running. -/
def live : State :=
  ((net.wr .CTL_RUN 0 0 1).wr .FILT_RUN 0 0 1).modGr 0 fun r => { r with ctl := true, filt := .running }

/-- A pair that forms. -/
def form : State := ((run.wr .PAIR_EN 0 0 1).wr .PAIR_LANES 0 0 3).wr .PAIR_STATE 0 0 1


/-- A log queue of 63 general places filled and the reserved place taken. -/
def busyLog : State :=
  let x : Queued := ⟨⟨⟨5, 2, 0, 0, .note⟩, .note, 0⟩, 0, 1, false, none⟩
  { run with flt := { run.flt with queue := { x with reserved := true } :: List.replicate 63 x } }
theorem witness_RequestsComplete_1 : (fun (h : Hdr) (s : State) => s.takes h .close = true) (h1) (net) := by decide
theorem witness_RequestsComplete_2 : (fun (h : Hdr) (s : State) => s.takes h .nop = true) (h1) (net) := by decide
theorem witness_OpeningsComplete_1 : (fun (h : Hdr) (s : State) => ((fun s => s.portUp h.port = true ∧ h.mac = none ∧ 1 ≤ h.sess ∧ h.sess
    ≤ 8 ∧ (s.se h.sess).foreign h = false ∧ s.rdT .SESSION_SECURE_ONLY h.sess = false)) s) (h1) (net) := by decide
theorem witness_OpeningsComplete_2 : (fun (h : Hdr) (s : State) => ((fun s => s.portUp h.port = true ∧ h.mac = none ∧ 1 ≤ h.sess ∧ h.sess
    ≤ 8 ∧ (s.se h.sess).foreign h = false ∧ (s.nvm.keys.get (fun _ => []) h.sess).isEmpty = false)) s) (h1)
    ({ net with nvm := { net.nvm with keys := [(1, [1#8])] } }) := by decide
theorem witness_SessionEventsComplete_1 : (fun (n : Nat) (q : Req) (s : State) => ((fun s => s.orphanOf n = none ∧ (s.se n).ready = some
    q)) s) (1) (⟨4, 0, .nop, 0⟩) (net.modSe 1 fun x => { x with next := some 4, waiting := [⟨4, 0, .nop, 0⟩] }) := by decide
theorem witness_SessionEventsComplete_4 : (fun (n : Nat) (s : State) => ((fun s => (s.se n).kind ≠ 0 ∧ (s.se n).lastRx + s.rdN
    .SESSION_TIMEOUT * 1000000 ≤ s.now)) s) (1) (net) := by decide
theorem witness_TickBoundWritesComplete_1 : (fun (h : Hdr) (c : ChanNo) (v : Int) (s : State) => s.passes h .DECL_I c 0 (.num v) (.num v)
    = true ∧ ((fun t => (t.declReview c v.toNat).2 ≠ some false)) (s.taken h (.write (.obj .DECL_I c 0) (.num v)))) (h1) (0) (1) (net) :=
    by decide
theorem witness_TickBoundWritesComplete_2 : (fun (h : Hdr) (c : ChanNo) (v : Int) (s : State) => s.passes h .FORCE_MODE c 0 (.num v) (.num
    v) = true) (h1) (0) (1) (net) := by decide
theorem witness_TickBoundWritesComplete_3 : (fun (h : Hdr) (c : ChanNo) (v : Int) (s : State) => s.passes h .NOTCH_EN c 0 (.num v) (.num
    v) = true) (h1) (0) (0) (net) := by decide
theorem witness_TickBoundWritesComplete_4 : (fun (h : Hdr) (c : ChanNo) (v : Int) (s : State) => s.passes h .APERTURE_N c 0 (.num v) (.num
    v) = true) (h1) (0) (2) (net) := by decide
theorem witness_TickBoundWritesComplete_5 : (fun (h : Hdr) (c : ChanNo) (s : State) => s.passes h .APERTURE_REBASE c 0 (.num 1) (.num 1) =
    true) (h1) (0) (net) := by decide
theorem witness_ConfigWritesComplete_1 : (fun (h : Hdr) (m : Int) (s : State) => s.passes h .MODE 0 0 (.num m) (.num m) = true ∧ ((fun t
    => t.cfg.cur = none)) (s.taken h (.write (.obj .MODE 0 0) (.num m)))) (h1) (0) (net) := by decide
theorem witness_ConfigWritesComplete_3 : (fun (h : Hdr) (s : State) => s.passes h .LOAD_BASE 0 0 (.num 1) (.num 1) = true ∧ ((fun t =>
    t.latch = false ∧ t.allStopped = true)) (s.taken h (.write (.obj .LOAD_BASE 0 0) (.num 1)))) (h2) (sec) := by decide
theorem witness_ConfigWritesComplete_4 : (fun (h : Hdr) (s : State) => s.passes h .VIOL_CLEAR 0 0 (.num 1) (.num 1) = true) (h1) (net) :=
    by decide
theorem witness_OutputCommandsComplete_1 : (fun (h : Hdr) (c : ChanNo) (s : State) => s.passes h .OUT_CMD c 0 (.num 1) (.num 1) = true ∧
    ((fun t => t.outPre c = none)) (s.taken h (.write (.obj .OUT_CMD c 0) (.num 1)))) (h1) (0) (live) := by decide
theorem witness_OutputCommandsComplete_2 : (fun (h : Hdr) (c : ChanNo) (s : State) => s.passes h .OUT_CMD c 0 (.num 2) (.num 2) = true ∧
    ((fun t => t.outPre c = none)) (s.taken h (.write (.obj .OUT_CMD c 0) (.num 2)))) (h1) (0) (live) := by decide
theorem witness_OutputCommandsComplete_3 : (fun (h : Hdr) (c : ChanNo) (s : State) => s.passes h .OUT_CMD c 0 (.num 4) (.num 4) = true ∧
    ((fun t => t.outPre c = none)) (s.taken h (.write (.obj .OUT_CMD c 0) (.num 4)))) (h1) (0) (live) := by decide
theorem witness_OutputCommandsComplete_4 : (fun (h : Hdr) (c : ChanNo) (s : State) => s.passes h .OUT_CMD c 0 (.num 0) (.num 0) = true)
    (h1) (0) (net) := by decide
theorem witness_OutputCommandsComplete_5 : (fun (h : Hdr) (c : ChanNo) (s : State) => s.passes h .OUT_CMD c 0 (.num 3) (.num 3) = true)
    (h1) (0) (net) := by decide
theorem witness_OutputCommandsComplete_6 : (fun (h : Hdr) (c : ChanNo) (v : Int) (s : State) => s.passes h .BOOST_DECL c 0 (.num v) (.num
    v) = true ∧ ((fun t => t.sliceConflict .BOOST_DECL c v = false ∧ t.admits (t.wr .BOOST_DECL c 0 v) = true)) (s.taken h (.write (.obj
    .BOOST_DECL c 0) (.num v)))) (h1) (0) (1) (net) := by decide
theorem witness_LoopWritesComplete_1 : (fun (h : Hdr) (c : ChanNo) (s : State) => s.passes h .LAW_HOLD c 0 (.num 1) (.num 1) = true) (h1)
    (0) (net) := by decide
theorem witness_LoopWritesComplete_2 : (fun (h : Hdr) (c : ChanNo) (s : State) => s.passes h .LAW_HOLD c 0 (.num 0) (.num 0) = true) (h1)
    (0) (net) := by decide
theorem witness_LoopWritesComplete_3 : (fun (h : Hdr) (g : GroupNo) (s : State) => s.passes h .CTL_RUN g 0 (.num 1) (.num 1) = true ∧
    ((fun t => t.fenceStatus (srcCtl g) = none ∧ (t.gr g).ctl = false ∧ (t.gr g).ctlStart = none ∧ (t.gr g).filt ≠ .stopped ∧ t.rdT
    .FILT_RUN g = true)) (s.taken h (.write (.obj .CTL_RUN g 0) (.num 1)))) (h1) (0) ((net.wr .FILT_RUN 0 0 1).modGr 0 fun r =>
    { r with filt := .running }) := by decide
theorem witness_LoopWritesComplete_4 : (fun (h : Hdr) (c : ChanNo) (g : GroupNo) (s : State) => s.passes h .CTL_RUN g 0 (.num 0) (.num 0)
    = true ∧ ((fun t => (∀ c ∈ chansOf g, (t.ch c).out.charged = false) ∧ (t.gr g).ctl = true)) (s.taken h (.write (.obj .CTL_RUN g 0)
    (.num 0)))) (h1) (0) (0) (net.modGr 0 fun r => { r with ctl := true }) := by decide
theorem witness_LoopWritesComplete_5 : (fun (h : Hdr) (g : GroupNo) (s : State) => s.passes h .FILT_RUN g 0 (.num 1) (.num 1) = true ∧
    ((fun t => t.filtFence g = none ∧ (t.gr g).powered = true ∧ (t.gr g).filt = .stopped ∧ (t.gr g).filtStart = none)) (s.taken h (.write
    (.obj .FILT_RUN g 0) (.num 1)))) (h1) (0) (net) := by decide
theorem witness_LoopWritesComplete_6 : (fun (h : Hdr) (g : GroupNo) (s : State) => s.passes h .FILT_RUN g 0 (.num 0) (.num 0) = true ∧
    ((fun t => t.rdT .CTL_RUN g = false ∧ (t.gr g).ctlStart = none ∧ (t.gr g).filt ≠ .stopped)) (s.taken h (.write (.obj .FILT_RUN g 0)
    (.num 0)))) (h1) (0) ((net.wr .CTL_RUN 0 0 0).modGr 0 fun r => { r with filt := .running }) := by decide
theorem witness_RangeWritesComplete_1 : (fun (h : Hdr) (c : ChanNo) (v : Int) (s : State) => s.passes h .V_RANGE c 0 (.num v) (.num v) =
    true) (h1) (0) (0) (net) := by decide
theorem witness_RangeWritesComplete_2 : (fun (h : Hdr) (c : ChanNo) (v : Int) (s : State) => s.passes h .I_RANGE c 0 (.num v) (.num v) =
    true) (h1) (0) (5) (net) := by decide
theorem witness_RangeWritesComplete_3 : (fun (h : Hdr) (c : ChanNo) (v : Int) (s : State) => s.passes h .RANGE_SET c 0 (.num v) (.num v) =
    true) (h1) (0) (0x05) (net) := by decide
theorem witness_ChanterWritesComplete_1 : (fun (h : Hdr) (c : ChanNo) (s : State) => s.passes h .CHT_CMD c 0 (.num 0) (.num 0) = true)
    (h1) (0) (net) := by decide
theorem witness_ChanterWritesComplete_2 : (fun (h : Hdr) (c : ChanNo) (s : State) => s.passes h .CHT_CMD c 0 (.num 1) (.num 1) = true ∧
    ((fun t => t.strobes (grpOf c) = true)) (s.taken h (.write (.obj .CHT_CMD c 0) (.num 1)))) (h1) (0) ((net.wr .SW_LEN 0 0 8)) := by
    decide
theorem witness_ChanterWritesComplete_3 : (fun (h : Hdr) (c : ChanNo) (s : State) => s.passes h .CHT_CMD c 0 (.num 1) (.num 1) = true ∧
    ((fun t => t.strobes (grpOf c) = false)) (s.taken h (.write (.obj .CHT_CMD c 0) (.num 1)))) (h1) (0) (((net.wr .SW_LEN 0 0 8).setTb 0
    4)) := by decide
theorem witness_ChanterWritesComplete_4 : (fun (h : Hdr) (c : ChanNo) (s : State) => s.passes h .CHT_CMD c 0 (.num 2) (.num 2) = true)
    (h1) (0) (net) := by decide
theorem witness_ChanterWritesComplete_5 : (fun (h : Hdr) (c : ChanNo) (s : State) => s.passes h .CHT_CMD c 0 (.num 3) (.num 3) = true)
    (h1) (0) (net) := by decide
theorem witness_ChanterWritesComplete_6 : (fun (h : Hdr) (c : ChanNo) (s : State) => s.passes h .CHT_CMD c 0 (.num 4) (.num 4) = true)
    (h1) (0) (net) := by decide
theorem witness_ChanterWritesComplete_7 : (fun (h : Hdr) (n : Fin 64) (v : Int) (s : State) => s.passes h .WAVE_LEN n 0 (.num v) (.num v)
    = true ∧ ((fun t => (t.wavePlaces n 0 v.toNat).any t.pageDead = false)) (s.taken h (.write (.obj .WAVE_LEN n 0) (.num v)))) (h1) (63)
    (4) (net) := by decide
theorem witness_MatrixWritesComplete_1 : (fun (h : Hdr) (c : ChanNo) (v : Int) (s : State) => s.passes h .EP_CONNECT c 0 (.num v) (.num v)
    = true ∧ ((fun _ => v ≠ 65535)) (s.taken h (.write (.obj .EP_CONNECT c 0) (.num v)))) (h1) (0) (0) (net) := by decide
theorem witness_MatrixWritesComplete_2 : (fun (h : Hdr) (c : ChanNo) (s : State) => s.passes h .EP_CONNECT c 0 (.num 65535) (.num 65535) =
    true) (h1) (0) (net) := by decide
theorem witness_MatrixWritesComplete_3 : (fun (h : Hdr) (l : Fin 8) (s : State) => s.passes h .MTX_RESTART l 0 (.num 1) (.num 1) = true ∧
    ((fun t => t.fenceStatus srcMtx = none ∧ t.fenceStatus (srcSp 0) = none)) (s.taken h (.write (.obj .MTX_RESTART l 0) (.num 1)))) (h1)
    (7) (net) := by decide
theorem witness_MatrixWritesComplete_4 : (fun (h : Hdr) (ep : Fin 1048576) (s : State) => s.passes h .LEDGER_CMD 0 0 (.num (ledgerWord 1
    ep)) (.num (ledgerWord 1 ep)) = true ∧ ((fun t => t.resvBy ep = none ∧ t.mtx.partner.get (fun _ => 0) ep = 0)) (s.taken h (.write
    (.obj .LEDGER_CMD 0 0) (.num (ledgerWord 1 ep))))) (h2) (1048575) (sec) := by decide
theorem witness_MatrixWritesComplete_5 : (fun (h : Hdr) (ep : Fin 1048576) (s : State) => s.passes h .LEDGER_CMD 0 0 (.num (ledgerWord 2
    ep)) (.num (ledgerWord 2 ep)) = true ∧ ((fun t => t.resvBy ep = none ∧ t.mtx.partner.get (fun _ => 0) ep = 0)) (s.taken h (.write
    (.obj .LEDGER_CMD 0 0) (.num (ledgerWord 2 ep))))) (h2) (0) (sec) := by decide
theorem witness_MatrixWritesComplete_6 : (fun (h : Hdr) (ep : Fin 1048576) (s : State) => s.passes h .LEDGER_CMD 0 0 (.num (ledgerWord 3
    ep)) (.num (ledgerWord 3 ep)) = true ∧ ((fun t => t.resvBy ep = none ∧ t.mtx.partner.get (fun _ => 0) ep = 0)) (s.taken h (.write
    (.obj .LEDGER_CMD 0 0) (.num (ledgerWord 3 ep))))) (h2) (3) (sec) := by decide
theorem witness_MatrixWritesComplete_7 : (fun (h : Hdr) (s : State) => s.passes h .LEDGER_COMMIT 0 0 (.num 1) (.num 1) = true ∧ ((fun t =>
    t.mtx.committing = none ∧ (t.mtx.commitAt = 0 ∨ t.mtx.commitAt + 1000000000 ≤ t.now))) (s.taken h (.write (.obj .LEDGER_COMMIT 0 0)
    (.num 1)))) (h1) (net) := by decide
theorem witness_MonitorRequestsComplete_1 : (fun (h : Hdr) (g : GroupNo) (v : Int) (s : State) => s.passes h .MON_URGENT g 0 (.num v)
    (.num v) = true ∧ ((fun t => (t.gr g).mon.phase = .down ∧ (t.gr g).mon.waits = false ∧ t.fenceStatus (srcMon g) = none ∧ t.monAlive g
    = true)) (s.taken h (.write (.obj .MON_URGENT g 0) (.num v)))) (h1) (0) (0) (net.wr .MON_ENTRY 0 0 (2 ^ 63)) := by decide
theorem witness_MonitorRequestsComplete_2 : (fun (h : Hdr) (g : GroupNo) (e : Fin 16) (v : Int) (s : State) => s.passes h .MON_ENTRY g e
    (.num v) (.num v) = true) (h1) (0) (15) (0) (net) := by decide
theorem witness_MonitorRequestsComplete_3 : (fun (h : Hdr) (g : GroupNo) (s : State) => s.passes h .MON_RESTART g 0 (.num 1) (.num 1) =
    true) (h1) (0) (net) := by decide
theorem witness_MonitorRequestsComplete_4 : (fun (h : Hdr) (s : State) => s.passes h .MTRGO_PULSE 0 0 (.num 1) (.num 1) = true) (h1) (net)
    := by decide
theorem witness_MonitorRequestsComplete_5 : (fun (h : Hdr) (g : GroupNo) (e : Fin 16) (s : State) => s.takes h (.read (.obj .MON_ACC_A g
    e)) = true ∧ ((fun t => t.pendBy (Change.ofSession (h.sess + 16 * (t.se h.sess).inc)) .MON_ACC_A g e = none)) (s.taken h (.read (.obj
    .MON_ACC_A g e)))) (h1) (0) (15) (net) := by decide
theorem witness_MonitorRequestsComplete_6 : (fun (h : Hdr) (g : GroupNo) (e : Fin 16) (s : State) => s.takes h (.read (.obj .MON_ACC_B g
    e)) = true ∧ ((fun t => t.pendBy (Change.ofSession (h.sess + 16 * (t.se h.sess).inc)) .MON_ACC_B g e = none)) (s.taken h (.read (.obj
    .MON_ACC_B g e)))) (h1) (0) (0) (net) := by decide
theorem witness_MonitorRequestsComplete_7 : (fun (h : Hdr) (g : GroupNo) (s : State) => s.takes h (.read (.obj .MON_SNAP g 0)) = true ∧
    ((fun t => t.pendBy (Change.ofSession (h.sess + 16 * (t.se h.sess).inc)) .MON_SNAP g 0 = none)) (s.taken h (.read (.obj .MON_SNAP g
    0)))) (h1) (0) (net) := by decide
theorem witness_ReedAndEventWritesComplete_1 : (fun (h : Hdr) (c : ChanNo) (s : State) => s.passes h .REED_CLEAR c 0 (.num 1) (.num 1) =
    true) (h1) (0) (net) := by decide
theorem witness_ReedAndEventWritesComplete_2 : (fun (h : Hdr) (g : GroupNo) (s : State) => s.passes h .REED_TEST g 0 (.num 1) (.num 1) =
    true) (h1) (0) (net) := by decide
theorem witness_ReedAndEventWritesComplete_3 : (fun (h : Hdr) (n : Fin 256) (s : State) => s.passes h .EV_FIRE n 0 (.num 1) (.num 1) =
    true ∧ ((fun t => t.evEnabled n = true)) (s.taken h (.write (.obj .EV_FIRE n 0) (.num 1)))) (h1) (255) (((net.wr .EV_CTRL 255 0 1).wr
    .EG_EN 0 0 0x8000)) := by decide
theorem witness_ReedAndEventWritesComplete_4 : (fun (h : Hdr) (s : State) => s.passes h .EV_LOG_CLEAR 0 0 (.num 1) (.num 1) = true) (h1)
    (net) := by decide
theorem witness_FaultAndCalWritesComplete_3 : (fun (h : Hdr) (g : GroupNo) (s : State) => s.passes h .CAL_CMD g 0 (.num 2) (.num 2) =
    true) (h1) (0) (net) := by decide
theorem witness_FaultAndCalWritesComplete_4 : (fun (h : Hdr) (v : Int) (s : State) => s.passes h .FLT_UNFENCE 0 0 (.num v) (.num v) =
    true) (h2) (528) (sec.setFence [528] 528 false) := by decide
theorem witness_FaultAndCalWritesComplete_5 : (fun (h : Hdr) (s : State) => s.passes h .FLT_SAFE 0 0 (.num 1) (.num 1) = true) (h2) (sec)
    := by decide
theorem witness_FaultAndCalWritesComplete_6 : (fun (h : Hdr) (s : State) => s.passes h .FLT_LOG_CLEAR 0 0 (.num 1) (.num 1) = true) (h2)
    (sec) := by decide
theorem witness_FaultAndCalWritesComplete_7 : (fun (h : Hdr) (ty : Fin 23) (v : Int) (s : State) => s.passes h .FLT_N ty 0 (.num v) (.num
    v) = true) (h2) (22) (255) (sec) := by decide
theorem witness_FaultAndCalWritesComplete_8 : (fun (h : Hdr) (ty : Fin 23) (v : Int) (s : State) => s.passes h .FLT_W ty 0 (.num v) (.num
    v) = true) (h2) (0) (3600000) (sec) := by decide
theorem witness_NetWritesComplete_1 : (fun (h : Hdr) (n : Fin 2) (v : Int) (s : State) => s.passes h .NET_MODE n 0 (.num v) (.num v) =
    true) (h1) (1) (1) (net) := by decide
theorem witness_NetWritesComplete_2 : (fun (h : Hdr) (n : Fin 2) (v : Int) (s : State) => s.passes h .NET_AN n 0 (.num v) (.num v) = true)
    (h1) (0) (0) (net) := by decide
theorem witness_NetWritesComplete_3 : (fun (h : Hdr) (v : Int) (s : State) => s.passes h .TIME_SRC 0 0 (.num v) (.num v) = true) (h1) (1)
    (net) := by decide
theorem witness_NetWritesComplete_4 : (fun (h : Hdr) (k : Fin 32) (s : State) => s.passes h .STREAM_EN k 0 (.num 1) (.num 1) = true) (h1)
    (31) (net.wr .STREAM_DEST_IP 31 0 9) := by decide
theorem witness_NetWritesComplete_5 : (fun (h : Hdr) (k : Fin 32) (s : State) => s.passes h .STREAM_EN k 0 (.num 0) (.num 0) = true) (h1)
    (0) (net) := by decide
theorem witness_SerialRequestsComplete_1 : (fun (h : Hdr) (v : Int) (s : State) => s.passes h .SP1_GO 0 0 (.num v) (.num v) = true ∧ ((fun
    t => t.sp1Role = none ∧ t.mbox.list = none)) (s.taken h (.write (.obj .SP1_GO 0 0) (.num v)))) (h1) (0) (net.wrV .SP1_TX 0 0 (.bytes
    [0#8, 0#8, 0#8, 1#8])) := by decide
theorem witness_SerialRequestsComplete_2 : (fun (h : Hdr) (v : Int) (s : State) => s.passes h .SP1_GO 0 0 (.num v) (.num v) = true ∧ ((fun
    t => t.sp1Role = none ∧ t.mbox.list ≠ none)) (s.taken h (.write (.obj .SP1_GO 0 0) (.num v)))) (h1) (0)
    ({ net.wrV .SP1_TX 0 0 (.bytes [0#8, 0#8, 0#8, 1#8]) with mbox := { net.mbox with list := some (1, [5], none) } }) := by decide
theorem witness_SerialRequestsComplete_3 : (fun (h : Hdr) (ws : List Nat) (s : State) => s.passes h .SP1_MB_TX 0 0 (.raw 15 (mailboxBytes
    ws)) (.bytes (ws.flatMap (beBytes 4))) = true ∧ ((fun t => (∀ w ∈ ws, w < 2 ^ 32) ∧ t.mbox.txq.length + ws.length ≤ 64)) (s.taken h
    (.write (.obj .SP1_MB_TX 0 0) (.raw 15 (mailboxBytes ws))))) (h1) ([4294967295, 1])
    ({ net with mbox := { net.mbox with txq := List.replicate 62 0 } }) := by decide
theorem witness_SerialRequestsComplete_4 : (fun (h : Hdr) (ws : List Nat) (s : State) => s.passes h .SP1_MB_TX 0 0 (.raw 15 (mailboxBytes
    ws)) (.bytes (ws.flatMap (beBytes 4))) = true ∧ ((fun t => (∀ w ∈ ws, w < 2 ^ 32) ∧ 64 < t.mbox.txq.length + ws.length)) (s.taken h
    (.write (.obj .SP1_MB_TX 0 0) (.raw 15 (mailboxBytes ws))))) (h1) ([4294967295, 1])
    ({ net with mbox := { net.mbox with txq := List.replicate 63 0 } }) := by decide
theorem witness_SerialRequestsComplete_5 : (fun (h : Hdr) (s : State) => s.takes h (.read (.obj .SP1_MB_RX 0 0)) = true ∧ ((fun t =>
    t.pendBy (Change.ofSession (h.sess + 16 * (t.se h.sess).inc)) .SP1_MB_RX 0 0 = none)) (s.taken h (.read (.obj .SP1_MB_RX 0 0)))) (h1)
    (net) := by decide
theorem witness_SerialRequestsComplete_6 : (fun (h : Hdr) (n : Fin 2) (s : State) => s.passes h .SP_RESTART n 0 (.num 1) (.num 1) = true ∧
    ((fun t => t.fencedSrc (srcSp n) = true)) (s.taken h (.write (.obj .SP_RESTART n 0) (.num 1)))) (h1) (1) (net.setFence [srcSp 1]
    (srcSp 1) false) := by decide
theorem witness_SerialRequestsComplete_7 : (fun (h : Hdr) (n : Fin 2) (s : State) => s.passes h .SP_CLEAR n 0 (.num 1) (.num 1) = true)
    (h1) (0) (net) := by decide
theorem witness_PairWritesComplete_1 : (fun (h : Hdr) (s : State) => s.passes h .PAIR_EN 0 0 (.num 1) (.num 1) = true ∧ ((fun t => t.rdT
    .PAIR_EN = false)) (s.taken h (.write (.obj .PAIR_EN 0 0) (.num 1)))) (h1) (net) := by decide
theorem witness_PairWritesComplete_2 : (fun (h : Hdr) (s : State) => s.passes h .PAIR_EN 0 0 (.num 0) (.num 0) = true ∧ ((fun t => t.rdT
    .PAIR_EN = true)) (s.taken h (.write (.obj .PAIR_EN 0 0) (.num 0)))) (h1) (net.wr .PAIR_EN 0 0 1) := by decide
theorem witness_PairWritesComplete_3 : (fun (h : Hdr) (g : GroupNo) (s : State) => s.passes h .PAIR_HANDOVER g 0 (.num 1) (.num 1) = true
    ∧ ((fun t => t.role g = 2 ∧ (t.gr g).pair.partner = 4 ∧ (∀ c ∈ chansOf g, (t.ch c).slide.phase = .idle ∧ (t.ch c).slide.pend = none) ∧
    (t.gr g).cal.phase = 0 ∧ (t.gr g).cal.starting = none ∧ (t.gr g).hand = 0 ∧ (t.gr g).pair.give = none ∧ t.strobes g = true)) (s.taken
    h (.write (.obj .PAIR_HANDOVER g 0) (.num 1)))) (h1) (0) ((net.wr .PAIR_ROLE 0 0 2).modGr 0 fun r =>
    { r with pair := { r.pair with partner := 4 } }) := by decide
theorem witness_PowerWritesComplete_1 : (fun (h : Hdr) (s : State) => s.passes h .SYS_RESET 0 0 (.num 1) (.num 1) = true) (h2) (sec) := by
    decide
theorem witness_PowerWritesComplete_2 : (fun (h : Hdr) (g : GroupNo) (s : State) => s.passes h .GROUP_PWR g 0 (.num 0) (.num 0) = true ∧
    ((fun t => t.rdT .CTL_RUN g = false ∧ t.rdT .FILT_RUN g = false ∧ (t.gr g).ctl = false ∧ (t.gr g).filt = .stopped ∧ (t.gr g).powered =
    true)) (s.taken h (.write (.obj .GROUP_PWR g 0) (.num 0)))) (h2) (0) (((sec.wr .CTL_RUN 0 0 0).wr .FILT_RUN 0 0 0)) := by decide
theorem witness_PowerWritesComplete_3 : (fun (h : Hdr) (g : GroupNo) (s : State) => s.passes h .GROUP_PWR g 0 (.num 1) (.num 1) = true ∧
    ((fun t => (t.gr g).powered = false)) (s.taken h (.write (.obj .GROUP_PWR g 0) (.num 1)))) (h2) (0) (sec.modGr 0 fun r =>
    { r with powered := false }) := by decide
theorem witness_PowerWritesComplete_4 : (fun (h : Hdr) (s : State) => s.passes h .PWR_CMD 0 0 (.num 2) (.num 2) = true ∧ ((fun t =>
    t.latch = false ∧ (∀ k ∈ allGroups, t.rd .PAIR_ROLE k = 0) ∧ (t.rd .PWR_STATE = 1 ∨ t.rd .PWR_STATE = 2))) (s.taken h (.write (.obj
    .PWR_CMD 0 0) (.num 2)))) (h2) (sec.wr .PWR_STATE 0 0 1) := by decide
theorem witness_RtcSetRule_1 : (fun (h : Hdr) (v : Int) (s : State) => s.passes h .RTC_SET 0 0 (.num v) (.num v) = true ∧ ((fun t => t.rd
    .PTP_STATE = 3)) (s.taken h (.write (.obj .RTC_SET 0 0) (.num v)))) (h2) (4294967296) (sec.wr .PTP_STATE 0 0 3) := by decide
theorem witness_RtcSetRule_2 : (fun (h : Hdr) (v : Int) (s : State) => s.passes h .RTC_SET 0 0 (.num v) (.num v) = true ∧ ((fun t => t.rd
    .PTP_STATE ≠ 3)) (s.taken h (.write (.obj .RTC_SET 0 0) (.num v)))) (h2) (4294967296) (sec) := by decide
theorem witness_TickEventsComplete_1 : (fun (s : State) => ((fun s => s.framesRun = true)) s)  (run) := by decide
theorem witness_TickEventsComplete_2 : (fun (g : GroupNo) (s : State) => ((fun s => s.framesRun = true ∧ s.strobes g = true)) s) (0) (run)
    := by decide
theorem witness_TickEventsComplete_3 : (fun (g : GroupNo) (s : State) => ((fun s => s.framesRun = true ∧ s.strobes g = true)) s) (0) (run)
    := by decide
theorem witness_TickEventsComplete_4 : (fun (g : GroupNo) (s : State) => ((fun s => s.framesRun = true ∧ s.strobes g = true)) s) (0) (run)
    := by decide
theorem witness_TickEventsComplete_5 : (fun (g : GroupNo) (s : State) => ((fun s => s.framesRun = true ∧ s.strobes g = true)) s) (0) (run)
    := by decide
theorem witness_ClockEventsComplete_1 : (fun (tb : Fin 25) (f : ClkState) (s : State) => ((fun s => tb.val ≠ tbA ∧ f ≠ .good ∧ s.tb tb = 2
    ∧ bit s.clk.tbWarn tb = false)) s) (0) (.fast) (run) := by decide
theorem witness_ClockEventsComplete_2 : (fun (tb : Fin 25) (f : ClkState) (s : State) => ((fun s => tb.val ≠ tbA ∧ f ≠ .good ∧ s.tb tb = 2
    ∧ bit s.clk.tbWarn tb = true)) s) (23) (.slow) ({ run with clk := { run.clk with tbWarn := 2 ^ 23 } }) := by decide
theorem witness_ClockEventsComplete_3 : (fun (tb : Fin 25) (s : State) => ((fun s => tb.val ≠ tbA ∧ s.tb tb = 4)) s) (16) (run.setTb 16 4)
    := by decide
theorem witness_ClockEventsComplete_5 : (fun (s : State) => ((fun s => s.latch = true)) s)  ({ run with latch := true }) := by decide
theorem witness_ClockEventsComplete_6 : (fun (edges : Nat) (s : State) => ((fun s => s.tb tbC ≠ 4 ∧ 100000 * edges < 87890625)) s) (878)
    (run) := by decide
theorem witness_ClockEventsComplete_7 : (fun (edges : Nat) (s : State) => ((fun s => s.tb tbC ≠ 4 ∧ 107421875 < 100000 * edges)) s) (1075)
    (run) := by decide
theorem witness_ClockEventsComplete_8 : (fun (g : GroupNo) (s : State) => ((fun s => s.tb tbA ≠ 4 ∧ s.clk.refAt = none ∧ s.pwr.asleep =
    false ∧ ∀ g ∈ allGroups, (s.gr g).powered = false ∨ s.tb g = 2 ∨ s.pwr.stage ≠ 5)) s) (0) ((run.setTb 0 4).modGr 0 fun r =>
    { r with powered := false }) := by decide
theorem witness_ClockEventsComplete_9 : (fun (g : GroupNo) (s : State) => ((fun s => s.tb tbA ≠ 4 ∧ s.clk.refAt = none ∧ s.pwr.asleep =
    false ∧ ∀ k ∈ allGroups, ((s.gr k).powered = true ∧ s.tb k ≠ 2 ∧ s.pwr.stage = 5) ↔ k = g.val)) s) (15) (run.setTb 15 4) := by decide
theorem witness_ClockEventsComplete_10 : (fun (g : GroupNo) (n : Nat) (s : State) => ((fun s => s.tb tbA = 4 ∧ s.stopCause = some n ∧
    s.cause = none ∧ s.clk.refAt = none ∧ s.pwr.asleep = false ∧ ∀ g ∈ allGroups, (s.gr g).powered = false ∨ s.pwr.stage ≠ 5)) s) (0) (5)
    ({ ((run.setTb 24 4).each allGroups fun s g => s.modGr g fun r => { r with powered := false }) with stopCause := some 5 }) := by
    decide
theorem witness_ClockEventsComplete_11 : (fun (s : State) => ((fun s => s.tb tbA ≠ 4 ∧ s.clk.refAt = none ∧ s.pwr.asleep = true ∧
    s.pwr.sleepTicks + 1 < s.rdN .REED_SLEEP_DIV)) s)  ({ run with pwr := { run.pwr with asleep := true } }) := by decide
theorem witness_ClockEventsComplete_12 : (fun (s : State) => ((fun s => s.tb tbA ≠ 4 ∧ s.clk.refAt = none ∧ s.pwr.asleep = true ∧ s.rdN
    .REED_SLEEP_DIV ≤ s.pwr.sleepTicks + 1)) s)  ({ run with pwr := { run.pwr with asleep := true, sleepTicks := 70000000 } }) := by
    decide
theorem witness_RampEventsComplete_1 : (fun (c : ChanNo) (s : State) => ((fun s => (s.ch c).out = .armed ∧ (s.ch c).transit = true ∧ (s.ch
    c).armFrom = none ∧ s.strobes (grpOf c) = true)) s) (0) (run.modCh 0 fun h => { h with out := .armed, transit := true }) := by decide
theorem witness_RampEventsComplete_2 : (fun (c : ChanNo) (s : State) => ((fun s => s.rampOver c = true)) s) (0) (run.modCh 0 fun h =>
    { h with out := .force, transit := true, rampEnd := some 5 }) := by decide
theorem witness_RampEventsComplete_3 : (fun (c : ChanNo) (d : Nat) (s : State) => ((fun s => (s.ch c).out = .safe ∧ (s.ch c).transit =
    true ∧ (s.ch c).rampEnd = some d ∧ d ≤ s.now)) s) (0) (9000000000000) (run.modCh 0 fun h =>
    { h with out := .safe, transit := true, rampEnd := some 9000000000000 }) := by decide
theorem witness_RangeEventsComplete_1 : (fun (c : ChanNo) (r : RangeReq) (s : State) => ((fun s => (s.ch c).slide.phase = .prep 0 ∧ (s.ch
    c).slide.req = some r ∧ (s.ch c).evaluated = true)) s) (0) ({ vr := some 1, ir := none, src := .auto }) (run.modCh 0 fun h =>
    { h with run := { h.run with ran := true }, slide := { h.slide with phase := .prep 0, req := some { vr := some 1, ir := none, src := .auto } } })
    := by decide
theorem witness_RangeEventsComplete_2 : (fun (c : ChanNo) (r : RangeReq) (s : State) => ((fun s => (s.ch c).slide.phase = .broken 0 ∧
    (s.ch c).slide.leg2 = none ∧ (s.ch c).slide.req = some r)) s) (0) ({ vr := some 1, ir := none, src := .auto }) (run.modCh 0 fun h =>
    { h with slide := { h.slide with phase := .broken 0, req := some { vr := some 1, ir := none, src := .auto } } }) := by decide
theorem witness_RangeEventsComplete_3 : (fun (c : ChanNo) (r : RangeReq) (n : Nat) (s : State) => ((fun s => (s.ch c).slide.phase =
    .broken 0 ∧ (s.ch c).slide.leg2 = some n ∧ (s.ch c).slide.req = some r ∧ (s.ch c).out.loop = false)) s) (0)
    ({ vr := some 1, ir := none, src := .auto }) (6) (run.modCh 0 fun h =>
    { h with slide := { h.slide with phase := .broken 0, leg2 := some 6, req := some { vr := some 1, ir := none, src := .auto } } }) := by
    decide
theorem witness_RangeEventsComplete_4 : (fun (c : ChanNo) (up : Bool) (n : Nat) (s : State) => ((fun s => (s.ch c).aper.arAsk = some up ∧
    (s.modAper c fun a => { a with arUp := 0, arDn := 0, arAsk := none }).arNext c (s.limCur c) up = some n)) s) (0) (false) (0)
    (((((run.wr .V_RANGE 0 0 1).wr .I_RANGE 0 0 1).wr .AR_V_BOUNDS 0 0 0x10).wr .AR_I_BOUNDS 0 0 0x50).modCh 0 fun h =>
    { h with aper := { h.aper with arAsk := some false } }) := by decide
theorem witness_MeasurementEventsComplete_1 : (fun (slot : Nat) (s : State) => ((fun _ => slot < 33)) s) (32) (run) := by decide
theorem witness_MeasurementEventsComplete_2 : (fun (c : ChanNo) (s : State) => ((fun s => (s.gr (grpOf c)).filt = .running ∧ s.pwr.asleep
    = false)) s) (0) (run.modGr 0 fun r => { r with filt := .running }) := by decide
theorem witness_MeasurementEventsComplete_3 : (fun (g : GroupNo) (s : State) => ((fun s => (s.gr g).filt = .running)) s) (0) (run.modGr 0
    fun r => { r with filt := .running }) := by decide
theorem witness_MeasurementEventsComplete_4 : (fun (c : ChanNo) (r : BRec) (s : State) => ((fun s => (s.ch c).aper.block.getLast? = some r
    ∧ r.made + s.rdN .REC_FLUSH * 1000 ≤ s.now)) s) (0) (⟨0, 0, 0, 0, 0, 1, false, false, 5, none⟩) (run.modCh 0 fun h =>
    { h with aper := { h.aper with block := [⟨0, 0, 0, 0, 0, 1, false, false, 5, none⟩] } }) := by decide
theorem witness_MeasurementEventsComplete_5 : (fun (g : GroupNo) (s : State) => ((fun s => (s.gr g).filt = .filling ∧ 2 ≤ (s.gr g).fill))
    s) (0) (run.modGr 0 fun r => { r with filt := .filling, fill := 2 }) := by decide
theorem witness_MeasurementEventsComplete_6 : (fun (c : ChanNo) (s : State) => ((fun s => s.reserved c < s.rdN .REC_NEXT c + 2 ^ 31 ∧
    (s.ch c).aper.rsvAsked = none ∧ (recPages 0).any s.pageDead = false)) s) (0) (run) := by decide
theorem witness_MeasurementEventsComplete_7 : (fun (c : ChanNo) (n : Nat) (s : State) => ((fun s => (s.ch c).aper.rsvAsked = some n ∧ ∀ p
    ∈ recPages 0, s.pageDead p = false ∧ s.drn.writes.contains p = false)) s) (0) (4294967296) (run.modCh 0 fun h =>
    { h with aper := { h.aper with rsvAsked := some 4294967296 } }) := by decide
theorem witness_ChanterEventsComplete_1 : (fun (c : ChanNo) (a : Nat) (s : State) => ((fun s => s.standby (grpOf c) = false ∧ (s.ch
    c).cht.due = some (some a))) s) (0) (7) (run.modCh 0 fun h => { h with cht := { h.cht with due := some (some 7) } }) := by decide
theorem witness_ChanterEventsComplete_2 : (fun (c : ChanNo) (s : State) => ((fun s => s.standby (grpOf c) = false ∧ (s.ch c).cht.due =
    some none)) s) (0) (run.modCh 0 fun h => { h with cht := { h.cht with due := some none } }) := by decide
theorem witness_ChanterEventsComplete_3 : (fun (c : ChanNo) (s : State) => ((fun s => s.unitDue c = true ∧ s.standby (grpOf c) = false))
    s) (0) (run.modCh 0 fun h => { h with cht := { h.cht with begun := true } }) := by decide
theorem witness_ChanterEventsComplete_4 : (fun (c : ChanNo) (s : State) => ((fun s => (s.ch c).cht.live = true ∧ (s.ch c).cht.st = .settle
    ∧ s.settled c = true ∧ s.standby (grpOf c) = false)) s) (0) (run.modCh 0 fun h =>
    { h with cht := { h.cht with live := true, st := .settle } }) := by decide
theorem witness_ChanterEventsComplete_5 : (fun (c : ChanNo) (s : State) => ((fun s => s.endDue c = true ∧ s.standby (grpOf c) = false)) s)
    (0) (run.modCh 0 fun h => { h with cht := { h.cht with live := true, st := .dwell, cur := {} } }) := by decide
theorem witness_ChanterEventsComplete_6 : (fun (c : ChanNo) (s : State) => ((fun s => s.waveNext c = true ∧ s.standby (grpOf c) = false))
    s) (0) (run.modCh 0 fun h =>
    { h with cht := { h.cht with live := true, cur := { h.cht.cur with entry := 3#128 <<< 125, param := 5#128 } } }) := by decide
theorem witness_MatrixEventsComplete_1 : (fun (c : ChanNo) (l : Nat) (us : Nat) (rest : List ClaimReq) (a : Ans) (ws : List (Nat × Ans))
    (s : State) => ((fun s => s.mtx.claims = ⟨us, c.val, false⟩ :: rest ∧ (s.ch c).hold.want = (l, a) :: ws)) s) (0) (9) (4) ([]) (none)
    ([])
    ({ (run.modCh 0 fun h => { h with hold := { h.hold with want := [(9, none)] } }) with mtx := { State.reset.mtx with claims := [⟨4, 0, false⟩] } })
    := by decide
theorem witness_MatrixEventsComplete_2 : (fun (c : ChanNo) (us : Nat) (rest : List ClaimReq) (s : State) => ((fun s => s.mtx.claims = ⟨us,
    c.val, true⟩ :: rest ∧ (s.ch c).cht.begun = true ∧ (s.ch c).cht.nu.claim = .asked)) s) (0) (4) ([])
    ({ (run.modCh 0 fun h => { h with cht := { h.cht with begun := true, nu := { h.cht.nu with claim := .asked } } }) with mtx := { State.reset.mtx with claims := [⟨4, 0, true⟩] } })
    := by decide
theorem witness_MatrixEventsComplete_3 : (fun (t : Txn) (s : State) => ((fun s => s.commitDemand = s ∧ s.mtx.cur = none ∧ s.sp0.on = true
    ∧ s.sp0.role ≠ 1 ∧ s.chooseTxn = some t ∧ (s.lineFenced t.line = false ∨ t.restart = true) ∧ s.fencedSrc srcMtx = false ∧ s.fencedSrc
    (srcSp 0) = false ∧ (s.now - t.since) / 1000 ≤ s.rdN .SP0_WAIT_MAX)) s) ((newTxn none 0 10000000000000 [(0, opBreakAll, 0)]))
    (run.addTxn (newTxn none 0 10000000000000 [(0, opBreakAll, 0)])) := by decide
theorem witness_MatrixEventsComplete_5 : (fun (t : Txn) (s : State) => ((fun s => s.commitDemand = s ∧ s.mtx.cur = none ∧ s.sp0.on = true
    ∧ s.sp0.role = 1 ∧ s.chooseTxn = some t ∧ s.fencedSrc (srcSp 0) = false)) s) ((newTxn none 0 10000000000000 [(0, opBreakAll, 0)]))
    ({ run with sp0 := { run.sp0 with role := 1 } }.addTxn (newTxn none 0 10000000000000 [(0, opBreakAll, 0)])) := by decide
theorem witness_MatrixEventsComplete_6 : (fun (t : Txn) (w : BitVec 32) (s : State) => ((fun s => s.mtx.cur = some t ∧ s.mtx.await = some
    w ∧ s.mtx.first = false ∧ wOp w ≠ opNop)) s) ((newTxn none 0 0 [])) ((mtxWord 3 opMake 0 1))
    ({ run with mtx := { run.mtx with first := false, cur := some (newTxn none 0 0 []), await := some (mtxWord 3 opMake 0 1) } }) := by
    decide
theorem witness_MatrixEventsComplete_7 : (fun (c : ChanNo) (x : Nat × Option Nat) (s : State) => ((fun s => (s.ch c).hold.old.find?
    s.breakDue = some x ∧ (s.ch c).hold.ep ≠ some x.1 ∧ (s.ch c).hold.coming = none ∧ ((s.ch c).hold.old.erase x).any (fun y => y.1 = x.1)
    = false ∧ (s.ch c).cht.granted x.1 = false)) s) (0) ((4, some 0)) (run.modCh 0 fun h =>
    { h with hold := { h.hold with old := [(4, some 0)] } }) := by decide
theorem witness_MatrixEventsComplete_8 : (fun (c : ChanNo) (q : Nat) (x : Nat × Option Nat) (s : State) => ((fun s => (s.ch c).hold.old =
    [x] ∧ s.breakDue x = true ∧ (s.ch c).hold.ep = none ∧ (s.ch c).hold.coming = some q ∧ x.1 ≠ q ∧ (s.ch c).cht.granted x.1 = false)) s)
    (0) (5) ((4, some 0)) (run.modCh 0 fun h => { h with hold := { h.hold with old := [(4, some 0)], coming := some 5 } }) := by decide
theorem witness_MatrixEventsComplete_9 : (fun (c : ChanNo) (p : Nat) (k : Nat) (s : State) => ((fun s => (s.ch c).hold.ep = some p ∧ (s.ch
    c).hold.coming = some p ∧ (s.ch c).hold.makeFrom = some k ∧ s.txnOf c = false ∧ k + s.rdN .MTX_SETTLE (s.lineOf p) * 100 ≤ s.now)) s)
    (0) (4) (0) (run.modCh 0 fun h => { h with hold := { h.hold with ep := some 4, coming := some 4, makeFrom := some 0 } }) := by decide
theorem witness_MatrixEventsComplete_10 : (fun (s : State) => ((fun s => s.droneUp = true ∧ s.mtx.committing = none ∧ s.mtx.commitNext =
    [] ∧ s.drn.dueLed ≤ s.now)) s)  (run) := by decide
theorem witness_MatrixEventsComplete_11 : (fun (s : State) => ((fun s => s.droneUp = true ∧ s.mtx.committing = none ∧ s.mtx.commitNext ≠
    [] ∧ s.mtx.commitAt + 1000000000 ≤ s.now)) s)  ({ run with mtx := { run.mtx with commitNext := [none] } }) := by decide
theorem witness_MatrixEventsComplete_12 : (fun (s : State) => ((fun s => s.mtx.committing = some [] ∧ s.mtx.commitMore = false)) s) 
    ({ run with mtx := { run.mtx with committing := some [] } }) := by decide
theorem witness_MatrixEventsComplete_13 : (fun (s : State) => ((fun s => s.mtx.committing = some [] ∧ s.mtx.commitMore = true)) s) 
    ({ run with mtx := { run.mtx with committing := some [], commitMore := true } }) := by decide
theorem witness_MonitorEventsComplete_2 : (fun (g : GroupNo) (x : Nat × Nat) (l : List (Nat × Nat)) (s : State) => ((fun s => (s.gr
    g).mon.phase = .startup ∧ (s.gr g).mon.run = x :: l)) s) (0) ((1, 2)) ([]) (run.modGr 0 fun r =>
    { r with mon := { r.mon with phase := .startup, run := [(1, 2)] } }) := by decide
theorem witness_MonitorEventsComplete_3 : (fun (g : GroupNo) (x : Nat × Nat) (y : Nat × Nat) (l : List (Nat × Nat)) (s : State) => ((fun s
    => (s.gr g).mon.phase = .slot ∧ (s.gr g).mon.run = x :: y :: l)) s) (0) ((1, 2)) ((2, 3)) ([]) (run.modGr 0 fun r =>
    { r with mon := { r.mon with phase := .slot, run := [(1, 2), (2, 3)] } }) := by decide
theorem witness_MonitorEventsComplete_4 : (fun (g : GroupNo) (x : Nat × Nat) (s : State) => ((fun s => (s.gr g).mon.phase = .slot ∧ (s.gr
    g).mon.run = [x])) s) (0) ((1, 2)) (run.modGr 0 fun r => { r with mon := { r.mon with phase := .slot, run := [(1, 2)] } }) := by
    decide
theorem witness_MonitorEventsComplete_5 : (fun (g : GroupNo) (d : Deciding) (ds : List Deciding) (s : State) => ((fun s => (s.gr
    g).mon.deciding = d :: ds)) s) (0) (⟨1, 2, 0, 0⟩) ([]) (run.modGr 0 fun r =>
    { r with mon := { r.mon with deciding := [⟨1, 2, 0, 0⟩] } }) := by decide
theorem witness_MonitorEventsComplete_6 : (fun (g : GroupNo) (off : Int) (ppm : Int) (s : State) => ((fun s => s.monRotates g = true ∧
    (s.gr g).mon.spareA < 7 ∧ off.natAbs ≤ 256 ∧ ppm.natAbs ≤ 20000)) s) (0) ((-256)) (20000) (run) := by decide
theorem witness_MonitorEventsComplete_7 : (fun (g : GroupNo) (off : Int) (s : State) => ((fun s => s.monRotates g = true ∧ (s.gr
    g).mon.spareB < 7 ∧ 256 < off.natAbs)) s) (0) (257) (run) := by decide
theorem witness_MonitorEventsComplete_8 : (fun (m : Nat) (s : State) => ((fun s => s.rd .MTRGO_MODE = 1 ∧ ((m : Int) - s.rd .MTRGO_PHASE)
    % s.rd .MTRGO_PERIOD = 0 ∧ s.pwr.asleep = false)) s) (0) ((run.wr .MTRGO_MODE 0 0 1)) := by decide
theorem witness_MonitorEventsComplete_9 : (fun (s : State) => ((fun s => s.mtrgo.high = true ∧ s.mtrgo.since + 1000 ≤ s.now)) s) 
    ({ run with mtrgo := { high := true, since := 9999999999000 } }) := by decide
theorem witness_ReedAndRouterEventsComplete_1 : (fun (g : GroupNo) (s : State) => ((fun s => s.strobes g = true ∧ s.pwr.asleep = false))
    s) (0) (run) := by decide
theorem witness_ReedAndRouterEventsComplete_2 : (fun (s : State) => ((fun s => s.rd .REED_TEST_PERIOD ≠ 0 ∧ s.droneUp = true ∧
    s.drn.reedAt + s.rdN .REED_TEST_PERIOD * 1000000000 ≤ s.now)) s)  ((run.wr .REED_TEST_PERIOD 0 0 1)) := by decide
theorem witness_ReedAndRouterEventsComplete_3 : (fun (g : GroupNo) (p : Nat) (k : Nat) (s : State) => ((fun s => (s.gr g).test = some (p,
    k) ∧ k < 4 ∧ s.fencedSrc (srcSlice g p) = false ∧ s.testDeferred g p = false)) s) (0) (32) (3) (run.modGr 0 fun r =>
    { r with test := some (32, 3) }) := by decide
theorem witness_ReedAndRouterEventsComplete_4 : (fun (s : State) => ((fun s => s.pairOn = false)) s)  (run) := by decide
theorem witness_ReedAndRouterEventsComplete_5 : (fun (b : Fin 16) (s : State) => ((fun s => bit s.rtr.pulses b = true ∧ s.rtr.evoEnd.get
    (fun _ => 0) b ≤ s.now)) s) (0) ({ run with rtr := { run.rtr with pulses := 1, evoEnd := [(0, 10000000000000)] } }) := by decide
theorem witness_CalibrationEventsComplete_1 : (fun (g : GroupNo) (means : List (Nat × Int × Int)) (a : Nat × Nat) (s : State) => ((fun s
    => (s.gr g).cal.starting = some a ∧ means = [])) s) (0) ([]) ((17, 4)) (run.modGr 0 fun r =>
    { r with cal := { starting := some (17, 4) } }) := by decide
theorem witness_CalibrationEventsComplete_2 : (fun (g : GroupNo) (a : Nat × Nat) (x : Int) (y : Int) (k : Nat) (s : State) => ((fun s =>
    (s.gr g).cal.starting = some a ∧ (s.ch (32 * g + k)).idleOut = true ∧ (s.calChans g).contains (32 * g + k) = true ∧ s.extActive (32 *
    g + k) x y = true)) s) (0) ((17, 4)) (0) (8388607) (31) ((run.wr .CAL_CHANNELS 0 0 0x80000000).modGr 0 fun r =>
    { r with cal := { starting := some (17, 4) } }) := by decide
theorem witness_CalibrationEventsComplete_3 : (fun (g : GroupNo) (k : Nat) (r : Nat) (ps : List Nat) (rs : List Nat) (s : State) => ((fun
    s => (s.gr g).cal.phase = 1 ∧ (s.gr g).cal.todo = k :: ps ∧ (s.gr g).cal.ranges = r :: rs ∧ k < 32 ∧ (s.ch (32 * g + k)).calMeas =
    true ∧ (s.gr g).hand = 0 ∧ (s.gr g).cal.points.length + 1 < calPointCount (s.rdN .CAL_KIND g) r (s.ch (32 * g + k)).calHold)) s) (0)
    (31) (0) ([]) ([]) ((run.modGr 0 fun r => { r with cal := { phase := 1, todo := [31], ranges := [0] } }).modCh 31 fun h =>
    { h with calMeas := true }) := by decide
theorem witness_CalibrationEventsComplete_4 : (fun (g : GroupNo) (s : State) => ((fun s => (s.gr g).cal.phase = 2 ∧ s.drn.writes.any (·.1
    = 13) = false)) s) (0) (run.modGr 0 fun r => { r with cal := { phase := 2 } }) := by decide
theorem witness_CalibrationEventsComplete_5 : (fun (g : GroupNo) (s : State) => ((fun s => (s.gr g).cal.phase = 2 ∧ s.drn.writes.any (·.1
    = 13) = false ∧ s.bankDead 13 = false)) s) (0) (run.modGr 0 fun r => { r with cal := { phase := 2 } }) := by decide
theorem witness_CalibrationEventsComplete_6 : (fun (temp : Int) (s : State) => ((fun _ => temp ≤ 105 * 128)) s) (13440) (run) := by decide
theorem witness_CalibrationEventsComplete_7 : (fun (k : Nat) (temp : Int) (s : State) => ((fun s => 105 * 128 < temp ∧ temp ≤ 120 * 128 ∧
    (s.sl k).temp ≤ 105 * 128)) s) (0) (15360) (run) := by decide
theorem witness_FaultEventsComplete_1 : (fun (m : FaultMsg) (s : State) => ((fun s => (srcType m.source).isSome = true ∧ knownKind m.kind
    = true ∧ s.mustWait m = false)) s) (⟨527, 0x14, 0, 0, .note⟩) (run) := by decide
theorem witness_FaultEventsComplete_2 : (fun (m : FaultMsg) (s : State) => ((fun s => (srcType m.source).isSome = true ∧ knownKind m.kind
    = true ∧ s.mustWait m = true)) s) (⟨527, 6, 0, 0, .note⟩) (busyLog) := by decide
theorem witness_FaultEventsComplete_3 : (fun (us : Nat) (src : Nat) (rest : List (Nat × Nat)) (s : State) => ((fun s => s.flt.arriving =
    (us, src) :: rest ∧ src < 528)) s) (3) (527) ([]) ({ run with flt := { run.flt with arriving := [(3, 527)] } }) := by decide
theorem witness_FaultEventsComplete_4 : (fun (c : ChanNo) (s : State) => ((fun s => (s.ch c).taking = true ∧ (s.ch c).blank = 0)) s) (0)
    (run.modCh 0 fun h => { h with taking := true }) := by decide
theorem witness_FaultEventsComplete_5 : (fun (x : Queued) (q : List Queued) (s : State) => ((fun s => s.flt.queue = x :: q)) s) (⟨⟨⟨5, 2,
    0, 0, .note⟩, .note, 0⟩, 0, 1, false, none⟩) ([])
    ({ run with flt := { run.flt with queue := [⟨⟨⟨5, 2, 0, 0, .note⟩, .note, 0⟩, 0, 1, false, none⟩] } }) := by decide
theorem witness_FaultEventsComplete_7 : (fun (k : Fin 26) (s : State) => ((fun s => (s.flt.lineMsg.get (fun _ => 0) k = 0 ∨
    s.flt.lineMsg.get (fun _ => 0) k - 1 + 10000 < s.now) ∧ s.flt.lineWait.contains k.val = false)) s) (25)
    ({ run with flt := { run.flt with lineMsg := [(25, 9999999990000)] } }) := by decide
theorem witness_FaultEventsComplete_8 : (fun (k : Fin 26) (s : State) => ((fun s => s.flt.lineWait.contains k.val = true)) s) (25)
    ({ run with flt := { run.flt with lineWait := [25] } }) := by decide
theorem witness_FaultEventsComplete_9 : (fun (l : List Nat) (a : Ans) (rel : List Release) (s : State) => ((fun s => s.flt.release = ⟨l,
    a, none⟩ :: rel)) s) ([0]) (none) ([]) ({ run with flt := { run.flt with release := [⟨[0], none, none⟩] } }) := by decide
theorem witness_FaultEventsComplete_10 : (fun (l : List Nat) (a : Ans) (rel : List Release) (s : State) => ((fun s => s.flt.release = ⟨l,
    a, none⟩ :: rel)) s) ([0]) (none) ([]) ({ run with flt := { run.flt with release := [⟨[0], none, none⟩] } }) := by decide
theorem witness_LinkEventsComplete_1 : (fun (n : Fin 2) (s : State) => ((fun s => s.rd .NET_MODE n ≠ 0 ∧ (s.port n).link = false ∧
    s.pwr.asleep = false ∧ bit s.pwr.lost 5 = false ∧ s.tb (17 + n) ≠ 4 ∧ s.rd .NET_ADDR_MODE n ≠ 1)) s) (1) (((run.wr .NET_MODE 1 0 1).wr
    .NET_ADDR_MODE 1 0 0)) := by decide
theorem witness_LinkEventsComplete_2 : (fun (n : Fin 2) (s : State) => ((fun s => s.rd .NET_MODE n ≠ 0 ∧ (s.port n).link = false ∧
    s.pwr.asleep = false ∧ bit s.pwr.lost 5 = false ∧ s.tb (17 + n) ≠ 4 ∧ s.rd .NET_ADDR_MODE n = 1)) s) (1) (((run.wr .NET_MODE 1 0 1).wr
    .NET_ADDR_MODE 1 0 1)) := by decide
theorem witness_LinkEventsComplete_3 : (fun (n : Fin 2) (s : State) => ((fun s => (s.port n).link = true)) s) (0) (net) := by decide
theorem witness_LinkEventsComplete_4 : (fun (n : Fin 2) (s : State) => ((fun s => (s.port n).link = true)) s) (0) (net) := by decide
theorem witness_LinkEventsComplete_5 : (fun (n : Fin 2) (xid : Nat) (s : State) => ((fun s => s.rd .NET_ADDR_MODE n = 1 ∧ s.portUsable n =
    true ∧ (s.port n).xid = xid ∧ (s.port n).dhcp = .selecting)) s) (0) (0) ((net.wr .NET_ADDR_MODE 0 0 1).modPort 0 fun x =>
    { x with dhcp := .selecting }) := by decide
theorem witness_LinkEventsComplete_6 : (fun (n : Fin 2) (xid : Nat) (s : State) => ((fun s => s.rd .NET_ADDR_MODE n = 1 ∧ s.portUsable n =
    true ∧ (s.port n).xid = xid ∧ (s.port n).dhcp = .requesting)) s) (0) (0) ((net.wr .NET_ADDR_MODE 0 0 1).modPort 0 fun x =>
    { x with dhcp := .requesting }) := by decide
theorem witness_LinkEventsComplete_7 : (fun (n : Fin 2) (xid : Nat) (s : State) => ((fun s => s.rd .NET_ADDR_MODE n = 1 ∧ s.portUsable n =
    true ∧ (s.port n).xid = xid ∧ (s.port n).dhcp = .renewing)) s) (0) (0) ((net.wr .NET_ADDR_MODE 0 0 1).modPort 0 fun x =>
    { x with dhcp := .renewing }) := by decide
theorem witness_LinkEventsComplete_8 : (fun (n : Fin 2) (s : State) => ((fun s => ((s.port n).dhcp = .selecting ∨ (s.port n).dhcp =
    .requesting) ∧ (s.port n).sent + dhcpWait (s.port n).tries ≤ s.now)) s) (0) (net.modPort 0 fun x =>
    { x with dhcp := .requesting, tries := 4, sent := 9936000000000 }) := by decide
theorem witness_LinkEventsComplete_9 : (fun (n : Fin 2) (s : State) => ((fun s => (s.port n).dhcp = .bound ∧ s.leasePast n (s.port n).t1 =
    true)) s) (0) (net.modPort 0 fun x => { x with dhcp := .bound, t1 := 10000 }) := by decide
theorem witness_LinkEventsComplete_10 : (fun (n : Fin 2) (s : State) => ((fun s => ((s.port n).dhcp = .bound ∨ (s.port n).dhcp =
    .renewing) ∧ s.leasePast n (s.port n).t2 = true)) s) (0) (net.modPort 0 fun x => { x with dhcp := .bound, t2 := 10000 }) := by decide
theorem witness_LinkEventsComplete_11 : (fun (n : Fin 2) (s : State) => ((fun s => s.rd .NET_ADDR_MODE n = 1 ∧ (s.port n).lease ≠ 0 ∧
    s.leasePast n (s.port n).lease = true)) s) (0) ((net.wr .NET_ADDR_MODE 0 0 1).modPort 0 fun x =>
    { x with dhcp := .rebinding, lease := 10000 }) := by decide
theorem witness_LinkEventsComplete_12 : (fun (n : Fin 2) (target : Nat) (s : State) => ((fun s => s.rdN .NET_IP n ≠ 0 ∧ target = s.rdN
    .NET_IP n)) s) (0) (5) (net) := by decide
theorem witness_LinkEventsComplete_13 : (fun (s : State) => ((fun s => ∀ k ∈ List.range 32, s.rd .STREAM_STATE k = 0)) s)  (net) := by
    decide
theorem witness_LinkEventsComplete_14 : (fun (n : Fin 2) (ip : Nat) (s : State) => ((fun s => ((s.port n).asking.any fun e => e.1 == ip &&
    decide (e.2 + 1000000000 ≤ s.now)) = true)) s) (0) (9) (net.modPort 0 fun x => { x with asking := [(9, 9999000000000)] }) := by decide
theorem witness_LinkEventsComplete_15 : (fun (n : Fin 2) (s : State) => ((fun s => s.rd .NET_IP n ≠ 0)) s) (0) (net) := by decide
theorem witness_TimeAndStreamEventsComplete_1 : (fun (n : Fin 2) (h : Nat) (q : Nat) (id : Nat) (seq : Nat) (x : Int) (s : State) => ((fun
    s => h = s.rdN .PTP_DOMAIN ∧ s.fencedSrc srcPtp = false ∧ s.pwr.asleep = false ∧ s.ptpCarries n = true ∧ s.rd .TIME_SRC = 0 ∧
    s.ptpPort = n.val ∧ s.rd .PTP_DELAY ≠ 1 ∧ s.ptpSource = some id ∧ s.clk.syncDiff = some x ∧ s.clk.reqAt = some (seq, q))) s) (1) (0)
    (4) (3) (9) (8)
    ({ (net.wr .NET_IP 1 0 6) with clk := { net.clk with src1 := some 3, syncDiff := some 8, reqAt := some (9, 4) }, net1 := { link := true } })
    := by decide
theorem witness_TimeAndStreamEventsComplete_3 : (fun (s : State) => ((fun s => s.rd .TIME_SRC = 0 ∧ s.ptpSource.isSome = true ∧
    s.fencedSrc srcPtp = false ∧ s.ptpCarries s.ptpPort = true ∧ s.clk.reqNext ≤ s.now)) s) 
    ({ (run.wr .PTP_TRANSPORT 0 0 1) with clk := { run.clk with src1 := some 3 }, net1 := { link := true } }) := by decide
theorem witness_TimeAndStreamEventsComplete_4 : (fun (s : State) => ((fun s => s.rd .PTP_STATE = 3 ∧ s.clk.lastSync + s.rdN .PTP_TIMEOUT *
    1000000 ≤ s.now)) s)  ((run.wr .PTP_STATE 0 0 3)) := by decide
theorem witness_TimeAndStreamEventsComplete_5 : (fun (s : State) => ((fun s => s.pwr.asleep = false ∧ s.rd .TIME_SRC ≠ 1)) s)  (run) := by
    decide
theorem witness_TimeAndStreamEventsComplete_6 : (fun (s : State) => ((fun s => s.pwr.asleep = false ∧ s.rd .TIME_SRC = 1)) s)  ((run.wr
    .TIME_SRC 0 0 1)) := by decide
theorem witness_TimeAndStreamEventsComplete_7 : (fun (s : State) => ((fun s => s.rdT .PPSOUT_EN = true ∧ s.pwr.asleep = false ∧
    s.clk.ppsOut = false ∧ s.ppsDue = true)) s)  ((run.wr .PPSOUT_EN 0 0 1)) := by decide
theorem witness_TimeAndStreamEventsComplete_8 : (fun (s : State) => ((fun s => s.clk.ppsOut = true ∧ s.clk.ppsEnd ≤ s.now)) s) 
    ({ run with clk := { run.clk with ppsOut := true, ppsEnd := 10000000000000 } }) := by decide
theorem witness_TimeAndStreamEventsComplete_9 : (fun (h : Nat) (q : Nat) (k : Fin 32) (s : State) => ((fun s => (s.st k).movedTo = some q
    ∧ (s.port (1 - q)).goodFrom = some h ∧ h + 1000000000 ≤ s.now ∧ s.portUp (1 - q) = true)) s) (9999000000000) (1) (31) ((net.modSt 31
    fun x => { x with movedTo := some 1 }).modPort 0 fun x => { x with goodFrom := some 9999000000000 }) := by decide
theorem witness_TimeAndStreamEventsComplete_10 : (fun (k : Fin 32) (s : State) => ((fun s => s.rd .STREAM_STATE k ≠ 0)) s) (0) ((run.wr
    .STREAM_STATE 0 0 1)) := by decide
theorem witness_SerialEventsComplete_1 : (fun (t : Txn) (s : State) => ((fun s => s.mtx.cur = some t ∧ s.sp0.busBusy = true ∧
    s.sp0.mastering = false ∧ (s.mtx.waited + (s.now - s.mtx.start)) / 1000 ≤ s.rdN .SP0_WAIT_MAX)) s) ((newTxn none 0 0 []))
    ({ run with mtx := { run.mtx with cur := some (newTxn none 0 0 []), start := 10000000000000 }, sp0 := { run.sp0 with busBusy := true } })
    := by decide
theorem witness_SerialEventsComplete_2 : (fun (s : State) => ((fun s => s.mtx.cur = none ∧ s.sp0.busBusy = true ∧ s.sp0.on = true)) s) 
    ({ run with sp0 := { run.sp0 with busBusy := true } }) := by decide
theorem witness_SerialEventsComplete_3 : (fun (ws : List Nat) (sel : Nat) (a : Ans) (s : State) => ((fun s => s.sp1.busBusy = true ∧
    s.sp1.slave = false ∧ s.mbox.list = some (sel, ws, a) ∧ s.listOk sel = true)) s) ([5]) (1) (none)
    ({ run.wrV .SP1_TX 0 0 (.bytes [0#8, 0#8, 0#8, 1#8]) with sp1 := { run.sp1 with busBusy := true }, mbox := { run.mbox with list := some (1, [5], none) } })
    := by decide
theorem witness_SerialEventsComplete_4 : (fun (s : State) => ((fun s => s.sp0.mastering = true)) s) 
    ({ run with sp0 := { run.sp0 with mastering := true } }) := by decide
theorem witness_SerialEventsComplete_5 : (fun (s : State) => ((fun s => s.sp1.mastering = true)) s) 
    ({ run with sp1 := { run.sp1 with mastering := true } }) := by decide
theorem witness_SerialEventsComplete_6 : (fun (w : Nat) (q : List Nat) (s : State) => ((fun s => s.rd .SP1_SLAVE_SEL ≠ 0xFF ∧ s.sp1.role ≠
    0 ∧ s.fencedSrc (srcSp 1) = false ∧ s.sp1.mastering = false ∧ s.sp1.on = true ∧ s.mbox.txq = w :: q)) s) (9) ([])
    ({ (run.wr .SP1_SLAVE_SEL 0 0 7) with mbox := { run.mbox with txq := [9] }, sp1 := { run.sp1 with role := 2 } }) := by decide
theorem witness_SerialEventsComplete_7 : (fun (s : State) => ((fun s => s.rd .SP1_SLAVE_SEL ≠ 0xFF ∧ s.sp1.role ≠ 0 ∧ s.fencedSrc (srcSp
    1) = false ∧ s.sp1.mastering = false ∧ s.sp1.on = true ∧ s.mbox.txq = [])) s) 
    ({ (run.wr .SP1_SLAVE_SEL 0 0 7) with sp1 := { run.sp1 with role := 2 } }) := by decide
theorem witness_SerialEventsComplete_8 : (fun (r : Nat) (s : State) => ((fun s => s.mbox.reply = some r ∧ s.mbox.rxq.length < 64)) s) (9)
    ({ run with mbox := { run.mbox with reply := some 9, rxq := List.replicate 63 0 } }) := by decide
theorem witness_SerialEventsComplete_9 : (fun (r : Nat) (s : State) => ((fun s => s.mbox.reply = some r ∧ 64 ≤ s.mbox.rxq.length)) s) (9)
    ({ run with mbox := { run.mbox with reply := some 9, rxq := List.replicate 64 0 } }) := by decide
theorem witness_SerialEventsComplete_10 : (fun (r : Nat) (s : State) => ((fun s => s.mbox.reply = some r)) s) (9)
    ({ run with mbox := { run.mbox with reply := some 9 } }) := by decide
theorem witness_SerialEventsComplete_11 : (fun (m : Nat) (s : State) => ((fun s => s.rd .SP1_POLL ≠ 0 ∧ (m : Int) % s.rd .SP1_POLL = 0 ∧
    s.sp1Role = none ∧ s.sp1.on = true ∧ s.pwr.entry < 2 ∧ s.mbox.list = none ∧ s.listOk (s.rdN .SP1_POLL_SEL) = true)) s) (20) (((run.wr
    .SP1_POLL 0 0 10).wr .SP_ROLE 1 0 0).wrV .SP1_TX 0 0 (.bytes [0#8, 0#8, 0#8, 1#8])) := by decide
theorem witness_SerialEventsComplete_12 : (fun (m : Nat) (s : State) => ((fun s => s.rd .SP1_POLL ≠ 0 ∧ (m : Int) % s.rd .SP1_POLL = 0 ∧
    s.sp1Role = none ∧ s.sp1.on = true ∧ s.pwr.entry < 2 ∧ s.mbox.list.isSome = true)) s) (20)
    ({ (run.wr .SP1_POLL 0 0 10).wr .SP_ROLE 1 0 0 with mbox := { run.mbox with list := some (1, [5], none) } }) := by decide
theorem witness_SerialEventsComplete_13 : (fun (ws : List Nat) (sel : Nat) (a : Ans) (s : State) => ((fun s => s.mbox.list = some (sel,
    ws, a) ∧ s.sp1.mastering = true ∧ bit s.mbox.cfg 3 = false)) s) ([5]) (1) (none)
    ({ run with sp1 := { run.sp1 with mastering := true }, mbox := { run.mbox with list := some (1, [5], none) } }) := by decide
theorem witness_SerialEventsComplete_15 : (fun (ws : List Nat) (sel : Nat) (a : Ans) (s : State) => ((fun s => s.mbox.list = some (sel,
    ws, a) ∧ s.sp1.mastering = true ∧ bit s.mbox.cfg 3 = true)) s) ([5]) (1) (none)
    ({ run with sp1 := { run.sp1 with mastering := true }, mbox := { run.mbox with cfg := 8, list := some (1, [5], none) } }) := by decide
theorem witness_PairCellEventsComplete_1 : (fun (p : Partner) (n : Nat) (s : State) => ((fun s => s.pairOn = true ∧ bits (s.rdN
    .PAIR_LANES) 0 2 ≠ 0 ∧ (s.rd .PAIR_STATE = 1 ∨ 5 ≤ s.rd .PAIR_STATE) ∧ s.formCheck p = some n)) s) (⟨0xB0, 1, 0, [], 0, [], [], 0⟩)
    (5) (form) := by decide
theorem witness_PairCellEventsComplete_2 : (fun (p : Partner) (s : State) => ((fun s => s.pairOn = true ∧ bits (s.rdN .PAIR_LANES) 0 2 ≠ 0
    ∧ (s.rd .PAIR_STATE = 1 ∨ 5 ≤ s.rd .PAIR_STATE) ∧ s.formCheck p = none)) s) (⟨0xB1, 1, 0, List.replicate 64 0, -10, List.replicate 16
    0, List.replicate 16 true, 0⟩) (form) := by decide
theorem witness_PairCellEventsComplete_3 : (fun (s : State) => ((fun s => s.pairOn = true)) s)  (form) := by decide
theorem witness_PairCellEventsComplete_4 : (fun (s : State) => ((fun s => s.pairOn = true ∧ s.rd .PAIR_STATE = 2)) s)  (form.wr
    .PAIR_STATE 0 0 2) := by decide
theorem witness_PairCellEventsComplete_5 : (fun (s : State) => ((fun s => s.pairOn = true ∧ s.rd .PAIR_STATE = 2)) s)  (form.wr
    .PAIR_STATE 0 0 2) := by decide
theorem witness_PairCellEventsComplete_6 : (fun (s : State) => ((fun s => s.pairOn = true)) s)  (form) := by decide
theorem witness_PairCellEventsComplete_7 : (fun (s : State) => ((fun s => s.pairOn = true)) s)  (form) := by decide
theorem witness_PairCellEventsComplete_8 : (fun (lane : Nat) (left : Nat) (g : GroupNo) (s : State) => ((fun s => s.pairOn = true ∧
    (s.cellIn lane).role g = 4 ∧ left ≠ 0)) s) (1) (1) (0) (form.wr .PAIR_ROLE 0 0 4) := by decide
theorem witness_PairCellEventsComplete_9 : (fun (s : State) => ((fun s => s.pairOn = true)) s)  (form) := by decide
theorem witness_PairCellEventsComplete_10 : (fun (ln : Fin 4) (s : State) => ((fun s => s.pairOn = true ∧ ln.val < 2)) s) (1) (form) := by
    decide
theorem witness_PairTimeoutsComplete_1 : (fun (g : GroupNo) (n : Nat) (s : State) => ((fun s => (s.gr g).pair.give = some n ∧ (s.gr
    g).pair.acked = false ∧ (s.gr g).pair.asked + 10000 ≤ s.now)) s) (0) (4) (run.modGr 0 fun r =>
    { r with pair := { r.pair with give := some 4, asked := 9999999990000 } }) := by decide
theorem witness_PairTimeoutsComplete_2 : (fun (ln : Fin 4) (s : State) => ((fun s => s.pairOn = true ∧ bit (s.rdN .PAIR_LANES) ln = true ∧
    (2 ≤ ln.val ∨ (if ln.val = 0 then s.pair.lane0 else s.pair.lane1) + 2000 ≤ s.now))) s) (1) (form) := by decide
theorem witness_PairTimeoutsComplete_3 : (fun (s : State) => ((fun s => s.pairOn = true ∧ s.rd .PAIR_STATE = 2 ∧ s.pair.hbLost = false ∧
    s.pair.lastCell + s.hbTime ≤ s.now ∧ s.witnessed = false)) s)  (form.wr .PAIR_STATE 0 0 2) := by decide
theorem witness_PairTimeoutsComplete_4 : (fun (s : State) => ((fun s => s.pairOn = true ∧ s.witnessed = true ∧ s.pair.witSilent = false ∧
    s.pair.lastWitness + s.hbTime ≤ s.now ∧ s.pair.hbLost = true ∧ s.rd .PAIR_STATE = 2)) s) 
    ({ ((form.wr .PAIR_STATE 0 0 2).wr .PAIR_WIT_EVO 0 0 1).wr .PAIR_WIT_EVI 0 0 1 with pair := { form.pair with hbLost := true } }) := by
    decide
theorem witness_PairTimeoutsComplete_5 : (fun (m : Nat) (s : State) => ((fun s => s.pairOn = true ∧ s.rdN .PAIR_WIT_EVO < 16 ∧ m % 2 = 0))
    s) (2) (form.wr .PAIR_WIT_EVO 0 0 15) := by decide
theorem witness_DroneEventsComplete_1 : (fun (s : State) => ((fun s => s.droneUp = true ∧ s.drn.dueSram ≤ s.now)) s)  (run) := by decide
theorem witness_DroneEventsComplete_3 : (fun (s : State) => ((fun s => s.droneUp = true ∧ s.drn.dueNvm ≤ s.now ∧ s.drn.nvm + 1 < 2592000))
    s)  ({ run with drn := { run.drn with nvm := 2591998 } }) := by decide
theorem witness_DroneEventsComplete_4 : (fun (s : State) => ((fun s => s.droneUp = true ∧ s.drn.dueLog ≤ s.now)) s)  (run) := by decide
theorem witness_DroneEventsComplete_5 : (fun (s : State) => ((fun s => s.droneUp = true ∧ s.tbp / 1000000000 ≠ s.drn.tlmSec)) s) 
    ({ run with clk := { run.clk with tbp := 1000000000 } }) := by decide
theorem witness_DroneEventsComplete_6 : (fun (s : State) => ((fun s => s.droneUp = true ∧ s.tbp / 1000000000 = s.drn.tlmSec)) s) 
    ({ run with drn := { run.drn with tlmSec := 10000 } }) := by decide
theorem witness_DroneEventsComplete_7 : (fun (s : State) => ((fun s => s.droneUp = true ∧ s.drn.lineAt + s.rdN .LINE_TEST_PERIOD *
    1000000000 ≤ s.now)) s)  (run) := by decide
theorem witness_DroneEventsComplete_8 : (fun (b : Nat) (s : State) => ((fun s => s.droneUp = true ∧ s.drn.lineAt + s.rdN .LINE_TEST_PERIOD
    * 1000000000 ≤ s.now ∧ b < 26 ∧ s.flt.lines.get (fun _ => 1) b = 1)) s) (25) (run) := by decide
theorem witness_DroneEventsComplete_9 : (fun (b : Nat) (page : Nat) (s : State) => ((fun s => s.pwr.asleep = false ∧ b < 16 ∧ page < 256 ∧
    s.pageFree (b, page) = true ∧ ((recPages 0).contains (b, page) = true ∨ (recPages 0).any s.pageFree = false))) s) (13) (255)
    ({ run with drn := { run.drn with writes := [(13, 255)], pageAt := [(13 * 256 + 255, 9999999000001)] } }) := by decide
theorem witness_DroneEventsComplete_10 : (fun (b : Nat) (s : State) => ((fun s => s.drn.copying = some b ∧ s.pwr.asleep = false)) s) (3)
    ({ run with drn := { run.drn with copying := some 3 } }) := by decide
theorem witness_DroneEventsComplete_11 : (fun (s : State) => ((fun s => s.rd .PTP_STATE = 3 ∧ s.droneUp = true ∧ s.tb 23 ≠ 4)) s) 
    ((run.wr .PTP_STATE 0 0 3)) := by decide
theorem witness_DroneEventsComplete_12 : (fun (s : State) => ((fun s => s.rd .PTP_STATE = 3 ∧ s.droneUp = true ∧ s.clk.trimAt +
    3600000000000 ≤ s.now)) s)  ((run.wr .PTP_STATE 0 0 3)) := by decide
theorem witness_BootEventsComplete_1 : (fun (s : State) => ((fun s => s.pwr.stage = 0 ∧ bits s.pwr.lost 0 7 = 0)) s)  (State.reset) := by
    decide
theorem witness_BootEventsComplete_2 : (fun (s : State) => ((fun s => s.pwr.stage = 1)) s)  (stage 1) := by decide
theorem witness_BootEventsComplete_3 : (fun (b : BootIn) (s : State) => ((fun s => s.pwr.stage = 2 ∧ b.failedSlices = [] ∧ b.testOk =
    true)) s) (⟨true, [], 3⟩) (stage 2) := by decide
theorem witness_BootEventsComplete_4 : (fun (s : State) => ((fun s => s.pwr.stage = 3)) s)  (stage 3) := by decide
theorem witness_BootEventsComplete_5 : (fun (s : State) => ((fun s => s.pwr.stage = 4)) s)  (stage 4) := by decide
theorem witness_BootEventsComplete_6 : (fun (s : State) => ((fun s => s.pwr.stage = 1 ∧ s.pwr.bootFrom + 100000000 ≤ s.now)) s) 
    ({ run with pwr := { stage := 1, bootFrom := 9999900000000 } }) := by decide
theorem witness_BootEventsComplete_7 : (fun (i : Fin 8) (s : State) => ((fun s => bit s.pwr.lost i = false ∧ i.val < 5 ∧ s.pwr.stage ≠ 0))
    s) (4) (run) := by decide
theorem witness_BootEventsComplete_8 : (fun (i : Fin 8) (s : State) => ((fun s => bit s.pwr.lost i = false ∧ i.val = 6)) s) (6) (run) :=
    by decide
theorem witness_BootEventsComplete_9 : (fun (s : State) => ((fun s => s.pwr.stage ≠ 0 ∧ bits s.pwr.lost 0 5 ≠ 0)) s) 
    ({ run with pwr := { run.pwr with lost := 16 } }) := by decide
theorem witness_BootEventsComplete_10 : (fun (s : State) => ((fun s => (s.pwr.stage = 0 ∨ bits s.pwr.lost 0 5 = 0) ∧ s.rdT .PAIR_EN =
    false)) s)  ({ run with pwr := { run.pwr with lost := 32 } }) := by decide
theorem witness_BootEventsComplete_11 : (fun (s : State) => ((fun s => (s.pwr.stage = 0 ∨ bits s.pwr.lost 0 5 = 0) ∧ s.rdT .PAIR_EN =
    true)) s)  ({ (run.wr .PAIR_EN 0 0 1) with pwr := { run.pwr with lost := 32 } }) := by decide
theorem witness_BootEventsComplete_14 : (fun (d : Nat) (s : State) => ((fun s => s.pwr.resetAt = some d ∧ d ≤ s.now)) s) (10000000000000)
    ({ run with pwr := { run.pwr with resetAt := some 10000000000000 } }) := by decide
theorem witness_BootEventsComplete_15 : (fun (g : GroupNo) (s : State) => ((fun s => (s.gr g).powered = true ∧ s.tb g = 0 ∧ s.framesRun =
    true)) s) (0) (run.setTb 0 0) := by decide
theorem witness_SleepAndPowerEventsComplete_1 : (fun (s : State) => ((fun s => s.pwr.entry = 1 ∧ (s.chan.all fun p => s.rampedDown p.1) =
    true ∧ ∀ g ∈ allGroups, (s.gr g).filt = .stopped ∧ (s.gr g).filtStart = none)) s)  ({ run with pwr := { run.pwr with entry := 1 } })
    := by decide
theorem witness_SleepAndPowerEventsComplete_2 : (fun (k : Nat) (s : State) => ((fun s => s.pwr.entry = 2 ∧ s.quiesced = true ∧ (∀ c ∈
    s.chan.map (·.1), (s.ch c).aper.block = []) ∧ ∀ k ∈ List.range 32, s.streamHolds k = false)) s) (0)
    ({ run with pwr := { run.pwr with entry := 2 } }) := by decide
theorem witness_SleepAndPowerEventsComplete_3 : (fun (s : State) => ((fun s => s.pwr.entry = 3 ∧ s.mtx.committing = none ∧ s.drn.writes =
    [] ∧ s.pwr.ans = none)) s)  ({ run with pwr := { run.pwr with entry := 3 } }) := by decide
theorem witness_SleepAndPowerEventsComplete_5 : (fun (s : State) => ((fun s => (s.pwr.asleep = true ∨ s.pwr.entry ≠ 0) ∧ s.pwr.wake = none
    ∧ s.sleepOver = true)) s) 
    ({ (run.wr .SLEEP_UNTIL 0 0 1) with pwr := { run.pwr with asleep := true }, clk := { run.clk with rtc := 1 } }) := by decide
theorem witness_SleepAndPowerEventsComplete_6 : (fun (k : Nat) (n : Nat) (s : State) => ((fun s => s.pwr.asleep = true ∧ s.pwr.wake = some
    (k, n))) s) (2) (0) ({ run with pwr := { run.pwr with asleep := true, wake := some (2, 0) } }) := by decide
theorem witness_SleepAndPowerEventsComplete_7 : (fun (s : State) => ((fun s => s.vddcOn = true ∧ ∃ g ∈ allGroups, ∃ p, (s.gr g).pace1 =
    some p ∧ (p : Int) < s.rd .PACE_ALARM)) s)  ((run.wr .VDDC_MODE 0 0 1).modGr 0 fun r => { r with pace1 := some 0 }) := by decide
theorem witness_SleepAndPowerEventsComplete_8 : (fun (s : State) => ((fun s => s.vddcOn = true ∧ (∃ g ∈ allGroups, (s.gr g).pace100.isSome
    = true) ∧ ∀ g ∈ allGroups, ∀ p, (s.gr g).pace100 = some p → s.rd .PACE_ALARM + 64 ≤ (p : Int))) s)  ((run.wr .VDDC_MODE 0 0 1).modGr 0
    fun r => { r with pace100 := some 4000 }) := by decide
theorem witness_SleepAndPowerEventsComplete_9 : (fun (meas : Nat) (s : State) => ((fun s => s.vddcOn = true ∧ 20 < ((meas : Int) - s.rd
    .VDDC_TARGET).natAbs)) s) (0) ((run.wr .VDDC_MODE 0 0 1)) := by decide
theorem witness_SleepAndPowerEventsComplete_10 : (fun (s : State) => ((fun s => s.framesRun = true)) s)  (run) := by decide
theorem witness_ConfigEventsComplete_2 : (fun (w : Switch) (st : Status) (at_ : Option (Nat × Nat)) (s : State) => ((fun s => s.cfg.cur =
    some w ∧ s.cfg.groupsLeft = [] ∧ s.switchCheck w (s.switchSet w.target) = some (st, at_))) s) (⟨1, .host none, 1, false⟩)
    (.OVERLAY_EMPTY) (none) ({ run with cfg := { run.cfg with cur := some ⟨1, .host none, 1, false⟩ } }) := by decide
theorem witness_ConfigEventsComplete_3 : (fun (k : Nat) (q : Nat) (half : Half) (ws : List (Nat × List Int)) (s : State) => ((fun s =>
    s.cfg.commit = some (some (k, q), half, ws) ∧ s.imageWaits = false ∧ s.bankDead 12 = false ∧ (ws = [] ∨ ∀ b ∈ rangeFrom 8 4,
    s.bankDead b = false))) s) (17) (0) ({}) ([]) ({ run with cfg := { run.cfg with commit := some (some (17, 0), {}, []) } }) := by
    decide
theorem witness_ConfigEventsComplete_4 : (fun (k : Nat) (q : Nat) (half : Half) (ws : List (Nat × List Int)) (s : State) => ((fun s =>
    s.cfg.commit = some (some (k, q), half, ws) ∧ s.imageWaits = false)) s) (17) (0) ({}) ([])
    ({ run with cfg := { run.cfg with commit := some (some (17, 0), {}, []) } }) := by decide

/-! ### Witnesses of the statements that are not lists of completions -/

theorem witness_StepRunsTheFront : { run with pending := [Instr.nrst] }.pending = .nrst :: [] := rfl
theorem witness_EmptyQueueIdles : run.pending = [] := rfl
theorem witness_SafeLatchKeepsNsafe : ({ run with latch := true } : State).latchAsserts := fun _ => rfl
theorem witness_TablesStayCanonical : live.tablesWf = true := by decide
theorem witness_OnlyPowerCycleClearsLatch :
    (fun s : State => s.latch = true ∧ s.pending.head? ≠ some .powerOnReset ∧ s.pending.head? ≠ some (.supplyLoss 6))
      { run with latch := true, pending := [.supplyLoss 5] } := by decide
theorem witness_ResetsKeepAndDiscard_1 : bit run.pwr.lost 6 = false := by decide
theorem witness_ResetsKeepAndDiscard_2 :
    (fun s : State => ∃ d, s.pwr.resetAt = some d ∧ d ≤ s.now) { run with pwr := { run.pwr with resetAt := some 10000000000000 } } :=
  ⟨10000000000000, by decide, by decide⟩
theorem witness_ResetsKeepAndDiscard_3 :
    (fun s : State => s.pwr.stage ≠ 0 ∧ bits s.pwr.lost 0 5 ≠ 0) { run with pwr := { run.pwr with lost := 16 } } := by decide
theorem witness_RequestCodec : (ReqOp.blockSeg 4294967295 65535 [255#8]).wireOk = true := by decide
theorem witness_FrameCarriesRequest :
    (fun (s : State) (op : ReqOp) => s.portUsable 0 = true ∧ s.pwr.asleep = false ∧ s.rdN .NET_IP 0 ≠ 0 ∧ op.wireOk = true ∧
      1518 ≤ s.frameMax (requestFrame 0 (s.rdN .NET_IP 0) 7 8 9 none 1518 255 4294967295 op) ∧
      s.vlanOk (requestFrame 0 (s.rdN .NET_IP 0) 7 8 9 none 1518 255 4294967295 op) = true) net (.read (.raw 0x8000 1)) := by decide
theorem witness_RepeatGetsKeptResponse :
    (fun s : State => s.portUp h1.port = true ∧ (s.se h1.sess).kind = 1 ∧ (s.se h1.sess).ip = h1.ip ∧ (s.se h1.sess).udp = h1.udp ∧
      h1.mac = none ∧ ((s.se h1.sess).kept.find? fun r => r.req.seq = h1.seq) = some ⟨⟨0, 0, .nop, 0⟩, .OK, .num 0⟩)
      (net.modSe 1 fun x => { x with kept := [⟨⟨0, 0, .nop, 0⟩, .OK, .num 0⟩] }) := by decide
theorem witness_BusyAndOldAnswerAtOnce :
    (fun (s : State) (m : Nat) => s.portUp h1.port = true ∧ (s.se h1.sess).kind = 1 ∧ (s.se h1.sess).ip = h1.ip ∧
      (s.se h1.sess).udp = h1.udp ∧ (s.se h1.sess).next = some m ∧ (s.se h1.sess).closing = none ∧
      ((s.se h1.sess).kept.find? fun r => r.req.seq = h1.seq) = none ∧
      (((s.se h1.sess).waiting.any fun w => w.seq == h1.seq) || ((s.se h1.sess).outst.any fun w => w.1.seq == h1.seq)) = false ∧
      2147483648 ≤ seqDist m h1.seq) (net.modSe 1 fun x => { x with next := some 2147483648 }) 2147483648 := by decide
theorem witness_BusyAndOldAnswerAtOnce_2 :
    (fun (s : State) (m : Nat) => (s.se h1.sess).next = some m ∧ seqDist m h1.seq < 2147483648 ∧
      256 ≤ seqDist ((s.se h1.sess).oldest m) h1.seq) (net.modSe 1 fun x => { x with next := some 4294967040 }) 4294967040 := by decide
theorem witness_ForeignRequestsAreCounted :
    net.portUp h1.port = true ∧ (run.se 1).kind = 0 ∧ (net.se 1).kind ≠ 0 ∧ (net.se 1).ip ≠ 8 ∧ (sec.se 1).kind = 2 := by decide
theorem witness_FailedChecksOnlyAnswer :
    (fun (s : State) (op : ReqOp) => writeOf (.sysReset h1) = some (h1, .SYS_RESET, 0, 0, .num 1) ∧ s.takes h1 op = true ∧
      (s.taken h1 op).writeCheck .SYS_RESET 0 h1.sess ((s.taken h1 op).secureOf h1) (decodeVal Obj.SYS_RESET.desc.ty (.num 1)) =
        some .SECURE_ONLY) net (.write (.obj .SYS_RESET 0 0) (.num 1)) := by decide
theorem witness_BucketEscalates :
    run.rdN .FLT_N ((srcType 0x210).getD 22) ≠ 0 ∧ 0 < run.rdN .FLT_W ((srcType 0x210).getD 22) * 1000 ∧
      run.flt.bucket.get (fun _ => 0) 0x210 ≤ 0 := by decide
theorem witness_NarrowingRule : Nearest 17 65536 0 ∧ Nearest 21 3145728 2 := by unfold Nearest; decide
theorem witness_ReedZonesAndTrips : ((run.wr .REED_V_CTRL 0 0 1).reedSkips 0 false) = false := by decide
theorem witness_SafeStateEntries_1 :
    (srcType 0x49D).isSome = true ∧ knownKind 6 = true ∧ run.mustWait ⟨0x49D, 6, 0, 0, .grave⟩ = false ∧ classOf ⟨0x49D, 6, 0, 0, .grave⟩ = .grave := by decide
theorem witness_SafeStateEntries_2 :
    (fun s : State => srcType 0x210 = some 1 ∧ knownKind 0x11 = true ∧ classOf ⟨0x210, 0x11, 0, 0, .note⟩ = .severe ∧ s.rdT .FLT_SEVERE_ACT 1 = true ∧
      s.fencedSrc 0x210 = false) (run.wr .FLT_SEVERE_ACT 1 0 1) := by decide
theorem witness_SafeStateEntries_3 : sec.passes h2 .FLT_SAFE 0 0 (.num 1) (.num 1) = true := by decide

/-- A cache full of one dirty line, and a transaction that needs another line behind one in progress. -/
def fullCache : State :=
  { run with mtx := { run.mtx with lines := List.replicate 16384 1, dirty := [1], waiting := [newTxn none 0 0 [(0, opMake, 0)]]
                                   cur := some (newTxn none 0 0 []) } }
theorem witness_MatrixEventsComplete_4 :
    (fun s : State => s.mtx.committing = none ∧ (s.mtx.waiting.all s.ready) = false ∧ s.mtx.cur = some (newTxn none 0 0 [])) fullCache := by
  decide +kernel
theorem witness_DroneEventsComplete_2 : ({ run with drn := { run.drn with dueSram := 10000000000001 } } : State).now < 10000000000001 := by decide

/-! ### Witnesses of requests -/

theorem witness_RequestsComplete_3 :
    (fun (s : State) (op : ReqOp) => s.takes h1 op = true ∧ placeOf (.raw 0x8000 2) = .obj .OUT_STATE 0 0 ∧
      readCheck .OUT_STATE ((s.taken h1 op).secureOf h1) = none) net (.read (.raw 0x8000 2)) := by decide
theorem witness_RequestsComplete_4 :
    (fun (s : State) (op : ReqOp) => s.takes h1 op = true ∧ placeOf (.raw 0x8000 6) = .obj .OFF_SLEW 0 0 ∧
      decodeVal Obj.OFF_SLEW.desc.ty (.raw 3 [0xC3#8, 0x50#8]) = some (.num 50000) ∧
      (s.taken h1 op).writeCheck .OFF_SLEW 0 1 false (some (.num 50000)) = none ∧ (s.taken h1 op).deviceCheck .OFF_SLEW 0 50000 = none)
      net (.write (.raw 0x8000 6) (.raw 3 [0xC3#8, 0x50#8])) := by decide
theorem witness_RequestsComplete_5 :
    (fun (s : State) (op : ReqOp) => s.takes h1 op = true ∧ (s.taken h1 op).openCheck 1 false 0xC000 1 false 131071 1 = none) net
      (.blockOpen 0xC000 1 false 131071 1) := by decide
theorem witness_RequestsComplete_6 :
    (fun (s : State) (op : ReqOp) => s.takes h1 op = true ∧
      (let t := s.taken h1 op
       let b : Block := ⟨0xC000, 1, true, 0, 1, crcInit⟩
       (t.se 1).block = some b ∧ b.dirWrite = true ∧ 0 = b.next ∧ 1 ≤ b.left ∧ 1 ≤ t.segMax b.idx ∧
        (List.replicate 16 0#8).length = 1 * elemSize b.idx ∧ (segWrite 1 false b.idx b.sub 1 0 (List.replicate 16 0#8) t).2 = (1, .OK)))
      (net.modSe 1 fun x => { x with block := some ⟨0xC000, 1, true, 0, 1, crcInit⟩ }) (.blockSeg 0 1 (List.replicate 16 0#8)) := by
  decide +kernel
theorem witness_RequestsComplete_7 :
    (fun (s : State) (op : ReqOp) => s.takes h1 op = true ∧
      (let t := s.taken h1 op
       let b : Block := ⟨0xC000, 1, false, 5, 1, crcInit⟩
       (t.se 1).block = some b ∧ b.dirWrite = false ∧ 5 = b.next ∧ 1 ≤ b.left ∧ 1 ≤ t.segMax b.idx))
      (net.modSe 1 fun x => { x with block := some ⟨0xC000, 1, false, 5, 1, crcInit⟩ }) (.blockSeg 5 1 []) := by decide
theorem witness_RequestsComplete_8 :
    (fun (s : State) (op : ReqOp) => s.takes h1 op = true ∧ ((s.taken h1 op).se 1).block = some ⟨0xC000, 1, false, 5, 1, crcInit⟩)
      (net.modSe 1 fun x => { x with block := some ⟨0xC000, 1, false, 5, 1, crcInit⟩ }) (.blockClose 0) := by decide
theorem witness_RequestsComplete_9 :
    (fun (s : State) (op : ReqOp) => s.takes h1 op = true ∧ ((s.taken h1 op).se 1).block = some ⟨0xC000, 1, false, 5, 1, crcInit⟩)
      (net.modSe 1 fun x => { x with block := some ⟨0xC000, 1, false, 5, 1, crcInit⟩ }) .blockAbort := by decide
theorem witness_OpeningsComplete_3 :
    (fun (s : State) (q : Pend) => s.portUp h1.port = true ∧ h1.mac = none ∧ s.pend.get (fun _ => none) h1.sess = some q ∧
      q.ip = h1.ip ∧ q.udp = h1.udp ∧ s.now < q.since + 1000000000)
      { net with pend := [(1, some ⟨7, 9, [], [], 9999500000000⟩)] } ⟨7, 9, [], [], 9999500000000⟩ := by decide
theorem witness_OpeningsComplete_4 :
    (fun (s : State) (q : Pend) => s.pend.get (fun _ => none) 1 = some q ∧ q.since + 1000000000 ≤ s.now)
      { net with pend := [(1, some ⟨7, 9, [], [], 9999000000000⟩)] } ⟨7, 9, [], [], 9999000000000⟩ := by decide
theorem witness_SessionEventsComplete_2 :
    ({ net with orphans := [⟨1, false, false, [.nop], none⟩] } : State).orphanOf 1 = some ⟨1, false, false, [.nop], none⟩ := by decide
theorem witness_SessionEventsComplete_3 :
    ({ net with orphans := [⟨1, false, false, [.nop, .nop], none⟩] } : State).orphanOf 1 = some ⟨1, false, false, [.nop, .nop], none⟩ := by
  decide
theorem witness_SessionEventsComplete_5 : (net.se 1).ready = none := by decide
theorem witness_SleepAndPowerEventsComplete_4 :
    (fun s : State => s.pwr.entry = 4 ∧ s.orphans = [] ∧ s.mtx.cur = none ∧ s.mbox.list = none) { run with pwr := { run.pwr with entry := 4 } } := by decide
theorem witness_ClockEventsComplete_4 : run.latch = false := rfl
theorem witness_TimeAndStreamEventsComplete_11 :
    (fun s : State => s.portUp 0 = true ∧ s.nextPacket 0 = some (false, 3))
      ((net.wr .STREAM_DEST_IP 3 0 0xE0000001).modSt 3 fun x => { x with aggs := [⟨0, 1, 0, 1, [], 1, true, 5, none⟩] }) := by decide
/-- Stream 3 to a group address, with one block of one record of channel 0 for NET0. -/
def oneBlock : State :=
  (net.wr .STREAM_DEST_IP 3 0 0xE0000001).modCh 0 fun h =>
    { h with aper := { h.aper with ready := [{ stream := 3, recs := [⟨0, 0, 0, 0, 0, 1, false, false, 5, none⟩], ports := 1 }] } }
theorem witness_TimeAndStreamEventsComplete_12 :
    (fun s : State => s.portUp 0 = true ∧ s.nextPacket 0 = some (true, 0) ∧ 0 < (s.packetBlocks 0 0).length) oneBlock := by decide
theorem witness_TimeAndStreamEventsComplete_13 :
    (fun s : State => s.portUp 0 = true ∧ s.nextPacket 0 = some (true, 0) ∧ (s.packetBlocks 0 0).length = 1) oneBlock := by decide
theorem witness_ConfigEventsComplete_1 :
    (fun (s : State) (w : Switch) => s.cfg.cur = some w ∧ s.cfg.groupsLeft = [] ∧ s.switchCheck w (s.switchSet w.target) = none)
      { run with cfg := { run.cfg with cur := some ⟨0, .host none, 1, false⟩ } } ⟨0, .host none, 1, false⟩ := by decide +kernel
theorem witness_FaultAndCalWritesComplete_1 :
    (fun (s : State) => s.passes h2 .CAL_CMD 0 0 (.num 1) (.num 1) = true ∧
      (fun t : State => t.calCheck 0 h2.sess (t.secureOf h2) = none ∧ (t.rd .CAL_KIND 0 ≠ 1 ∨
        ∀ c ∈ t.calChans 0, (t.ch c).idleOut = false)) (s.taken h2 (.write (.obj .CAL_CMD 0 0) (.num 1))))
      ((((sec.wr .CAL_KIND 0 0 4).wr .CAL_CHANNELS 0 0 1).wr .CAL_RANGES 0 0 1).modGr 0 fun r => { r with filt := .running }) := by decide
theorem witness_FaultAndCalWritesComplete_2 :
    (fun (s : State) => s.passes h2 .CAL_CMD 0 0 (.num 1) (.num 1) = true ∧
      (fun t : State => t.calCheck 0 h2.sess (t.secureOf h2) = none ∧ t.rd .CAL_KIND 0 = 1 ∧
        ∃ c ∈ t.calChans 0, (t.ch c).idleOut = true) (s.taken h2 (.write (.obj .CAL_CMD 0 0) (.num 1))))
      ((((sec.wr .CAL_KIND 0 0 1).wr .CAL_CHANNELS 0 0 1).wr .CAL_RANGES 0 0 1).modGr 0 fun r => { r with filt := .running }) := by decide
/-- An image with an empty base section: the header, one directory entry, CRC-32 over bytes 16 to 79. -/
def image : SMap Byte := [(0, 83#8), (1, 75#8), (2, 90#8), (3, 67#8), (5, 1#8), (7, 64#8), (11, 80#8), (12, 159#8), (13, 62#8), (14, 110#8), (15, 25#8), (19, 5#8), (30, 1#8), (31, 177#8), (64, 1#8), (71, 80#8)]

theorem witness_ConfigWritesComplete_2 :
    (fun (s : State) (h : Half) => s.passes h2 .IMAGE_COMMIT 0 0 (.num 1) (.num 1) = true ∧
      (fun t : State => t.cfg.commit = none ∧ ∀ p ∈ t.imagePages, t.pageDead p = false) (s.taken h2 (.write (.obj .IMAGE_COMMIT 0 0) (.num 1))) ∧
      (match (s.taken h2 (.write (.obj .IMAGE_COMMIT 0 0) (.num 1))).imageCheck with | .ok (k, ws) => k == h && ws.isEmpty | _ => false) = true)
      { sec with cfg := { sec.cfg with image := image } } { valid := true, id := 5 } := by decide +kernel

/-! ### Arithmetic and encodings, with results worked out from the spec by hand -/

/-- R112: half a step rounds to the even neighbour, and a code beyond the format saturates. -/
theorem test_round24_tie : round24 (3 * 65536) = 2 ∧ round24 65536 = 0 ∧ round24 (2 ^ 41) = 8388607 := by decide
theorem test_round20_saturates : round20 (2 ^ 40) = 524287 ∧ round20 (-(2 ^ 42)) = -524288 := by decide
/-- R241, R242: endpoint 1, MAKE, tag 0: bits [31:4] spell 0x0000120, whose nibbles have the exclusive OR 3, so CHECK is 12. -/
theorem test_matrix_word : mtxWord 1 opMake 0 0 = 0x0000120C#32 := by decide
/-- R9: TIME80 1 s and 2 ns, in ns. -/
theorem test_time80 : nsOf (1 * 4294967296 + 2) = 1000000002 := by decide
/-- R282: zones against the window −5 to 5. -/
theorem test_zones : zoneOf 6 5 (-5) = 1 ∧ zoneOf 5 5 (-5) = 0 ∧ zoneOf (-6) 5 (-5) = 2 := by decide
/-- R106: 0x8000 + c, subindex 1 is OUT_CMD of channel c. -/
theorem test_address : placeOf (.raw 0x81FF 1) = .obj .OUT_CMD 511 0 := by decide
/-- R60: the codes of three statuses. -/
theorem test_status_codes : Status.OK.num = 0 ∧ Status.NO_OBJECT.num = 0x0101 ∧ Status.MONITOR_DROPPED.num = 0x0608 := by decide
/-- R370, R373: a READ of 0x8000.1 is type 0x10 with a body of four bytes. -/
theorem test_read_body : (ReqOp.read (.raw 0x8000 1)).bytes = [0x80#8, 0x00#8, 0x01#8, 0x00#8] ∧
    opOf 0x10 [0x80#8, 0x00#8, 0x01#8, 0x00#8] = some (.read (.raw 0x8000 1)) := by decide
/-- R335: with N = 1 the first counted report escalates; the first report of N = 2 does not. -/
theorem test_bucket : ((run.wr .FLT_N 1 0 1).countReport 0x210).2 = true ∧ ((run.wr .FLT_N 1 0 2).countReport 0x210).2 = false := by
  decide

/-! ### Single commands -/

/-- R18: a frame start counts the frame. -/
theorem test_frameStart : ∃ t, exec .frameStart run = .next t ∧ t.clk.frames = 1 := ⟨_, rfl, by decide +kernel⟩
/-- R21: a TBA frequency below its limit is reported. -/
theorem test_tbaFreqCheck : ∃ t, exec (.tbaFreqCheck 878) run = .next t ∧ t.flt.inbox = [⟨0x4B8, 0x01, 0, 2, .grave⟩] :=
  ⟨_, rfl, by decide +kernel⟩
/-- R449: a power-on reset tells its source. -/
theorem test_powerOnReset : ∃ t, exec .powerOnReset live = .next t ∧ t.rd .RESET_CAUSE = 0 ∧ t.sess = [] := ⟨_, rfl, by decide, by decide⟩
/-- R295: the pulse of a ball ends. -/
theorem test_evoPulseEnd : ∃ t, exec (.evoPulseEnd 3) { run with rtr := { run.rtr with pulses := 8 } } = .next t ∧ t.rtr.pulses = 0 :=
  ⟨_, rfl, by decide⟩
/-- FIPS 180-4, the example of one block: the digest of "abc" begins BA7816BF and ends F20015AD. -/
theorem test_sha256 : (sha256 (ascii "abc")).take 4 = [0xBA#8, 0x78#8, 0x16#8, 0xBF#8] ∧
    (sha256 (ascii "abc")).drop 28 = [0xF2#8, 0x00#8, 0x15#8, 0xAD#8] := by decide +kernel
/-- R398: a mailbox write is queued. -/
theorem test_sp1MbTx : ∃ t, exec (.sp1MbTx h1 [7]) net = .next t ∧ t.mbox.txq = [7] := ⟨_, rfl, by decide⟩
/-- R45: a plain session may not reset the device. -/
theorem test_sysReset_plain : ∃ t, exec (.sysReset h1) net = .next t ∧ t.pwr.resetAt = none := ⟨_, rfl, by decide⟩
theorem test_sysReset_secure : ∃ t, exec (.sysReset h2) sec = .next t ∧ t.pwr.resetAt = some 10000001000000 := ⟨_, rfl, by decide⟩

/-! ### The checks of well-formedness refuse an ill-formed term each -/

theorem refuses_header : (Instr.nop ⟨1, 0, 7, 9, 2, none, 0⟩).wf = false ∧ (Instr.close ⟨256, 0, 7, 9, 0, none, 0⟩).wf = false ∧
    (Instr.blockAbort ⟨1, 2 ^ 32, 7, 9, 0, none, 0⟩).wf = false ∧ (Instr.loadBase ⟨1, 0, 2 ^ 32, 9, 0, none, 0⟩).wf = false ∧
    (Instr.violClear ⟨1, 0, 7, 65536, 0, none, 0⟩).wf = false ∧ (Instr.nop ⟨1, 0, 7, 9, 0, none, 2 ^ 48⟩).wf = false ∧ (Instr.nop h1).wf = true := by decide
theorem refuses_values : (Instr.declI h1 0 (2 ^ 81)).wf = false ∧ (Instr.write h1 65536 0 (.num 0)).wf = false ∧
    (Instr.write h1 0 256 (.num 0)).wf = false ∧ (Instr.write h1 0 0 (.raw 256 [])).wf = false ∧ (Instr.read h1 0 256).wf = false := by decide
theorem refuses_blocks : (Instr.blockOpen h1 0 0 true (2 ^ 32) 0).wf = false ∧ (Instr.blockSeg h1 0 (2 ^ 32) []).wf = false ∧
    (Instr.blockClose h1 (2 ^ 32)).wf = false := by decide
theorem refuses_openings : (Instr.openSession h1 true [0#8]).wf = false ∧ (Instr.proof h1 []).wf = false ∧
    (Instr.sessionTimeout 0).wf = false ∧ (Instr.securePendingExpiry 9).wf = false := by decide
theorem refuses_samples : (Instr.groupTick 0 [⟨33, [], [], false⟩] 0 false).wf = false ∧ (Instr.groupTick 0 [] 65536 false).wf = false ∧
    (Instr.stagingClose 0 [33]).wf = false ∧ (Instr.modulatorOverload 0 33 true .positive).wf = false ∧
    (Instr.tbaFreqCheck (2 ^ 32)).wf = false := by decide
theorem refuses_faults : (Instr.faultReport (some ⟨4096, 0, 0, 0, .note⟩)).wf = false ∧
    (Instr.faultReport (some ⟨0, 256, 0, 0, .note⟩)).wf = false ∧ (Instr.faultReport (some ⟨0, 0, 2 ^ 24, 0, .note⟩)).wf = false ∧
    (Instr.collectorVote (some 4)).wf = false := by decide
theorem refuses_frames : (Instr.frameReceive ⟨2, true, 64, false, none, 0, .other 0⟩).wf = false ∧
    (Instr.frameReceive ⟨0, true, 64, false, some 4096, 0, .other 0⟩).wf = false ∧
    (Instr.frameReceive ⟨0, true, 64, false, none, 2 ^ 48, .other 0⟩).wf = false ∧
    (Instr.frameReceive ⟨0, true, 64, false, none, 0, .other 65536⟩).wf = false ∧
    (Instr.frameReceive ⟨0, true, 64, false, none, 0, .arpReply (2 ^ 32) 0⟩).wf = false ∧
    (Instr.frameReceive ⟨0, true, 64, false, none, 0, .ptpL2 16⟩).wf = false := by decide
theorem refuses_network : (Instr.dhcpMessage 0 ⟨2 ^ 32, 0, .nak⟩).wf = false ∧ (Instr.arpRequest 0 0 (2 ^ 48) 0).wf = false ∧
    (Instr.arpRetry 0 (2 ^ 32)).wf = false ∧ (Instr.icmpEcho 0 0 (2 ^ 48) []).wf = false ∧
    (Instr.ptpMessage 0 ⟨2, 0, false, .delayResp 0 65536 true 0 0 0⟩).wf = false ∧ (Instr.streamArpResolved 0 0 (2 ^ 48)).wf = false := by decide
theorem refuses_analogue : (Instr.monDecisionDone 0 65536 0).wf = false ∧ (Instr.monSpareSwap 0 true (2 ^ 31) 0).wf = false ∧
    (Instr.calExtCheck 0 [(33, 0, 0)]).wf = false ∧ (Instr.calPointDone 0 (2 ^ 63)).wf = false ∧
    (Instr.sliceTempRead [(528, 0)]).wf = false ∧ (Instr.mtrgoPeriodic (2 ^ 80)).wf = false := by decide
theorem refuses_serial : (Instr.spCollision 0 0 [2 ^ 32]).wf = false ∧ (Instr.slaveWordComplete (2 ^ 32)).wf = false ∧
    (Instr.sp1ListEnd [2 ^ 32] true).wf = false ∧ (Instr.sp1MbTx h1 [2 ^ 32]).wf = false := by decide

/-! The balls of the spec's own example (chapter "Package and Thermal", "Locating balls"), and values that the ranges of the statement admit. -/
theorem test_balls : ballAt 10 58 = some (.chan 137 .IH) ∧ ballAt 11 50 = some (.group 4 .SL) ∧ ballAt 11 49 = some (.group 4 .GRD) ∧
    ballAt 11 48 = some (.rail .AGND) ∧ ballAt 11 47 = some (.group 4 .REFIO) ∧ ballAt 11 46 = some (.rail .AGND) ∧
    ballAt 18 10 = some (.chan 500 .BG) := by decide
theorem test_ball_names : (ballAt 10 58).bind PackageBall.name = some "CH137_IH".toList ∧ posName 7 12 = "07/12".toList := by decide
theorem witness_GroupBallsStandInTheirBlocks :
    ((3 < 4 ∧ 11 < 12 ∧ 1 ≤ 11) ∧ 15 < 16 ∧ 1 ≤ 15) ∧ (31 < 32 ∧ (5, ChanBall.BG) ∈ [(1, ChanBall.SH), (2, .FO), (3, .IH), (4, .IL), (5, .BG)]) := by
  decide

end Sys2Proof.Tests
end

/-! SUPPORT. Rounding and narrowing (R112): `roundEven` gives the one nearest value, the clamps saturate it, and a law stages and marks
the narrowed accumulator. -/
namespace Sys2Proof.Machine
open Sys2Proof

/-! ### Rounding to nearest even -/

/-- `Nearest` by the floor of the quotient and the dropped bits. -/
theorem nearest_iff_dropped (k : Nat) (x n : Int) :
    Nearest k x n ↔ 2 * (((n - x / 2 ^ k) * 2 ^ k - x % 2 ^ k).natAbs : Int) ≤ 2 ^ k ∧
      (2 * (((n - x / 2 ^ k) * 2 ^ k - x % 2 ^ k).natAbs : Int) = 2 ^ k → n % 2 = 0) := by
  have distance : n * 2 ^ k - x = (n - x / 2 ^ k) * 2 ^ k - x % 2 ^ k := by
    have divided := Int.ediv_mul_add_emod x (2 ^ k)
    rw [Int.sub_mul]
    omega
  have width : ((2 ^ k : Nat) : Int) = 2 ^ k := Int.natCast_pow 2 k
  rw [Nearest, distance]
  omega

/-- The range of the dropped bits. -/
theorem dropped_bounds (k : Nat) (x : Int) : 0 ≤ x % 2 ^ k ∧ x % 2 ^ k < 2 ^ k :=
  have pos : (0 : Int) < 2 ^ k := Int.pow_pos (by decide)
  ⟨Int.emod_nonneg x (Int.ne_of_gt pos), Int.emod_lt_of_pos x pos⟩

/-- A whole number nearest to `x` / 2^`k` is the floor of the quotient or the next one. -/
theorem Nearest.floor_or_succ {k : Nat} {x n : Int} (h : Nearest k x n) : n = x / 2 ^ k ∨ n = x / 2 ^ k + 1 := by
  obtain ⟨near, -⟩ := (nearest_iff_dropped k x n).mp h
  obtain ⟨low, high⟩ := dropped_bounds k x
  have pos : (0 : Int) ≤ 2 ^ k := by omega
  have above : ¬ n - x / 2 ^ k ≤ -1 := fun far => by
    have := Int.mul_le_mul_of_nonneg_right far pos
    omega
  have below : ¬ 2 ≤ n - x / 2 ^ k := fun far => by
    have := Int.mul_le_mul_of_nonneg_right far pos
    omega
  omega

/-- The floor of the quotient is nearest when the dropped bits are at most half, and even at exactly half. -/
theorem nearest_floor_iff (k : Nat) (x : Int) :
    Nearest k x (x / 2 ^ k) ↔ 2 * (x % 2 ^ k) ≤ 2 ^ k ∧ (2 * (x % 2 ^ k) = 2 ^ k → x / 2 ^ k % 2 = 0) := by
  obtain ⟨low, high⟩ := dropped_bounds k x
  rw [nearest_iff_dropped, Int.sub_self, Int.zero_mul]
  omega

/-- The next whole number is nearest when the dropped bits are at least half, and even at exactly half. -/
theorem nearest_succ_iff (k : Nat) (x : Int) :
    Nearest k x (x / 2 ^ k + 1) ↔ 2 ^ k ≤ 2 * (x % 2 ^ k) ∧ (2 * (x % 2 ^ k) = 2 ^ k → (x / 2 ^ k + 1) % 2 = 0) := by
  obtain ⟨low, high⟩ := dropped_bounds k x
  rw [nearest_iff_dropped, show x / 2 ^ k + 1 - x / 2 ^ k = 1 by omega, Int.one_mul]
  omega

/-- `roundEven` takes the floor exactly when the dropped bits are under half, or half above an even floor. -/
theorem roundEven_eq (x d : Int) :
    roundEven x d = if 2 * (x % d) < d ∨ (2 * (x % d) = d ∧ x / d % 2 = 0) then x / d else x / d + 1 := by
  simp only [roundEven]
  repeat' split
  all_goals omega

/-- `roundEven` gives the nearest whole number, and the even one of two. -/
theorem nearest_roundEven (k : Nat) (x : Int) : Nearest k x (roundEven x (2 ^ k)) := by
  rw [roundEven_eq]
  split
  · rw [nearest_floor_iff]; omega
  · rw [nearest_succ_iff]; omega

/-- No other whole number is nearest: at exactly half, only one of two neighbours is even. -/
theorem Nearest.eq_roundEven {k : Nat} {x n : Int} (h : Nearest k x n) : n = roundEven x (2 ^ k) := by
  rw [roundEven_eq]
  obtain rfl | rfl := h.floor_or_succ
  · rw [nearest_floor_iff] at h
    rw [if_pos (by omega)]
  · rw [nearest_succ_iff] at h
    rw [if_neg (by omega)]

/-! ### Saturation -/

/-- A clamp changes a value exactly when the value lies outside its bounds. -/
theorem clampI_ne_self_iff (lo hi x : Int) : clampI lo hi x ≠ x ↔ x < lo ∨ hi < x := by
  unfold clampI
  split
  · omega
  · split <;> omega

theorem sat24_eq (x : Int) : sat24 x = if x < -8388608 then -8388608 else if 8388607 < x then 8388607 else x := rfl

theorem Nearest.round24_eq {x n : Int} (h : Nearest 17 x n) : round24 x = sat24 n := by
  rw [round24, h.eq_roundEven]

theorem Nearest.round20raw_eq {x n : Int} (h : Nearest 21 x n) : round20raw x = n :=
  h.eq_roundEven.symm

theorem Nearest.round20_eq {x n : Int} (h : Nearest 21 x n) : round20 x = clampI (-524288) 524287 n := by
  rw [round20, h.round20raw_eq]; rfl

/-! ### The narrowing of a law -/

/-- A law stages the rounded accumulator. -/
theorem lawStep_code (p : LawPar) (v i : Int) (l : Law) : (lawStep p v i l).code = round20 (lawStep p v i l).law.t := by
  dsimp only [lawStep]

/-- A law marks its tick when the staged code is not the code ahead of saturation. -/
theorem lawStep_sat_iff (p : LawPar) (v i : Int) (l : Law) :
    (lawStep p v i l).sat = true ↔ (lawStep p v i l).code ≠ round20raw (lawStep p v i l).law.t :=
  decide_eq_true_iff

/-- Settles O55: a nearest value is what `roundEven` gives, so each narrowing is a clamp of it, and a clamp that changes it marks
the tick. -/
theorem narrowingRule : Obligations.NarrowingRule := by
  unfold Obligations.NarrowingRule
  refine ⟨fun x => ⟨⟨_, nearest_roundEven 17 x⟩, _, nearest_roundEven 21 x⟩, fun x n h => ?round24, fun x n h => ?round20,
    fun a b => sat24_eq (a - b), fun p v i l n h => ⟨lawStep_code p v i l, ?marked⟩⟩
  case round24 => rw [h.round24_eq, sat24_eq]
  case round20 => rw [h.round20_eq, clampI]
  case marked => rw [lawStep_sat_iff, lawStep_code, h.round20_eq, h.round20raw_eq, clampI_ne_self_iff]

end Sys2Proof.Machine

/-! SUPPORT. The check nibble of matrix words (R242): the nibbles of a word that `mtxWord` builds are those of its body of 28 bits,
shifted up by one, above the check nibble. -/
namespace Sys2Proof.Machine
open Sys2Proof

/-- The nibble of `n` at bits [`lo`+3:`lo`]. -/
def nibble (n lo : Nat) : BitVec 4 := BitVec.ofNat 4 (bits n lo 4)

/-- The inverted exclusive OR of the seven nibbles of a body of 28 bits, as a nibble (R242). -/
def checkOf (v : Nat) : BitVec 4 :=
  ~~~(nibble v 0 ^^^ nibble v 4 ^^^ nibble v 8 ^^^ nibble v 12 ^^^ nibble v 16 ^^^ nibble v 20 ^^^ nibble v 24)

theorem toNat_nibble (n lo : Nat) : (nibble n lo).toNat = bits n lo 4 := by
  rw [nibble, BitVec.toNat_ofNat, bits, Nat.mod_mod]

/-- A nibble of a 32-bit word is the nibble of the number the word is made of. -/
theorem extractLsb'_ofNat_eq_nibble (n lo : Nat) (inside : lo + 4 ≤ 32) : (BitVec.ofNat 32 n).extractLsb' lo 4 = nibble n lo := by
  apply BitVec.eq_of_getLsbD_eq
  intro i hi
  have kept : i + lo < 32 := by omega
  simp only [nibble, bits, BitVec.getLsbD_extractLsb', BitVec.getLsbD_ofNat, Nat.testBit_mod_two_pow, Nat.testBit_div_two_pow, hi, kept,
    decide_true, Bool.true_and, Nat.add_comm lo]

/-- The lowest nibble of a body with a nibble appended is the appended one. -/
theorem nibble_append_zero (v : Nat) (c : BitVec 4) : nibble (v * 16 + c.toNat) 0 = c := by
  apply BitVec.eq_of_toNat_eq
  rw [toNat_nibble, bits]
  omega

/-- The nibbles above the appended one are those of the body. -/
theorem nibble_append_add_four (v lo : Nat) (c : BitVec 4) : nibble (v * 16 + c.toNat) (lo + 4) = nibble v lo := by
  have body : (v * 16 + c.toNat) / 2 ^ 4 = v := by omega
  rw [nibble, nibble, bits, bits, Nat.add_comm lo, Nat.pow_add, ← Nat.div_div_eq_div_mul, body]

/-- The model's check nibble is `checkOf`. -/
theorem checkNibble_eq (v : Nat) : checkNibble v = (checkOf v).toNat := by
  simp [checkNibble, checkOf, List.range_succ, toNat_nibble]

/-- A matrix word is a body with its check nibble appended (R241). -/
theorem exists_mtxWord_eq (ep op phase tag : Nat) : ∃ v, mtxWord ep op phase tag = BitVec.ofNat 32 (v * 16 + (checkOf v).toNat) := by
  refine ⟨ep % 2 ^ 20 * 256 + op % 8 * 32 + phase % 4 * 8 + tag % 8, ?_⟩
  rw [← checkNibble_eq, mtxWord]

/-- Settles O56: in a built word the lowest nibble is `checkOf` of the body, and the seven above it are the body's; seven equal
nibbles 0 or F have the check nibble F or 0. -/
theorem matrixWordCheck : Obligations.MatrixWordCheck := by
  unfold Obligations.MatrixWordCheck
  refine ⟨fun ep op phase tag => ?built, ?zeros, ?ones⟩
  case built =>
    obtain ⟨v, word⟩ := exists_mtxWord_eq ep op phase tag
    simp only [word, extractLsb'_ofNat_eq_nibble, Nat.reduceLeDiff, nibble_append_zero]
    have above := fun lo => nibble_append_add_four v lo (checkOf v)
    rw [above 0, above 4, above 8, above 12, above 16, above 20, above 24, checkOf]
  case zeros => decide
  case ones => decide

end Sys2Proof.Machine

/-! SUPPORT. The write of RTC_SET (R442): refused while the servo is LOCKED, else it sets the calendar and steps the TBP counter
(R368). -/
namespace Sys2Proof.Machine
open Sys2Proof

/-- The TBP counter after a step by an offset (R368). -/
theorem State.tbp_stepTime (s : State) (d : Int) : (s.stepTime d).tbp = ((s.clk.up : Int) + s.clk.tbp - d).toNat := by
  rw [State.tbp, State.stepTime, State.inc_clk, Int.add_sub_assoc]

/-- The calendar and RTC_VALID set to `ns` nanoseconds of TAI (R440, R442). -/
def State.setCalendar (s : State) (ns : Nat) : State :=
  { s with clk := { s.clk with rtc := (ns : Int) - s.clk.up }, nvm := { s.nvm with rtcValid := true } }

/-- A calendar set to a time reads that time. -/
theorem State.up_add_rtc_setCalendar (s : State) (ns : Nat) : (s.clk.up : Int) + (s.setCalendar ns).clk.rtc = ns := by
  show (s.clk.up : Int) + ((ns : Int) - s.clk.up) = ns
  rw [Int.add_comm, Int.sub_add_cancel]

/-- The step that takes the counter from its own time to `ns` ends at `ns`, whatever the calendar shows. -/
theorem State.tbp_stepTime_setCalendar (s : State) (m ns : Nat) :
    ((s.setCalendar m).stepTime ((s.clk.up : Int) + s.clk.tbp - ns)).tbp = ns := by
  rw [State.tbp_stepTime]
  show ((s.clk.up : Int) + s.clk.tbp - ((s.clk.up : Int) + s.clk.tbp - ns)).toNat = ns
  rw [Int.sub_sub_self, Int.toNat_natCast]

theorem State.rtcWrite_of_locked {s : State} (locked : s.rd .PTP_STATE = 3) (t : Nat) :
    s.rtcWrite t = (s, some .STATE_CONFLICT) := if_pos locked

theorem State.rtcWrite_of_not_locked {s : State} (unlocked : s.rd .PTP_STATE ≠ 3) (t : Nat) :
    s.rtcWrite t = ((s.setCalendar (nsOf t)).stepTime ((s.clk.up : Int) + s.clk.tbp - nsOf t), some .OK) := if_neg unlocked

/-- The command's effect is the one of `rtcWrite`, and its answer follows at once with the status that this gives. -/
theorem writeRuns_rtcSet {h : Hdr} {v : Int} {p : State → Prop} {u : State → State} {st : Status}
    (wrote : ∀ t : State, p t → t.rtcWrite v.toNat = (u t, some st)) :
    WriteRuns (.rtcSet h v) h .RTC_SET 0 0 (.num v) (.num v) p fun t a => (u t).answer a st := by
  refine writeRuns_plain (by decide) (fun _ => rfl) fun t a _ _ met => ?_
  show (match t.rtcWrite v.toNat with | (u, some st) => u.answer a st | (u, none) => u) = _
  rw [wrote t met]

/-- Settles O34: the two cases are the branches of `rtcWrite`, and calendar and counter both come to the written time. -/
theorem rtcSetRule : Obligations.RtcSetRule := by
  unfold Obligations.RtcSetRule
  refine fun h v => ⟨?locked, ?unlocked, ?times⟩
  case locked => exact writeRuns_rtcSet fun _ locked => State.rtcWrite_of_locked locked v.toNat
  case unlocked => exact writeRuns_rtcSet fun _ unlocked => State.rtcWrite_of_not_locked unlocked v.toNat
  case times =>
    rintro t _ rfl
    exact ⟨t.up_add_rtc_setCalendar _, t.tbp_stepTime_setCalendar _ _⟩

end Sys2Proof.Machine

/-! SUPPORT. Where the balls of groups and channels stand (R491, R492): each side of the ring shows its own coordinates, along the side
and inward, and a side cuts into four blocks and an AGND line. -/
namespace Sys2Proof.Machine
open Sys2Proof

/-! ### The four sides of the pinwheel -/

section
variable {x d : Nat} (x_pos : 1 ≤ x) (x_le : x ≤ 45) (d_pos : 1 ≤ d) (d_lt : d < 16)
include x_pos x_le d_pos d_lt

theorem ballAt_north : ballAt d x = some (sideBall 0 x d) := by
  rw [ballAt, if_neg (by omega), if_pos (by omega)]

theorem ballAt_east : ballAt x (61 - d) = some (sideBall 1 x d) := by
  rw [ballAt, if_neg (by omega), if_neg (by omega), if_pos (by omega), Nat.sub_sub_self (by omega)]

theorem ballAt_south : ballAt (61 - d) (61 - x) = some (sideBall 2 x d) := by
  rw [ballAt, if_neg (by omega), if_neg (by omega), if_neg (by omega), if_pos (by omega), Nat.sub_sub_self (by omega),
    Nat.sub_sub_self (by omega)]

theorem ballAt_west : ballAt (61 - x) d = some (sideBall 3 x d) := by
  rw [ballAt, if_neg (by omega), if_neg (by omega), if_neg (by omega), if_neg (by omega), if_pos (by omega),
    Nat.sub_sub_self (by omega)]

end

/-- Place 11`k` + `u` of a side is `u` of its block `k`. -/
theorem sideBall_block (side d : Nat) {k u : Nat} (k_lt : k < 4) (u_pos : 1 ≤ u) (u_lt : u < 12) :
    sideBall side (11 * k + u) d = blockBall (4 * side + k) u d := by
  have block : (11 * k + u - 1) / 11 = k := by omega
  have along : (11 * k + u - 1) % 11 + 1 = u := by omega
  rw [sideBall, if_neg (by omega), block, along]

theorem sideBall_agnd (side d : Nat) : sideBall side 45 d = .rail .AGND := if_pos rfl

/-! ### The columns of a block -/

/-- Depth `i` of tier `t`, counted in depths of the block. -/
theorem tier_of_depth (t : Nat) {i : Nat} (i_pos : 1 ≤ i) (i_le : i ≤ 5) :
    (5 * t + i - 1) / 5 = t ∧ (5 * t + i - 1) % 5 + 1 = i := by omega

/-- Channel `p` of a group takes the channel column at its place: the place of the group column would be `p` = 32. -/
theorem blockBall_chan (g : Nat) {p i : Nat} (p_lt : p < 32) (i_pos : 1 ≤ i) (i_le : i ≤ 5) :
    blockBall g (p % 11 + 1) (5 * (p / 11) + i) = .chan (g * 32 + p) (chanColumn i) := by
  obtain ⟨tier, depth⟩ := tier_of_depth (p / 11) i_pos i_le
  have number : 32 * g + 11 * (p / 11) + (p % 11 + 1 - 1) = g * 32 + p := by omega
  simp only [blockBall, tier, depth, number]
  rw [if_neg (by omega)]

/-- Place 11 of tier 2 carries the group column. -/
theorem blockBall_group (g : Nat) {i : Nat} (i_pos : 1 ≤ i) (i_le : i ≤ 5) : blockBall g 11 (10 + i) = groupColumn g i := by
  obtain ⟨tier, depth⟩ := tier_of_depth 2 i_pos i_le
  simp only [blockBall, tier, depth, and_self, if_true]

/-- The channel column of Table "Tier ball order". -/
theorem chanColumn_of_listed : ∀ x ∈ [(1, ChanBall.SH), (2, .FO), (3, .IH), (4, .IL), (5, .BG)],
    1 ≤ x.1 ∧ x.1 ≤ 5 ∧ chanColumn x.1 = x.2 := by decide

/-- The group column of Table "Tier ball order". -/
theorem groupColumn_of_listed (g : Nat) :
    ∀ x ∈ [(1, PackageBall.group g .SL), (2, .group g .GRD), (3, .rail .AGND), (4, .group g .REFIO), (5, .rail .AGND)],
      1 ≤ x.1 ∧ x.1 ≤ 5 ∧ groupColumn g x.1 = x.2 := by
  simp [groupColumn]

/-- Settles O60: the blocks and the AGND lines are places along the sides, and each ball of a column is the tables' at its depth. -/
theorem groupBallsStandInTheirBlocks : Obligations.GroupBallsStandInTheirBlocks := by
  unfold Obligations.GroupBallsStandInTheirBlocks
  refine ⟨fun k k_lt u u_lt u_pos d d_lt d_pos => ?blocks, fun d d_lt d_pos => ?lines, fun g p p_lt => ?channels, fun g => ?groups⟩
  case blocks =>
    have x_pos : 1 ≤ 11 * k + u := by omega
    have x_le : 11 * k + u ≤ 45 := by omega
    have block := fun side => sideBall_block side d k_lt u_pos u_lt
    rw [ballAt_north x_pos x_le d_pos d_lt, ballAt_east x_pos x_le d_pos d_lt, ballAt_south x_pos x_le d_pos d_lt,
      ballAt_west x_pos x_le d_pos d_lt, block, block, block, block, Nat.mul_zero, Nat.zero_add]
    exact ⟨rfl, rfl, rfl, rfl⟩
  case lines =>
    have line := fun side => congrArg some (sideBall_agnd side d)
    exact ⟨(ballAt_north (by decide) (by decide) d_pos d_lt).trans (line 0),
      (ballAt_east (by decide) (by decide) d_pos d_lt).trans (line 1),
      (ballAt_south (by decide) (by decide) d_pos d_lt).trans (line 2),
      (ballAt_west (by decide) (by decide) d_pos d_lt).trans (line 3)⟩
  case channels =>
    intro x listed
    obtain ⟨pos, le, entry⟩ := chanColumn_of_listed x listed
    rw [blockBall_chan g p_lt pos le, entry]
  case groups =>
    intro x listed
    obtain ⟨pos, le, entry⟩ := groupColumn_of_listed g x listed
    rw [blockBall_group g pos le, entry]

end Sys2Proof.Machine

/-! SUPPORT. What every command keeps, command by command, and so what every step keeps: the queue's rest, the safe latch with nSAFE
(R347, R348), and the canonical form of the tables. -/
namespace Sys2Proof.Machine
open Sys2Proof

theorem execSupplyLoss_kept {s t : State} {rail : Fin 8} (notLoss : rail ≠ 6) (ran : execSupplyLoss rail s = .next t) : Kept s t := by
  injection ran with ran
  exact ran ▸ State.railLost_kept (Kept.refl s) fun six => notLoss (Fin.ext six)

/-- Every command but a power-on reset and a loss of VAON (rail 6) keeps all that `Kept` names. -/
theorem exec_kept {s t : State} {i : Instr} (notReset : i ≠ .powerOnReset) (notLoss : i ≠ .supplyLoss 6) (ran : exec i s = .next t) :
    Kept s t := by
  cases i with
  | frameStart => exact execFrameStart_kept ran
  | groupTick g slots pace recordMiss => exact execGroupTick_kept g slots pace recordMiss ran
  | stagingClose g missed => exact execStagingClose_kept g missed ran
  | loadStrobe g => exact execLoadStrobe_kept g ran
  | clockMonitorWindow tb found => exact execClockMonitorWindow_kept tb found ran
  | tbaStopDetect => exact execTbaStopDetect_kept ran
  | tbaFreqCheck edges => exact execTbaFreqCheck_kept edges ran
  | tbaTick reeds => exact execTbaTick_kept reeds ran
  | declI h c v => exact execDeclI_kept h c v ran
  | openSession h secure cnonce => exact execOpenSession_kept h secure cnonce ran
  | proof h hproof => exact execProof_kept h hproof ran
  | securePendingExpiry n => exact execSecurePendingExpiry_kept n ran
  | close h => exact execClose_kept h ran
  | nop h => exact execNop_kept h ran
  | read h idx sub => exact execRead_kept h idx sub ran
  | write h idx sub v => exact execWrite_kept h idx sub v ran
  | queuedRequestExecute n => exact execQueuedRequestExecute_kept n ran
  | sessionTimeout n => exact execSessionTimeout_kept n ran
  | blockOpen h idx sub dirWrite offset count => exact execBlockOpen_kept h idx sub dirWrite offset count ran
  | blockSeg h offset count data => exact execBlockSeg_kept h offset count data ran
  | blockClose h crc => exact execBlockClose_kept h crc ran
  | blockAbort h => exact execBlockAbort_kept h ran
  | mode h m => exact execMode_kept h m ran
  | modeValidationDone => exact execModeValidationDone_kept ran
  | imageCommit h => exact execImageCommit_kept h ran
  | imageCommitDone verified => exact execImageCommitDone_kept verified ran
  | loadBase h => exact execLoadBase_kept h ran
  | violClear h => exact execViolClear_kept h ran
  | arm h c => exact execArm_kept h c ran
  | enable h c => exact execEnable_kept h c ran
  | outOff h c => exact execOutOff_kept h c ran
  | outMute h c => exact execOutMute_kept h c ran
  | outResume h c => exact execOutResume_kept h c ran
  | armTransitEnd c => exact execArmTransitEnd_kept c ran
  | offRampEnd c => exact execOffRampEnd_kept c ran
  | safeRampEnd c => exact execSafeRampEnd_kept c ran
  | boostDecl h c v => exact execBoostDecl_kept h c v ran
  | forceMode h c v => exact execForceMode_kept h c v ran
  | notchEn h c v => exact execNotchEn_kept h c v ran
  | lawHoldSet h c => exact execLawHoldSet_kept h c ran
  | lawHoldCommit h c => exact execLawHoldCommit_kept h c ran
  | ctlRunStart h g => exact execCtlRunStart_kept h g ran
  | ctlRunStop h g => exact execCtlRunStop_kept h g ran
  | vRange h c v => exact execVRange_kept h c v ran
  | iRange h c v => exact execIRange_kept h c v ran
  | rangeSet h c v => exact execRangeSet_kept h c v ran
  | slidePrepEnd c => exact execSlidePrepEnd_kept c ran
  | slideComplete c => exact execSlideComplete_kept c ran
  | autoRangeStep c => exact execAutoRangeStep_kept c ran
  | modulatorOverload g slot current what => exact execModulatorOverload_kept g slot current what ran
  | apertureClose c => exact execApertureClose_kept c ran
  | apertureN h c v => exact execApertureN_kept h c v ran
  | apertureRebase h c => exact execApertureRebase_kept h c ran
  | aggWindowClose g => exact execAggWindowClose_kept g ran
  | recFlushExpiry c => exact execRecFlushExpiry_kept c ran
  | filtRunStart h g => exact execFiltRunStart_kept h g ran
  | filtRunStop h g => exact execFiltRunStop_kept h g ran
  | filtFillDone g => exact execFiltFillDone_kept g ran
  | reservationWrite c => exact execReservationWrite_kept c ran
  | reservationConfirm c => exact execReservationConfirm_kept c ran
  | chtStop h c => exact execChtStop_kept h c ran
  | chtStart h c => exact execChtStart_kept h c ran
  | chtPause h c => exact execChtPause_kept h c ran
  | chtResume h c => exact execChtResume_kept h c ran
  | chtAdvance h c => exact execChtAdvance_kept h c ran
  | unitBegin c sramBad => exact execUnitBegin_kept c sramBad ran
  | unitApply x => exact execUnitApply_kept x ran
  | unitSettle c => exact execUnitSettle_kept c ran
  | unitEnd c => exact execUnitEnd_kept c ran
  | wavePoint c ue => exact execWavePoint_kept c ue ran
  | waveLen h n v => exact execWaveLen_kept h n v ran
  | claimAnswer c => exact execClaimAnswer_kept c ran
  | epConnect h c v => exact execEpConnect_kept h c v ran
  | epRelease h c => exact execEpRelease_kept h c ran
  | matrixGrant => exact execMatrixGrant_kept ran
  | matrixWordEcho echo strobe => exact execMatrixWordEcho_kept echo strobe ran
  | breakSettled c => exact execBreakSettled_kept c ran
  | connectionSettled c => exact execConnectionSettled_kept c ran
  | mtxRestart h line => exact execMtxRestart_kept h line ran
  | ledgerRetire h ep => exact execLedgerRetire_kept h ep ran
  | ledgerRestore h ep => exact execLedgerRestore_kept h ep ran
  | ledgerClearBias h ep => exact execLedgerClearBias_kept h ep ran
  | ledgerCommit h => exact execLedgerCommit_kept h ran
  | ledgerCommitPeriodic => exact execLedgerCommitPeriodic_kept ran
  | ledgerCommitDone => exact execLedgerCommitDone_kept ran
  | mtrgEdge ball rising => exact execMtrgEdge_kept ball rising ran
  | monStartupEnd g => exact execMonStartupEnd_kept g ran
  | monSlotEnd g => exact execMonSlotEnd_kept g ran
  | monDecisionDone g a b => exact execMonDecisionDone_kept g a b ran
  | monUrgent h g ent => exact execMonUrgent_kept h g ent ran
  | monEntry h g ent v => exact execMonEntry_kept h g ent v ran
  | monAccA h g ent => exact execMonAccA_kept h g ent ran
  | monAccB h g ent => exact execMonAccB_kept h g ent ran
  | monSnap h g => exact execMonSnap_kept h g ran
  | monRestart h g => exact execMonRestart_kept h g ran
  | monSpareSwap g convB offset gainPpm => exact execMonSpareSwap_kept g convB offset gainPpm ran
  | mtrgoPulse h => exact execMtrgoPulse_kept h ran
  | mtrgoPeriodic m => exact execMtrgoPeriodic_kept m ran
  | mtrgoPulseEnd => exact execMtrgoPulseEnd_kept ran
  | reedSample g reeds => exact execReedSample_kept g reeds ran
  | reedClear h c => exact execReedClear_kept h c ran
  | reedTest h g => exact execReedTest_kept h g ran
  | reedTestPeriodic => exact execReedTestPeriodic_kept ran
  | reedTestTick g tv ti => exact execReedTestTick_kept g tv ti ran
  | eviEdge ball rising => exact execEviEdge_kept ball rising ran
  | evFire h n => exact execEvFire_kept h n ran
  | evoPulseEnd ball => exact execEvoPulseEnd_kept ball ran
  | evLogClear h => exact execEvLogClear_kept h ran
  | calStart h g => exact execCalStart_kept h g ran
  | calAbort h g => exact execCalAbort_kept h g ran
  | calExtCheck g means => exact execCalExtCheck_kept g means ran
  | calPointDone g x => exact execCalPointDone_kept g x ran
  | calNvmWriteDone g verified => exact execCalNvmWriteDone_kept g verified ran
  | sliceTempRead temps => exact execSliceTempRead_kept temps ran
  | calThermalUpdate => exact execCalThermalUpdate_kept ran
  | faultReport m => exact execFaultReport_kept m ran
  | fenceArrival => exact execFenceArrival_kept ran
  | takeoverBlankEnd c => exact execTakeoverBlankEnd_kept c ran
  | faultLogDrain => exact execFaultLogDrain_kept ran
  | collectorVote disagree => exact execCollectorVote_kept disagree ran
  | errorLineChange k pair lasting => exact execErrorLineChange_kept k pair lasting ran
  | fltUnfence h src => exact execFltUnfence_kept h src ran
  | unfenceSelftestDone found => exact execUnfenceSelftestDone_kept found ran
  | fltSafe h => exact execFltSafe_kept h ran
  | fltLogClear h => exact execFltLogClear_kept h ran
  | fltN h t v => exact execFltN_kept h t v ran
  | fltW h t v => exact execFltW_kept h t v ran
  | frameReceive f => exact execFrameReceive_kept f ran
  | netMode h n v => exact execNetMode_kept h n v ran
  | netAn h n v => exact execNetAn_kept h n v ran
  | linkUp n => exact execLinkUp_kept n ran
  | linkDown n errorsOnly => exact execLinkDown_kept n errorsOnly ran
  | streamPortReturn st => exact execStreamPortReturn_kept st ran
  | dhcpMessage n m => exact execDhcpMessage_kept n m ran
  | dhcpDiscoverRetry n => exact execDhcpDiscoverRetry_kept n ran
  | dhcpRenew n => exact execDhcpRenew_kept n ran
  | dhcpRebind n => exact execDhcpRebind_kept n ran
  | dhcpLeaseExpiry n => exact execDhcpLeaseExpiry_kept n ran
  | arpRequest n senderIp senderMac targetIp => exact execArpRequest_kept n senderIp senderMac targetIp ran
  | arpCacheExpiry n ip => exact execArpCacheExpiry_kept n ip ran
  | arpRetry n ip => exact execArpRetry_kept n ip ran
  | icmpEcho n srcIp srcMac data => exact execIcmpEcho_kept n srcIp srcMac data ran
  | ptpMessage n m => exact execPtpMessage_kept n m ran
  | ptpDelayReqSend => exact execPtpDelayReqSend_kept ran
  | ptpTimeout => exact execPtpTimeout_kept ran
  | timeSrc h v => exact execTimeSrc_kept h v ran
  | ppsinEdge => exact execPpsinEdge_kept ran
  | ppsoutPulse => exact execPpsoutPulse_kept ran
  | streamEnable h st => exact execStreamEnable_kept h st ran
  | streamArpResolved st n mac => exact execStreamArpResolved_kept st n mac ran
  | streamDisable h st => exact execStreamDisable_kept h st ran
  | streamPacketSend n readUe => exact execStreamPacketSend_kept n readUe ran
  | spBusIdle n => exact execSpBusIdle_kept n ran
  | spCollision n line replies => exact execSpCollision_kept n line replies ran
  | slaveSelectAssert => exact execSlaveSelectAssert_kept ran
  | slaveWordComplete w => exact execSlaveWordComplete_kept w ran
  | slavePartial => exact execSlavePartial_kept ran
  | sp1Go h sel => exact execSp1Go_kept h sel ran
  | sp1Poll m => exact execSp1Poll_kept m ran
  | sp1ListEnd replies strobeErr => exact execSp1ListEnd_kept replies strobeErr ran
  | sp1MbTx h words => exact execSp1MbTx_kept h words ran
  | sp1MbRx h => exact execSp1MbRx_kept h ran
  | spRestart h n => exact execSpRestart_kept h n ran
  | spClear h n => exact execSpClear_kept h n ran
  | pairEnable h => exact execPairEnable_kept h ran
  | pairForm p => exact execPairForm_kept p ran
  | pairDissolve h => exact execPairDissolve_kept h ran
  | heartbeat b => exact execHeartbeat_kept b ran
  | stateCell lane items => exact execStateCell_kept lane items ran
  | configCell lane items => exact execConfigCell_kept lane items ran
  | failCell lane => exact execFailCell_kept lane ran
  | groupFailCell lane g => exact execGroupFailCell_kept lane g ran
  | handoverCell lane g left => exact execHandoverCell_kept lane g left ran
  | ackCell lane g => exact execAckCell_kept lane g ran
  | pairHandover h g => exact execPairHandover_kept h g ran
  | handoverAckTimeout g => exact execHandoverAckTimeout_kept g ran
  | laneDown lane => exact execLaneDown_kept lane ran
  | heartbeatLoss => exact execHeartbeatLoss_kept ran
  | witnessSilent => exact execWitnessSilent_kept ran
  | witnessToggle m => exact execWitnessToggle_kept m ran
  | sramScrubSlice found late => exact execSramScrubSlice_kept found late ran
  | nvmScrubSlice found late => exact execNvmScrubSlice_kept found late ran
  | logCopy late => exact execLogCopy_kept late ran
  | telemetryFrame m late => exact execTelemetryFrame_kept m late ran
  | lineTest wires => exact execLineTest_kept wires ran
  | nvmPageFlush bank page verified => exact execNvmPageFlush_kept bank page verified ran
  | bankCopyDone => exact execBankCopyDone_kept ran
  | rtcRealign => exact execRtcRealign_kept ran
  | rtcTrimStore ppb => exact execRtcTrimStore_kept ppb ran
  | rtcSet h t => exact execRtcSet_kept h t ran
  | supplyLoss rail => exact execSupplyLoss_kept (fun six => notLoss (congrArg Instr.supplyLoss six)) ran
  | supplyReturn => exact execSupplyReturn_kept ran
  | powerOnReset => exact absurd rfl notReset
  | nrst => exact execNrst_kept ran
  | sysReset h => exact execSysReset_kept h ran
  | bootStageComplete b => exact execBootStageComplete_kept b ran
  | bootRefclkTimeout => exact execBootRefclkTimeout_kept ran
  | groupPowerDown h g => exact execGroupPowerDown_kept h g ran
  | groupPowerUp h g => exact execGroupPowerUp_kept h g ran
  | pwrCmd h => exact execPwrCmd_kept h ran
  | sleepRampsDone => exact execSleepRampsDone_kept ran
  | sleepQuiesceDone => exact execSleepQuiesceDone_kept ran
  | sleepCommitDone => exact execSleepCommitDone_kept ran
  | sleepPowerDown => exact execSleepPowerDown_kept ran
  | sleepUntilReached => exact execSleepUntilReached_kept ran
  | wakeComplete => exact execWakeComplete_kept ran
  | vddcStepUp => exact execVddcStepUp_kept ran
  | vddcStepDown => exact execVddcStepDown_kept ran
  | vddcFallback meas => exact execVddcFallback_kept meas ran
  | powerAccounting avpp avnn means totalMw => exact execPowerAccounting_kept avpp avnn means totalMw ran
  | ppsoutPulseEnd => exact execPpsoutPulseEnd_kept ran
  | hostResetDelayExpiry => exact execHostResetDelayExpiry_kept ran
  | groupPllLock g => exact execGroupPllLock_kept g ran
  | lineErrWindowExpiry k => exact execLineErrWindowExpiry_kept k ran
  | pairCellDiscard lane => exact execPairCellDiscard_kept lane ran
  | analogueRailsInside9V => exact execAnalogueRailsInside9V_kept ran

/-! ### Resets (R449, R450) -/

/-- A reset keeps the queue, asserts nSAFE and starts with empty tables, whatever its source. -/
theorem State.restart_keeps (s : State) (src : Nat) :
    (s.restart src).pending = s.pending ∧ (s.restart src).latchAsserts ∧ (s.restart src).tablesWf = true :=
  ⟨rfl, fun _ => rfl, rfl⟩

/-- The state with the given rails marked as lost. -/
def State.withLost (s : State) (lost : Nat) : State := { s with pwr := { s.pwr with lost := lost } }

/-- A loss of VAON that is new is a power-on reset with the rail marked as lost. -/
theorem State.railLost_six {s : State} (here : bit s.pwr.lost 6 = false) :
    s.railLost 6 = (s.withLost (setBit s.pwr.lost 6 true)).restart 0 := by
  rw [State.railLost, here]; rfl

theorem State.railLost_of_lost {s : State} {i : Nat} (lost : bit s.pwr.lost i = true) : s.railLost i = s := by
  rw [State.railLost, lost]; rfl

/-- A command that the latch does not survive either changes nothing or resets, from a state with the same queue. -/
theorem exec_powerCycle {s t : State} {i : Instr} (cycle : i = .powerOnReset ∨ i = .supplyLoss 6) (ran : exec i s = .next t) :
    t = s ∨ ∃ u : State, u.pending = s.pending ∧ t = u.restart 0 := by
  obtain rfl | rfl := cycle
  · injection ran with ran
    exact .inr ⟨s, rfl, ran.symm⟩
  · have ran : s.railLost 6 = t := by injection ran
    cases here : bit s.pwr.lost 6 with
    | true => exact .inl (ran.symm.trans (State.railLost_of_lost here))
    | false => exact .inr ⟨s.withLost (setBit s.pwr.lost 6 true), rfl, ran.symm.trans (State.railLost_six here)⟩

/-- What every command keeps, a power cycle included. -/
theorem exec_keeps {s t : State} {i : Instr} (ran : exec i s = .next t) :
    t.pending = s.pending ∧ (s.latchAsserts → t.latchAsserts) ∧ (s.tablesWf = true → t.tablesWf = true) := by
  by_cases cycle : i = .powerOnReset ∨ i = .supplyLoss 6
  · obtain rfl | ⟨u, queue, rfl⟩ := exec_powerCycle cycle ran
    · exact ⟨rfl, id, id⟩
    · obtain ⟨same, asserts, wf⟩ := u.restart_keeps 0
      exact ⟨same.trans queue, fun _ => asserts, fun _ => wf⟩
  · obtain ⟨notReset, notLoss⟩ := not_or.mp cycle
    have kept := exec_kept notReset notLoss ran
    exact ⟨kept.queue, kept.latchAsserts, kept.tablesWf⟩

/-! ### Steps -/

theorem step_of_pending {s : State} {i : Instr} {rest : List Instr} (front : s.pending = i :: rest) :
    step s = exec i { s with pending := rest } := by
  rw [step, front]

theorem step_of_empty {s : State} (empty : s.pending = []) : step s = .next s.idle := by
  rw [step, empty]

/-- A step with an empty queue passes the time; any other runs the command at the front. -/
theorem step_cases {s t : State} (stepped : step s = .next t) :
    (s.pending = [] ∧ t = s.idle) ∨ ∃ i rest, s.pending = i :: rest ∧ exec i { s with pending := rest } = .next t := by
  cases queue : s.pending with
  | nil =>
    rw [step_of_empty queue] at stepped
    injection stepped with idle
    exact .inl ⟨rfl, idle.symm⟩
  | cons i rest => exact .inr ⟨i, rest, rfl, step_of_pending queue ▸ stepped⟩

/-- Every step keeps nSAFE under the latch, and the canonical tables. -/
theorem step_keeps {s t : State} (stepped : step s = .next t) :
    (s.latchAsserts → t.latchAsserts) ∧ (s.tablesWf = true → t.tablesWf = true) := by
  obtain ⟨-, rfl⟩ | ⟨i, rest, -, ran⟩ := step_cases stepped
  · have kept := State.idle_kept (Kept.refl s)
    exact ⟨kept.latchAsserts, kept.tablesWf⟩
  · exact (exec_keeps ran).2

/-- Settles O6: commands and idle steps keep nSAFE asserted under the latch. -/
theorem safeLatchKeepsNsafe : Obligations.SafeLatchKeepsNsafe := by
  unfold Obligations.SafeLatchKeepsNsafe
  exact fun s t asserts stepped => (step_keeps stepped).1 asserts

/-- Settles O7: commands and idle steps keep the tables canonical. -/
theorem tablesStayCanonical : Obligations.TablesStayCanonical := by
  unfold Obligations.TablesStayCanonical
  exact fun s t wf stepped => (step_keeps stepped).2 wf

/-- Settles O8: only the two commands of a power cycle can clear the latch, and neither stands at the front. -/
theorem onlyPowerCycleClearsLatch : Obligations.OnlyPowerCycleClearsLatch := by
  unfold Obligations.OnlyPowerCycleClearsLatch
  intro s t latched notReset notLoss stepped
  obtain ⟨-, rfl⟩ | ⟨i, rest, front, ran⟩ := step_cases stepped
  · exact (State.idle_kept (Kept.refl s)).latched latched
  · rw [front] at notReset notLoss
    exact (exec_kept (fun e => notReset (congrArg some e)) (fun e => notLoss (congrArg some e)) ran).latched latched

/-- Every command has a meaning. -/
theorem exec_total (i : Instr) (s : State) : ∃ t, exec i s = .next t := by
  cases i <;> exact ⟨_, rfl⟩

/-- Settles O4: every arm answers a next state, and `exec_keeps` holds the queue. -/
theorem commandsLeaveTheQueue : Obligations.CommandsLeaveTheQueue := by
  unfold Obligations.CommandsLeaveTheQueue
  intro c s
  obtain ⟨t, ran⟩ := exec_total c s
  exact ⟨t, ran, (exec_keeps ran).1⟩

/-- Settles O1: with a command at the front, `step` is its `exec`. -/
theorem stepRunsTheFront : Obligations.StepRunsTheFront := by
  unfold Obligations.StepRunsTheFront
  exact fun s c rest front => step_of_pending front

/-- The calendar over an idle step, by its three cases (R440). -/
theorem State.rtcRun_eq (s : State) : s.rtcRun = { s.clk with
    rtc := if s.tb 23 = 4 then s.clk.rtc - 8
      else if s.rd .PTP_STATE = 3 then s.clk.rtc
      else s.clk.rtc + (s.clk.rtcPart + 8 * s.nvm.rtcTrim) / 1000000000
    rtcPart := if s.tb 23 = 4 ∨ s.rd .PTP_STATE = 3 then s.clk.rtcPart
      else (s.clk.rtcPart + 8 * s.nvm.rtcTrim) % 1000000000 } := by
  by_cases lost : s.tb 23 = 4
  · simp [State.rtcRun, lost]
  · by_cases locked : s.rd .PTP_STATE = 3
    · simp [State.rtcRun, lost, locked]
    · simp [State.rtcRun, lost, locked]

/-- Settles O2: an idle step is `State.idle`, and its calendar is `rtcRun`. -/
theorem emptyQueueIdles : Obligations.EmptyQueueIdles := by
  unfold Obligations.EmptyQueueIdles
  intro s empty
  rw [step_of_empty empty, State.idle, State.rtcRun_eq]

/-- Settles O5: the reset state has nSAFE asserted and empty tables. -/
theorem invariantsHoldAtReset : Obligations.InvariantsHoldAtReset := by
  unfold Obligations.InvariantsHoldAtReset
  exact ⟨fun _ => rfl, rfl⟩

/-- Settles O3: every table of the reset state is empty, so each record and object reads as its default. -/
theorem resetState : Obligations.ResetState := by
  unfold Obligations.ResetState
  refine ⟨fun o i e => rfl, fun c => ⟨rfl, rfl, rfl, rfl, rfl, rfl⟩, fun n => rfl, fun k => rfl, rfl, ?_⟩
  exact ⟨rfl, rfl, rfl, rfl, rfl, rfl, rfl, rfl, rfl, rfl⟩

/-! ### What a reset keeps and discards -/

/-- `t` is what a reset with source `src` makes of `s` (R449, R450), in the terms of the statement. -/
def State.ResetsTo (s t : State) (src : Nat) : Prop :=
  t.latch = (s.latch && src != 0) ∧ (src ≠ 0 → t.cause = s.cause) ∧ (src = 0 → t.cause = none) ∧
    t.nvm = { s.nvm with rtcValid := s.nvm.rtcValid && !(src == 0 && bit s.pwr.lost 7)
                         calCommits := satN 32 (s.nvm.calCommits + s.calOwed) } ∧
    t.rtc = s.rtc ∧ t.rd .RESET_CAUSE = src ∧ t.sess = [] ∧ t.sweep = [] ∧ t.nSafe = true ∧ t.pwr.stage = 0 ∧
    ∀ o i e, objKey o i e ≠ objKey .RESET_CAUSE 0 0 → t.rdV o i e = objDefault o i e

theorem State.resetsTo_restart (s : State) (src : Nat) : s.ResetsTo (s.restart src) src := by
  refine ⟨rfl, fun host => if_neg host, fun power => if_pos power, rfl, rfl, State.rd_wr _ _ _ _ _, rfl, rfl, rfl, rfl, ?_⟩
  intro o i e other
  exact State.rdV_wrV_other _ _ other

theorem bit_seven_setBit_six {n : Nat} (clear : bit n 6 = false) : bit (setBit n 6 true) 7 = bit n 7 := by
  have set : setBit n 6 true = n + 64 := by rw [setBit, clear]; rfl
  have even : n / 64 % 2 = 0 := by
    have := beq_eq_false_iff_ne.mp clear
    omega
  have same : (n + 64) / 128 % 2 = n / 128 % 2 := by omega
  rw [set]
  exact congrArg (· == 1) same

/-- A loss of VAON resets like a power-on reset: marking the rail leaves VBAK's mark. -/
theorem State.resetsTo_railLost {s : State} (here : bit s.pwr.lost 6 = false) : s.ResetsTo (s.railLost 6) 0 := by
  have done := (s.withLost (setBit s.pwr.lost 6 true)).resetsTo_restart 0
  rw [← State.railLost_six here] at done
  unfold State.ResetsTo State.withLost at done
  unfold State.ResetsTo
  rwa [bit_seven_setBit_six here] at done

/-- The return of a core rail to a running device resets with source 3. -/
theorem State.resetsTo_railsBack {s : State} (running : s.pwr.stage ≠ 0) (lost : bits s.pwr.lost 0 5 ≠ 0) :
    s.ResetsTo s.railsBack 3 := by
  have back : s.railsBack = (s.withLost 0).restart 3 := if_pos ⟨running, lost⟩
  rw [back]
  exact (s.withLost 0).resetsTo_restart 3

/-- Settles O9: each of the five commands is a `restart` of its source. -/
theorem resetsKeepAndDiscard : Obligations.ResetsKeepAndDiscard := by
  unfold Obligations.ResetsKeepAndDiscard
  intro s t src reset
  show s.ResetsTo t src
  obtain ⟨rfl, ran | ⟨here, ran⟩⟩ | ⟨rfl, ran⟩ | ⟨rfl, ⟨d, due, past⟩, ran⟩ | ⟨rfl, running, lost, ran⟩ := reset
  · injection ran with ran
    exact ran ▸ s.resetsTo_restart 0
  · injection ran with ran
    exact ran ▸ State.resetsTo_railLost here
  · injection ran with ran
    exact ran ▸ s.resetsTo_restart 1
  · injection ran with ran
    have ran : (if d ≤ s.now then s.restart 2 else s) = t := by rw [due] at ran; exact ran
    rw [if_pos past] at ran
    exact ran ▸ s.resetsTo_restart 2
  · injection ran with ran
    exact ran ▸ State.resetsTo_railsBack running lost

end Sys2Proof.Machine

/-! SUPPORT. Requests on the wire (R370, R373): big-endian fields read back, so a request reads back from its bytes, and a frame that
carries one has the request's effect. -/
namespace Sys2Proof.Machine
open Sys2Proof

/-! ### Fields of byte lists (R6) -/

@[simp] theorem length_beBytes (w n : Nat) : (beBytes w n).length = w := by
  induction w with
  | zero => rfl
  | succ w ih => rw [beBytes, List.length_cons, ih]

/-- Bytes of a number, read on after `acc`. -/
theorem foldl_beBytes (w n acc : Nat) :
    (beBytes w n).foldl (fun a x => a * 256 + x.toNat) acc = acc * 256 ^ w + n % 256 ^ w := by
  induction w generalizing acc with
  | zero => simp [beBytes, Nat.mod_one]
  | succ w ih =>
    have byte : (BitVec.ofNat 8 (n / 256 ^ w)).toNat = n / 256 ^ w % 256 := BitVec.toNat_ofNat _ _
    rw [beBytes, List.foldl_cons, ih, byte, Nat.mod_pow_succ, Nat.pow_succ, Nat.add_mul, Nat.mul_assoc,
      Nat.mul_comm 256 (256 ^ w), Nat.mul_comm (n / 256 ^ w % 256), Nat.add_assoc, Nat.add_comm (n % 256 ^ w)]

/-- A number reads back from its bytes, as far as they hold it. -/
theorem beNat_beBytes (w n : Nat) : beNat (beBytes w n) = n % 256 ^ w := by
  rw [beNat, foldl_beBytes, Nat.zero_mul, Nat.zero_add]

/-- The first field. -/
theorem field_beBytes_append (w n : Nat) (l : List Byte) : field (beBytes w n ++ l) 0 w = n % 256 ^ w := by
  rw [field, cut, List.drop_zero, List.take_append_of_le_length (by simp), List.take_of_length_le (by simp), beNat_beBytes]

/-- A field behind another list of bytes. -/
theorem field_append_right {a : List Byte} {off : Nat} (behind : a.length ≤ off) (l : List Byte) (len : Nat) :
    field (a ++ l) off len = field l (off - a.length) len := by
  rw [field, field, cut, cut, List.drop_append, List.drop_eq_nil_of_le behind, List.nil_append]

theorem field_cons_succ (x : Byte) (l : List Byte) (off len : Nat) : field (x :: l) (off + 1) len = field l off len := rfl

theorem field_cons_one (x : Byte) (l : List Byte) : field (x :: l) 0 1 = x.toNat := by
  simp [field, cut, beNat]

/-- The first field of bytes that hold nothing else. -/
theorem field_beBytes (w n : Nat) : field (beBytes w n) 0 w = n % 256 ^ w := by
  rw [← List.append_nil (beBytes w n), field_beBytes_append]

/-- A field behind a field. -/
theorem field_beBytes_append_right {w off : Nat} (behind : w ≤ off) (n : Nat) (l : List Byte) (len : Nat) :
    field (beBytes w n ++ l) off len = field l (off - w) len := by
  rw [field_append_right (by rwa [length_beBytes]), length_beBytes]

theorem drop_beBytes {w k : Nat} (whole : w ≤ k) (n : Nat) : (beBytes w n).drop k = [] :=
  List.drop_eq_nil_of_le (by rwa [length_beBytes])

/-- A field of bytes that are 0. -/
theorem beNat_replicate_zero (k : Nat) : beNat (List.replicate k 0#8) = 0 := by
  induction k with
  | zero => rfl
  | succ k ih => exact ih

/-! ### A request's body (Table "KOP messages") -/

section
variable {idx sub off n : Nat}

theorem opOf_read (idx_lt : idx < 65536) (sub_lt : sub < 256) :
    opOf 0x10 (beBytes 2 idx ++ beBytes 1 sub ++ [0#8]) = some (.read (.raw idx sub)) := by
  simp [opOf, field_beBytes_append, field_beBytes_append_right, idx_lt, sub_lt]

theorem opOf_write {code : Nat} (idx_lt : idx < 65536) (sub_lt : sub < 256) (code_lt : code < 256) (b : List Byte) :
    opOf 0x11 (beBytes 2 idx ++ beBytes 1 sub ++ beBytes 1 code ++ b) = some (.write (.raw idx sub) (.raw code b)) := by
  have value : (beBytes 2 idx ++ (beBytes 1 sub ++ (beBytes 1 code ++ b))).drop 4 = b := by simp [List.drop_append, drop_beBytes]
  simp [opOf, field_beBytes_append, field_beBytes_append_right, idx_lt, sub_lt, code_lt, value]
  omega

theorem opOf_blockOpen (idx_lt : idx < 65536) (sub_lt : sub < 256) (off_lt : off < 4294967296) (n_lt : n < 4294967296) (w : Bool) :
    opOf 0x20 (beBytes 2 idx ++ beBytes 1 sub ++ [if w then 1#8 else 0#8] ++ beBytes 4 off ++ beBytes 4 n) =
      some (.blockOpen idx sub w off n) := by
  cases w <;>
    simp [opOf, field_beBytes, field_beBytes_append, field_beBytes_append_right, field_cons_succ, field_cons_one, idx_lt, sub_lt, off_lt, n_lt]

theorem opOf_blockSeg (off_lt : off < 4294967296) (n_lt : n < 65536) (data : List Byte) :
    opOf 0x21 (beBytes 4 off ++ beBytes 2 n ++ [0#8, 0#8] ++ data) = some (.blockSeg off n data) := by
  have value : (beBytes 4 off ++ (beBytes 2 n ++ 0#8 :: 0#8 :: data)).drop 8 = data := by simp [List.drop_append, drop_beBytes]
  have zero : field (0#8 :: 0#8 :: data) 0 2 = 0 := beNat_replicate_zero 2
  simp [opOf, field_beBytes_append, field_beBytes_append_right, off_lt, n_lt, value, zero]
  omega

theorem opOf_blockClose {crc : Nat} (crc_lt : crc < 4294967296) :
    opOf 0x22 (beBytes 4 crc ++ [0#8, 0#8, 0#8, 0#8]) = some (.blockClose crc) := by
  have zero : field [0#8, 0#8, 0#8] 0 3 = 0 := beNat_replicate_zero 3
  simp [opOf, field_beBytes_append, field_beBytes_append_right, field_cons_succ, field_cons_one, crc_lt, zero]

theorem opOf_blockAbort : opOf 0x22 [0#8, 0#8, 0#8, 0#8, 1#8, 0#8, 0#8, 0#8] = some .blockAbort := by
  have zero : field [0#8, 0#8, 0#8] 0 3 = 0 := beNat_replicate_zero 3
  simp [opOf, field_cons_succ, field_cons_one, zero]

end

/-- Settles O10: kind by kind, each field of the body reads back. -/
theorem requestCodec : Obligations.RequestCodec := by
  unfold Obligations.RequestCodec
  intro op ok
  cases op with
  | nop => rfl
  | close => rfl
  | blockAbort => exact opOf_blockAbort
  | reserved op => exact absurd ok Bool.false_ne_true
  | read target =>
    cases target with
    | obj o i e => exact absurd ok Bool.false_ne_true
    | raw idx sub =>
      simp only [ReqOp.wireOk, fits, Bool.and_eq_true, decide_eq_true_eq] at ok
      obtain ⟨idx_lt, sub_lt⟩ := ok
      exact opOf_read idx_lt sub_lt
  | write target value =>
    cases target with
    | obj o i e => exact absurd ok Bool.false_ne_true
    | raw idx sub =>
      cases value with
      | num v => exact absurd ok Bool.false_ne_true
      | raw code b =>
        simp only [ReqOp.wireOk, fits, Bool.and_eq_true, decide_eq_true_eq] at ok
        obtain ⟨⟨⟨idx_lt, sub_lt⟩, code_lt⟩, -⟩ := ok
        exact opOf_write idx_lt sub_lt code_lt b
  | blockOpen idx sub w off n =>
    simp only [ReqOp.wireOk, fits, Bool.and_eq_true, decide_eq_true_eq] at ok
    obtain ⟨⟨⟨idx_lt, sub_lt⟩, off_lt⟩, n_lt⟩ := ok
    exact opOf_blockOpen idx_lt sub_lt off_lt n_lt w
  | blockSeg off n data =>
    simp only [ReqOp.wireOk, fits, Bool.and_eq_true, decide_eq_true_eq] at ok
    obtain ⟨⟨off_lt, n_lt⟩, -⟩ := ok
    exact opOf_blockSeg off_lt n_lt data
  | blockClose crc =>
    exact opOf_blockClose (of_decide_eq_true ok)

/-! ### A request's datagram and frame (R359, R360, R363, R370) -/

theorem ReqOp.length_bytes_lt {op : ReqOp} (ok : op.wireOk = true) : op.bytes.length < 65536 := by
  cases op with
  | nop | close | blockAbort | blockOpen | blockClose => simp [ReqOp.bytes]
  | reserved op => exact absurd ok Bool.false_ne_true
  | read target => simp [ReqOp.bytes]
  | write target value =>
    cases target with
    | obj o i e => exact absurd ok Bool.false_ne_true
    | raw idx sub =>
      cases value with
      | num v => exact absurd ok Bool.false_ne_true
      | raw code b =>
        have short : b.length ≤ 8000 := of_decide_eq_true (Bool.and_eq_true _ _ ▸ ok).2
        simp [ReqOp.bytes]
        omega
  | blockSeg off n data =>
    have short : data.length ≤ 8192 := of_decide_eq_true (Bool.and_eq_true _ _ ▸ ok).2
    simp [ReqOp.bytes]
    omega

/-- The TYPE of a request is that of no opening message, and fits its byte. -/
theorem ReqOp.type_bounds (op : ReqOp) : 2 < op.type ∧ op.type < 256 := by
  induction op with
  | reserved op ih => exact ih
  | _ => exact ⟨by simp [ReqOp.type], by simp [ReqOp.type]⟩

/-- The datagram of a request reads back as the request of its session (R370, R372). -/
theorem State.datagramIn_requestDatagram (s : State) (p ip udp eth : Nat) {n seq : Nat} {op : ReqOp} (n_lt : n < 256) (seq_lt : seq < 4294967296)
    (ok : op.wireOk = true) : s.datagramIn p ip udp eth (requestDatagram n seq op) = s.kopIn ⟨n, seq, ip, udp, p, none, eth⟩ op := by
  obtain ⟨type_gt, type_lt⟩ := op.type_bounds
  have len_lt := ReqOp.length_bytes_lt ok
  have op_eq := requestCodec op ok
  have body : (requestDatagram n seq op).drop 16 = op.bytes := by simp [requestDatagram, List.drop_append, drop_beBytes]
  have size : (requestDatagram n seq op).length = 16 + op.bytes.length := by simp [requestDatagram]; omega
  have magic : field (requestDatagram n seq op) 0 2 = 0x4B50 := rfl
  have version : field (requestDatagram n seq op) 2 1 = 1 := rfl
  have type : field (requestDatagram n seq op) 3 1 = op.type := by
    simp [requestDatagram, field_cons_succ, field_beBytes_append, type_lt]
  have session : field (requestDatagram n seq op) 4 1 = n := by
    simp [requestDatagram, field_cons_succ, field_beBytes_append, field_beBytes_append_right, n_lt]
  have flags : field (requestDatagram n seq op) 5 1 = 0 := by
    simp [requestDatagram, field_cons_succ, field_cons_one, field_beBytes_append_right]
  have length : field (requestDatagram n seq op) 6 2 = op.bytes.length := by
    simp [requestDatagram, field_cons_succ, field_beBytes_append, field_beBytes_append_right, len_lt]
  have number : field (requestDatagram n seq op) 8 4 = seq := by
    simp [requestDatagram, field_cons_succ, field_beBytes_append, field_beBytes_append_right, seq_lt]
  have noMac : bit 0 6 = false := rfl
  have request : bit 0 7 = false := rfl
  have notOpen : op.type ≠ 1 := by omega
  have notProof : op.type ≠ 2 := by omega
  have whole : ¬ 16 + op.bytes.length < 16 := by omega
  simp [State.datagramIn, type, session, flags, length, number, body, magic, version, size, whole, noMac, request, notOpen, notProof, op_eq, b2n]

/-- Counting a received frame leaves the port's address. -/
theorem State.netIp_counted (s : State) {p : Nat} (two : p < 2) : (s.inc .NET_RX_FRAMES p).rdN .NET_IP p = s.rdN .NET_IP p := by
  have apart : objKey .NET_IP p 0 ≠ objKey .NET_RX_FRAMES p 0 := by
    obtain rfl | rfl : p = 0 ∨ p = 1 := by omega
    · decide
    · decide
  exact congrArg Int.toNat (State.rd_wr_other s _ apart)

/-- A good UDP packet to port 47120 of the port's own address is a datagram (R363). -/
theorem State.ipIn_own (s : State) {p : Nat} (address : s.rdN .NET_IP p ≠ 0) (src srcMac sport : Nat) (body : List Byte) :
    s.ipIn p 4 true false true src (s.rdN .NET_IP p) srcMac body 17 sport 47120 = s.datagramIn p src sport srcMac body := by
  simp [State.ipIn, address]

/-- A good frame with such a packet to a usable port's own MAC address is counted and taken (R360). -/
theorem State.frameIn_own (s : State) {f : Frame} {src dst srcMac sport : Nat} {body : List Byte} (usable : s.portUsable f.port = true)
    (awake : s.pwr.asleep = false) (good : f.crcOk = true) (short : f.length ≤ s.frameMax f) (data : f.macControl = false)
    (tagged : s.vlanOk f = true) (own : f.dstMac = (Config.netMac f.port).toNat)
    (packet : f.payload = .ip 4 true false true src dst srcMac body 17 sport 47120) :
    s.frameIn f = (s.inc .NET_RX_FRAMES f.port).ipIn f.port 4 true false true src dst srcMac body 17 sport 47120 := by
  simp [State.frameIn, usable, awake, good, Nat.not_lt.mpr short, data, tagged, own, packet]

/-- Settles O11: the frame is counted and taken, its packet is a datagram, and the datagram reads back as the request. -/
theorem frameCarriesRequest : Obligations.FrameCarriesRequest := by
  unfold Obligations.FrameCarriesRequest
  intro s p srcIp srcMac udp vid len n seq op two usable awake address n_lt seq_lt ok short tagged
  refine congrArg Host.Outcome.next ?_
  have counted := s.netIp_counted two
  calc s.frameIn (requestFrame p (s.rdN .NET_IP p) srcIp srcMac udp vid len n seq op)
      = (s.inc .NET_RX_FRAMES p).ipIn p 4 true false true srcIp (s.rdN .NET_IP p) srcMac (requestDatagram n seq op) 17 udp 47120 :=
        s.frameIn_own usable awake rfl short rfl tagged rfl rfl
    _ = (s.inc .NET_RX_FRAMES p).datagramIn p srcIp udp srcMac (requestDatagram n seq op) := by
        rw [← counted] at address ⊢
        exact State.ipIn_own _ address _ _ _ _
    _ = (s.inc .NET_RX_FRAMES p).kopIn ⟨n, seq, srcIp, udp, p, none, srcMac⟩ op :=
        State.datagramIn_requestDatagram _ _ _ _ _ n_lt seq_lt ok

end Sys2Proof.Machine

/-! SUPPORT. A session's order (R50 to R54, R371 to R375): what an arriving request meets, how requests and writes that fail or pass
their checks end, and how sessions open and close. -/
namespace Sys2Proof.Machine
open Sys2Proof

/-! ### An arriving request (R371, R372) -/

/-- The session with the time of its last request. -/
def State.heard (s : State) (n : Nat) : State := s.modSe n fun x => { x with lastRx := s.now }

section
variable {s : State} {h : Hdr} (up : s.portUp h.port = true) (op : ReqOp)
include up

theorem State.kopIn_closed (closed : (s.se h.sess).kind = 0) : s.kopIn h op = s.inc .KOP_DROPS := by
  simp [State.kopIn, up, closed]

theorem State.kopIn_foreign (opened : (s.se h.sess).kind ≠ 0) (other : (s.se h.sess).ip ≠ h.ip ∨ (s.se h.sess).udp ≠ h.udp) :
    s.kopIn h op = (s.inc .KOP_PEER_REJECTS).inc .KOP_DROPS := by
  simp [State.kopIn, up, opened, other]

variable (ip : (s.se h.sess).ip = h.ip) (udp : (s.se h.sess).udp = h.udp)
include ip udp

theorem State.kopIn_badMac (secure : (s.se h.sess).kind = 2) (mac : h.mac ≠ some true) : s.kopIn h op = s.inc .KOP_MAC_FAILS := by
  simp [State.kopIn, up, ip, udp, secure, mac]

theorem State.kopIn_plain (plain : (s.se h.sess).kind = 1) (mac : h.mac = none) :
    s.kopIn h op = s.kopTake h.sess ⟨h.seq, h.port, op, h.eth⟩ := by
  simp [State.kopIn, up, ip, udp, plain, mac]

end

/-- Settles O14: the three kinds of foreign datagrams are the first branches of `kopIn`. -/
theorem foreignRequestsAreCounted : Obligations.ForeignRequestsAreCounted := by
  unfold Obligations.ForeignRequestsAreCounted
  exact fun s h op up => ⟨State.kopIn_closed up op, State.kopIn_foreign up op, fun secure ip udp => State.kopIn_badMac up op ip udp secure⟩

/-! ### The place in the session's order (R50, R51, R53) -/

/-- Hearing a request changes no place in the order. -/
theorem State.slot_heard (s : State) (n : Nat) (q : Req) : ((s.heard n).se n).slot q = (s.se n).slot q := by
  rw [State.heard, State.se_modSe]; rfl

section
variable {s : State} {n : Nat} {q : Req}

theorem State.kopTake_again {r : Resp} (kept : (s.se n).slot q = .again r) :
    s.kopTake n q = (s.heard n).emit n { r with req := { r.req with port := q.port, eth := q.eth } } := by
  rw [← State.slot_heard, State.heard] at kept
  unfold State.kopTake
  dsimp only
  rw [kept]; rfl

theorem State.kopTake_old (old : (s.se n).slot q = .old) :
    s.kopTake n q = (s.heard n).emit n ((s.heard n).whole n ⟨q, .SEQ_OLD, .num 0⟩) := by
  rw [← State.slot_heard, State.heard] at old
  unfold State.kopTake
  dsimp only
  rw [old]; rfl

end

theorem Session.slot_kept {x : Session} {q : Req} {r : Resp} (kept : (x.kept.find? fun r => r.req.seq = q.seq) = some r) :
    x.slot q = .again r := by
  rw [Session.slot, kept]

/-- Settles O12: a kept response is the first thing the order looks for. -/
theorem repeatGetsKeptResponse : Obligations.RepeatGetsKeptResponse := by
  unfold Obligations.RepeatGetsKeptResponse
  intro s h op r up plain ip udp mac kept
  rw [State.kopIn_plain up op ip udp plain mac, State.kopTake_again (Session.slot_kept kept), State.heard]

/-! ### BUSY and SEQ_OLD while a block read is open -/

theorem State.respPort_of_portUp {s : State} {p : Nat} (up : s.portUp p = true) : s.respPort p = some p := by
  rw [State.respPort, if_pos up]

/-- A response that finds a port leaves as itself, in a frame. -/
theorem State.tx_emit {s : State} {r : Resp} (n : Nat) {p : Nat} (port : s.respPort r.req.port = some p) :
    ∃ frame, (s.emit n r).tx = s.tx ++ [.resp p n r frame] := by
  unfold State.emit
  rw [port]
  exact ⟨_, rfl⟩

/-- Two responses that leave by one port and lead to one state are one response. -/
theorem State.emit_injective {s : State} {n p : Nat} {q r : Resp} (q_port : s.respPort q.req.port = some p)
    (r_port : s.respPort r.req.port = some p) (same : s.emit n q = s.emit n r) : q = r := by
  obtain ⟨f, q_tx⟩ := State.tx_emit n q_port
  obtain ⟨g, r_tx⟩ := State.tx_emit n r_port
  have one : [Tx.resp p n q f] = [Tx.resp p n r g] := List.append_cancel_left (q_tx.symm.trans ((congrArg State.tx same).trans r_tx))
  injection one with one
  injection one

/-- NET0 up with address 5, and session 1 of peer 7 with a block read of the sweep memory open, next to execute REQ_SEQ 1. -/
def blockReader : State :=
  State.wr
    { net0 := { link := true }
      sess := [(1, { kind := 1, ip := 7, udp := 9, next := some 1, block := some ⟨0xC000, 1, false, 0, 1, crcInit⟩ })] } .NET_IP 0 0 5

/-- Refutes O13: to a BLOCK_SEG of an open block read, SEQ_OLD carries a whole body of zero elements (R373), not the empty one. -/
theorem not_busyAndOldAnswerAtOnce : ¬ Obligations.BusyAndOldAnswerAtOnce := by
  unfold Obligations.BusyAndOldAnswerAtOnce
  intro claim
  have up : blockReader.portUp 0 = true := by decide
  have answered := (claim blockReader ⟨1, 0, 7, 9, 0, none, 0⟩ (.blockSeg 0 1 []) 1 up rfl rfl rfl rfl rfl rfl rfl rfl).1 (by decide)
  rw [State.kopIn_plain up _ rfl rfl rfl rfl, State.kopTake_old (by decide)] at answered
  have port := State.respPort_of_portUp up
  have same := State.emit_injective port port answered
  exact absurd (congrArg (fun r => r.body.blob.isEmpty) same) (by decide)

end Sys2Proof.Machine

/-! SUPPORT. Writes that fail their checks, requests that complete, and how sessions open and close (R45, R48 to R54, R374, R375). -/
namespace Sys2Proof.Machine
open Sys2Proof

/-! ### Writes that fail their checks (R45) -/

/-- A write command is the request that `writeOf` names. -/
theorem exec_of_writeOf {i : Instr} {h : Hdr} {o : Obj} {k e : Nat} {w : WireVal} (names : writeOf i = some (h, o, k, e, w)) (s : State) :
    exec i s = .next (s.kopIn h (.write (.obj o k e) w)) := by
  cases i <;> cases names <;> rfl

/-- A write whose checks give a status answers it and does nothing else. -/
theorem State.writeObj_refused {t : State} {n : Nat} {secure : Bool} {o : Obj} {k : Nat} {w : WireVal} {st : Status}
    (refused : t.writeCheck o k n secure (decodeVal o.desc.ty w) = some st) (e : Nat) (a : Ans) :
    t.writeObj n secure o k e w a = (t, some st) := by
  unfold State.writeObj
  rw [refused]

/-- Settles O15: the command is its write, and `writeObj` answers the status that the checks give. -/
theorem failedChecksOnlyAnswer : Obligations.FailedChecksOnlyAnswer := by
  unfold Obligations.FailedChecksOnlyAnswer
  intro i h o k e w st s names takes refused
  rw [exec_of_writeOf names, State.kopIn_run takes]
  refine congrArg Host.Outcome.next ?_
  have wrote := State.writeObj_refused refused e ((s.taken h (.write (.obj o k e) w)).asks h)
  simp only [State.runOp, State.doWrite, placeOf, wrote, Option.map_some]

/-! ### Requests complete (R54, R63 to R65, R373) -/

section
variable {t : State} {n : Nat} {secure : Bool} {b : Block}

theorem State.doRead_obj {target : Target} {o : Obj} {i e : Nat} (place : placeOf target = .obj o i e) (allowed : readCheck o secure = none) :
    t.doRead n secure target = (t.afterRead n o i e, some (.OK, t.readVal (n + 16 * (t.se n).inc) o i e)) := by
  unfold State.doRead
  rw [place]
  dsimp only
  rw [allowed]

theorem State.doWrite_obj {target : Target} {o : Obj} {i e : Nat} (place : placeOf target = .obj o i e) (w : WireVal) (a : Ans) :
    t.doWrite n secure target w a = t.writeObj n secure o i e w a := by
  unfold State.doWrite
  rw [place]

theorem State.blockOpen_ok {idx sub off cnt : Nat} {w : Bool} (checked : t.openCheck n secure idx sub w off cnt = none) :
    t.blockOpen n secure idx sub w off cnt =
      (t.modSe n fun x => { x with block := some ⟨idx, sub, w, off, cnt, crcInit⟩ },
        some (.OK, .bytes (beBytes 2 (elemSize idx) ++ beBytes 2 (t.segMax idx)))) := by
  unfold State.blockOpen
  rw [checked]

/-- A write segment that fits and whose elements are all taken. -/
theorem State.blockSeg_write {off cnt k : Nat} {data : List Byte} (block : (t.se n).block = some b) (writes : b.dirWrite = true)
    (inOrder : off = b.next) (left : cnt ≤ b.left) (short : cnt ≤ t.segMax b.idx) (size : data.length = cnt * elemSize b.idx)
    (wrote : (segWrite n secure b.idx b.sub cnt off data t).2 = (k, .OK)) :
    t.blockSeg n secure off cnt data false =
      ((segWrite n secure b.idx b.sub cnt off data t).1.modSe n fun x =>
          { x with block := some { b with next := k, left := b.left - cnt, crc := crcUpd b.crc data } },
        some (.OK, .bytes (beBytes 4 k))) := by
  have moved : segWrite n secure b.idx b.sub cnt off data t = ((segWrite n secure b.idx b.sub cnt off data t).1, k, .OK) := by
    rw [← wrote]
  unfold State.blockSeg
  rw [block]
  dsimp only
  rw [if_pos writes, if_neg (by omega), if_neg (by simp), if_pos writes, moved]

/-- A read segment that fits. -/
theorem State.blockSeg_read {off cnt : Nat} (block : (t.se n).block = some b) (reads : b.dirWrite = false) (inOrder : off = b.next)
    (left : cnt ≤ b.left) (short : cnt ≤ t.segMax b.idx) :
    t.blockSeg n secure off cnt [] false =
      (t.modSe n fun x => { x with block := some { b with
          next := off + cnt, left := b.left - cnt
          crc := crcUpd b.crc ((rangeFrom off cnt).flatMap fun k => t.elemBytes b.idx b.sub k) } },
        some (.OK, .bytes (beBytes 4 (off + cnt) ++ (rangeFrom off cnt).flatMap fun k => t.elemBytes b.idx b.sub k))) := by
  have notWrite : ¬ b.dirWrite = true := by rw [reads]; exact Bool.false_ne_true
  unfold State.blockSeg
  rw [block]
  dsimp only
  rw [if_neg notWrite, if_neg (by simp; omega), if_neg (by simp), if_neg notWrite]

theorem State.blockClose_open (block : (t.se n).block = some b) (crc : Nat) :
    t.blockClose n crc = (t.blockEnd n).say (if crcFin b.crc = crc then .OK else .BLOCK_CHECK) := by
  unfold State.blockClose
  rw [block]

theorem State.blockAbort_open (block : (t.se n).block = some b) : t.blockAbort n = (t.blockEnd n).say .BLOCK_ABORTED := by
  unfold State.blockAbort
  rw [block]

end

/-- Settles O17: each request runs its operation at once, and answers what that gives. -/
theorem requestsComplete : Obligations.RequestsComplete := by
  unfold Obligations.RequestsComplete
  refine fun h => ⟨?close, ?nop, fun idx sub o i e => ?read, fun idx sub w o i e v => ?write, fun idx sub w off n => ?blockOpen,
    fun off n data b k => ?segWrite, fun off n b => ?segRead, fun crc b => ?blockClose, fun b => ?blockAbort⟩
  case close => exact requestRuns_of (fun _ => rfl) fun t a _ => rfl
  case nop => exact requestRuns_of (fun _ => rfl) fun t a _ => rfl
  case read =>
    refine requestRuns_of (fun _ => rfl) fun t a met => ?_
    obtain ⟨place, allowed⟩ := met
    simp only [State.runOp, State.doRead_obj place allowed]
  case write =>
    refine requestRuns_of (fun _ => rfl) fun t a met => ?_
    obtain ⟨place, may⟩ := met
    simp only [State.runOp, State.doWrite_obj place, State.writeObj_ok may]
    rcases t.writeEffect o i e h.sess (t.secureOf h) v a with ⟨u, _ | st⟩ <;> rfl
  case blockOpen =>
    refine requestRuns_of (fun _ => rfl) fun t a checked => ?_
    simp only [State.runOp, State.blockOpen_ok checked]
  case segWrite =>
    refine requestRuns_of (fun _ => rfl) fun t a met => ?_
    obtain ⟨block, writes, inOrder, left, short, size, wrote⟩ := met
    simp only [State.runOp, State.blockSeg_write block writes inOrder left short size wrote]
  case segRead =>
    refine requestRuns_of (fun _ => rfl) fun t a met => ?_
    obtain ⟨block, reads, inOrder, left, short⟩ := met
    simp only [State.runOp, State.blockSeg_read block reads inOrder left short]
  case blockClose =>
    refine requestRuns_of (fun _ => rfl) fun t a block => ?_
    simp only [State.runOp, State.blockClose_open block, State.say]
  case blockAbort =>
    refine requestRuns_of (fun _ => rfl) fun t a block => ?_
    simp only [State.runOp, State.blockAbort_open block, State.say]

/-! ### Openings (R48, R49, R374, R375) -/

/-- Settles O18: each opening meets none of the checks ahead of its branch. -/
theorem openingsComplete : Obligations.OpeningsComplete := by
  unfold Obligations.OpeningsComplete
  refine fun h cnonce proof q => ⟨?plain, ?secure, ?proof, fun n => ?expiry⟩
  case plain =>
    rintro s ⟨up, mac, low, high, own, open_⟩
    refine congrArg Host.Outcome.next ?_
    simp [State.openIn, up, mac, own, open_, Nat.not_lt.mpr high, Nat.one_le_iff_ne_zero.mp low]
  case secure =>
    rintro s ⟨up, mac, low, high, own, key⟩
    refine congrArg Host.Outcome.next ?_
    simp [State.openIn, up, mac, own, key, Nat.not_lt.mpr high, Nat.one_le_iff_ne_zero.mp low, State.nonce, State.now]
  case proof =>
    rintro s ⟨up, mac, pending, ip, udp, soon, right⟩
    refine congrArg Host.Outcome.next ?_
    have fresh : ¬ q.since + 1000000000 ≤ s.clk.up := Nat.not_le.mpr soon
    simp [State.proofIn, up, mac, pending, ip, udp, right, fresh, State.now]
  case expiry =>
    rintro s ⟨pending, late⟩
    refine congrArg Host.Outcome.next ?_
    simp [State.pendExpire, pending, late]

/-! ### Waiting requests and ends of sessions (R50, R54) -/

theorem State.runWaiting_orphan {s : State} {n : Nat} {x : Orphan} (orphan : s.orphanOf n = some x) : s.runWaiting n = s.runOrphan x := by
  unfold State.runWaiting
  rw [orphan]

/-- Settles O19: each clause is one branch of `runWaiting`, `runOrphan`, `timeoutSession` or `closeSession`. -/
theorem sessionEventsComplete : Obligations.SessionEventsComplete := by
  unfold Obligations.SessionEventsComplete
  refine fun n q x op l => ⟨?queued, ?last, ?further, ?timeout, fun s idle => ?idle⟩
  case queued =>
    rintro s ⟨noOrphan, ready⟩
    refine congrArg Host.Outcome.next ?_
    simp only [State.runWaiting, noOrphan, State.runQueued, ready]
  case last =>
    rintro s ⟨orphan, ops⟩
    refine congrArg Host.Outcome.next ?_
    rw [State.runWaiting_orphan orphan]
    simp only [State.runOrphan, ops]
    rfl
  case further =>
    rintro s ⟨orphan, ops, more⟩
    refine congrArg Host.Outcome.next ?_
    rw [State.runWaiting_orphan orphan]
    simp only [State.runOrphan, ops]
    rw [if_neg (by simpa using more)]
  case timeout =>
    rintro s ⟨opened, late⟩
    exact congrArg Host.Outcome.next (if_pos ⟨opened, late⟩)
  case idle =>
    rw [State.closeSession, idle]; rfl

end Sys2Proof.Machine

/-! SUPPORT. The writes of one object that belong to channels and groups (R46, R47, R95 to R103, R130, R137, R194, R225): each command
is the write of its object, and the object's effect gives the state and the answer. -/
namespace Sys2Proof.Machine
open Sys2Proof

/-! ### Shapes of an effect -/

section
variable {i : Instr} {h : Hdr} {o : Obj} {k e : Nat} {w : WireVal} {v : Val} {p : State → Prop}

/-- A write whose effect answers at once. -/
theorem writeRuns_now {u : State → Ans → State} {st : State → Status} (plain : unmirrored o k = true)
    (write : ∀ s, exec i s = .next (s.kopIn h (.write (.obj o k e) w)))
    (effect : ∀ (t : State) (a : Ans), p t → t.effectOf o k e h.sess (t.secureOf h) v a = (u t a, some (st t))) :
    WriteRuns i h o k e w v p fun t a => (u t a).answer a (st t) :=
  writeRuns_plain plain write fun t a _ _ met => by rw [effect t a met]

/-- A write whose effect answers later. -/
theorem writeRuns_later {u : State → Ans → State} (plain : unmirrored o k = true)
    (write : ∀ s, exec i s = .next (s.kopIn h (.write (.obj o k e) w)))
    (effect : ∀ (t : State) (a : Ans), p t → t.effectOf o k e h.sess (t.secureOf h) v a = (u t a, none)) :
    WriteRuns i h o k e w v p u :=
  writeRuns_plain plain write fun t a _ _ met => by rw [effect t a met]

/-- The object is stored by a write at once, and goes to the pair partner where its group is mirrored. -/
def mirrored (o : Obj) : Bool := (o.desc.cls == .RW || o.desc.cls == .RWS) && !tickBound o

theorem State.writeEffect_mirrored {t u : State} {r : Option Status} {a : Ans} (stored : mirrored o = true) (may : t.mayWrite h o k w v)
    (effect : t.effectOf o k e h.sess (t.secureOf h) v a = (u, r)) (taken : r = none ∨ r = some .OK) :
    t.writeEffect o k e h.sess (t.secureOf h) v a = (u.configOut o k e v.int, r) := by
  obtain ⟨-, -, device⟩ := may
  unfold mirrored at stored
  unfold State.writeEffect
  rw [device, effect]
  obtain rfl | rfl := taken <;> simp [stored]

/-- A write that is stored and answers at once. -/
theorem writeRuns_storedNow {u : State → Ans → State} (stored : mirrored o = true)
    (write : ∀ s, exec i s = .next (s.kopIn h (.write (.obj o k e) w)))
    (effect : ∀ (t : State) (a : Ans), p t → t.effectOf o k e h.sess (t.secureOf h) v a = (u t a, some .OK)) :
    WriteRuns i h o k e w v p fun t a => ((u t a).configOut o k e v.int).answer a .OK :=
  writeRuns_of write fun t a _ may met => by rw [State.writeEffect_mirrored stored may (effect t a met) (.inr rfl)]

/-- A write that is stored and answers later. -/
theorem writeRuns_storedLater {u : State → Ans → State} (stored : mirrored o = true)
    (write : ∀ s, exec i s = .next (s.kopIn h (.write (.obj o k e) w)))
    (effect : ∀ (t : State) (a : Ans), p t → t.effectOf o k e h.sess (t.secureOf h) v a = (u t a, none)) :
    WriteRuns i h o k e w v p fun t a => (u t a).configOut o k e v.int :=
  writeRuns_of write fun t a _ may met => by rw [State.writeEffect_mirrored stored may (effect t a met) (.inl rfl)]

end

/-! ### Tick-bound values (R46, R47) -/

theorem State.declWrite_admitted {t : State} {c n : Nat} (admitted : (t.declReview c n).2 ≠ some false) (a : Ans) :
    t.declWrite c n a = ((t.declReview c n).1.pushHost (grpOf c) a (.set .DECL_I c 0 n) (t.declReview c n).2, none) := by
  unfold State.declWrite
  generalize t.declReview c n = review at admitted ⊢
  obtain ⟨u, _ | _ | _⟩ := review
  · rfl
  · exact absurd rfl admitted
  · rfl

/-- NOTCH_EN goes to an open staging bank; without one it waits for the strobe (R130, R131). -/
theorem State.bankWrite_notchEn (t : State) (c : Nat) (v : Int) (a : Ans) :
    t.bankWrite .NOTCH_EN c v a = match (t.ch c).bank with
      | some l => (t.modCh c fun x => { x with bank := some ((.NOTCH_EN, v) :: l.filter fun p => p.1 ≠ .NOTCH_EN) }, some .OK)
      | none => (t.pushHost (grpOf c) a (.set .NOTCH_EN c 0 v), none) := by
  unfold State.bankWrite
  cases (t.ch c).bank <;> rfl

/-- Settles O20: each effect is `pushHost`, behind the review, the staging bank or the fence of its object. -/
theorem tickBoundWritesComplete : Obligations.TickBoundWritesComplete := by
  unfold Obligations.TickBoundWritesComplete
  refine fun h c v => ⟨?declI, ?forceMode, ?notchEn, ?apertureN, ?rebase⟩
  case declI => exact writeRuns_later rfl (fun _ => rfl) fun t a admitted => t.declWrite_admitted admitted a
  case forceMode => exact writeRuns_later rfl (fun _ => rfl) fun t a _ => rfl
  case notchEn =>
    refine writeRuns_plain rfl (fun _ => rfl) fun t a _ _ _ => ?_
    show (match t.bankWrite .NOTCH_EN c v a with | (u, some st) => u.answer a st | (u, none) => u) = _
    rw [State.bankWrite_notchEn]
    cases (t.ch c).bank <;> rfl
  case apertureN =>
    refine writeRuns_plain rfl (fun _ => rfl) fun t a _ _ _ => ?_
    simp only [State.effectOf]
    cases t.filtFence (grpOf c) <;> rfl
  case rebase =>
    refine writeRuns_plain rfl (fun _ => rfl) fun t a _ _ _ => ?_
    simp only [State.effectOf]
    cases t.filtFence (grpOf c) <;> rfl

/-! ### Output commands (R95 to R103) -/

theorem State.outCmd_started {t : State} {c k : Nat} (starts : k = 2 ∨ k = 4) (passes : t.outPre c = none) (a : Ans) :
    t.outCmd c k a = (t.push (grpOf c) none (.out c k (.host a)), none) := by
  unfold State.outCmd
  rw [passes]
  obtain rfl | rfl := starts <;> rfl

theorem State.outCmd_arm {t : State} {c : Nat} (passes : t.outPre c = none) (a : Ans) :
    t.outCmd c 1 a = ((t.armReview c).1.push (grpOf c) none (.out c 1 (.host a)) (t.armReview c).2, none) := by
  unfold State.outCmd
  rw [passes]; rfl

/-- OFF and MUTE reach the group, unless it has no strobes and is powered down or has the channel OFF (R47, R96). -/
theorem State.outCmd_stopped {t : State} {c k : Nat} (stops : k = 0 ∨ k = 3) (a : Ans) :
    t.outCmd c k a = (if t.strobes (grpOf c) = true ∨ (t.gr (grpOf c)).powered = true ∧ (t.ch c).out ≠ .off then
      t.push (grpOf c) none (.out c k (.host a)) else t.outAt c k (.host a), none) := by
  have notStart : ¬ (k = 1 ∨ k = 2 ∨ k = 4) := by omega
  simp only [State.outCmd, if_neg notStart]
  by_cases strobes : t.strobes (grpOf c) = true
  · rw [if_pos strobes, if_pos (.inl strobes)]
  · by_cases ticks : (t.gr (grpOf c)).powered = true ∧ (t.ch c).out ≠ .off
    · rw [if_neg strobes, if_pos ticks, if_pos (.inr ticks)]
    · rw [if_neg strobes, if_neg ticks, if_neg (not_or.mpr ⟨strobes, ticks⟩)]

theorem State.boostWrite_admitted {t : State} {c : Nat} {v : Int} (admitted : t.admits (t.wr .BOOST_DECL c 0 v) = true) :
    t.boostWrite c v = (t.boostPut c v, some .OK) := by
  simp only [State.boostWrite, admitted]
  rfl

/-- Settles O22: each effect is the branch of `outCmd` that its command takes. -/
theorem outputCommandsComplete : Obligations.OutputCommandsComplete := by
  unfold Obligations.OutputCommandsComplete
  refine fun h c v => ⟨?arm, ?enable, ?resume, ?off, ?mute, ?boost⟩
  case arm => exact writeRuns_later rfl (fun _ => rfl) fun t a passes => State.outCmd_arm passes a
  case enable => exact writeRuns_later rfl (fun _ => rfl) fun t a passes => State.outCmd_started (.inl rfl) passes a
  case resume => exact writeRuns_later rfl (fun _ => rfl) fun t a passes => State.outCmd_started (.inr rfl) passes a
  case off => exact writeRuns_later rfl (fun _ => rfl) fun t a _ => State.outCmd_stopped (.inl rfl) a
  case mute => exact writeRuns_later rfl (fun _ => rfl) fun t a _ => State.outCmd_stopped (.inr rfl) a
  case boost =>
    refine writeRuns_storedNow rfl (fun _ => rfl) fun t a met => ?_
    obtain ⟨free, admitted⟩ := met
    show (if t.sliceConflict .BOOST_DECL c v then (t, some .STATE_CONFLICT) else t.boostWrite c v) = _
    rw [free, State.boostWrite_admitted admitted]; rfl

end Sys2Proof.Machine

/-! SUPPORT. The writes of one object, continued: configuration, loops and filters, ranges, Chanters, endpoints and the ledger. -/
namespace Sys2Proof.Machine
open Sys2Proof

/-! ### Configuration (R70, R74, R75) -/

theorem State.startSwitch_idle {t : State} (idle : t.cfg.cur = none) (w : Switch) :
    t.startSwitch w = { t with cfg := { t.cfg with cur := some w } } := by
  unfold State.startSwitch
  rw [idle]

/-- The pages that a commit of an image with waveforms `ws` writes (R74). -/
def State.commitPages (t : State) (ws : List (Nat × List Int)) : List (Nat × Nat) :=
  t.imagePages ++ (ws.flatMap fun w => t.wavePlaces w.1 0 w.2.length).eraseDups

theorem State.commitWrite_sound {t : State} {half : Half} {ws : List (Nat × List Int)} (idle : t.cfg.commit = none)
    (sound : t.imageCheck = .ok (half, ws)) (alive : ∀ p ∈ t.commitPages ws, t.pageDead p = false) (n : Nat) (a : Ans) :
    t.commitWrite n a = (({ t.setIdle {} with cfg := { t.cfg with commit := some (a, half, ws) } }.nvmPut (t.commitPages ws)).modSe n
      fun x => { x with gated := true }, none) := by
  have none_dead : (t.commitPages ws).any t.pageDead = false :=
    List.any_eq_false.mpr fun p listed => by rw [alive p listed]; exact Bool.false_ne_true
  have commit : t.commitImage a =
      ({ t.setIdle {} with cfg := { t.cfg with commit := some (a, half, ws) } }.nvmPut (t.commitPages ws), none) := by
    unfold State.commitImage
    rw [idle, sound]
    show (if (t.commitPages ws).any t.pageDead = true then _ else _) = _
    rw [none_dead]; rfl
  rw [State.commitWrite, commit]; rfl

theorem State.loadBase_stopped {t : State} (clear : t.latch = false) (stopped : t.allStopped = true) :
    t.loadBase =
      let u : State := { t with cfg := { t.cfg with loaded := true } }
      (((u.takeBase u.baseTriples).putBase (u.toDefault u.baseTriples ++ u.baseTriples)).loadMap.wr .MODE 0 0 0, some .OK) := by
  unfold State.loadBase
  rw [clear, stopped]; rfl

/-- Settles O21: each command is its object's effect with the checks of its branch passed. -/
theorem configWritesComplete : Obligations.ConfigWritesComplete := by
  unfold Obligations.ConfigWritesComplete
  refine fun h m half ws => ⟨?mode, ?imageCommit, ?loadBase, ?violClear⟩
  case mode =>
    exact writeRuns_later rfl (fun _ => rfl) fun t a idle => congrArg (·, none) (State.startSwitch_idle idle _)
  case imageCommit =>
    refine writeRuns_later rfl (fun _ => rfl) fun t a met => ?_
    obtain ⟨idle, sound, alive⟩ := met
    exact State.commitWrite_sound idle sound alive h.sess a
  case loadBase =>
    refine writeRuns_now rfl (fun _ => rfl) fun t a met => ?_
    obtain ⟨clear, stopped⟩ := met
    exact State.loadBase_stopped clear stopped
  case violClear => exact writeRuns_now rfl (fun _ => rfl) fun t a _ => rfl

/-! ### Loops and filters (R131, R134, R194) -/

theorem State.lawHold_commit (t : State) (c : Nat) (a : Ans) :
    t.lawHold c false a = match (t.ch c).bank with
      | none => (t.pushHost (grpOf c) a (.commitHold c), none)
      | some l => ((((t.modCh c fun x => { x with bank := none }).wr .LAW_HOLD c 0 0).each l fun s p =>
          s.push (grpOf c) none (.set p.1 c 0 p.2)).pushHost (grpOf c) a (.commitHold c), none) := by
  unfold State.lawHold
  cases (t.ch c).bank <;> rfl

theorem State.ctlStartReq_starts {t : State} {g : Nat} (free : t.fenceStatus (srcCtl g) = none) (stopped : (t.gr g).ctl = false)
    (idle : (t.gr g).ctlStart = none) (filters : (t.gr g).filt ≠ .stopped) (on : t.rdT .FILT_RUN g = true) (a : Ans) :
    t.ctlStartReq g a = ((t.wr .CTL_RUN g 0 1).modGr g fun r => { r with ctlStart := some [a] }, none) := by
  simp [State.ctlStartReq, free, stopped, idle, filters, on]

theorem State.ctlStopReq_stops {t : State} {g : Nat} (off : ∀ c ∈ chansOf g, (t.ch c).out.charged = false) (runs : (t.gr g).ctl = true)
    (a : Ans) : t.ctlStopReq g a = ((t.wr .CTL_RUN g 0 0).pushHost g a .ctlStop, none) := by
  have none_charged : ((chansOf g).any fun c => (t.ch c).out.charged) = false :=
    List.any_eq_false.mpr fun c listed => by rw [off c listed]; exact Bool.false_ne_true
  simp only [State.ctlStopReq, none_charged, runs]
  rfl

/-- A group's update depends on what it makes of the group alone. -/
theorem State.modGr_congr {t : State} {g : Nat} {f f' : Group → Group} (same : f (t.gr g) = f' (t.gr g)) : t.modGr g f = t.modGr g f' := by
  rw [State.modGr, same]; rfl

theorem State.filtStartReq_starts {t : State} {g : Nat} (free : t.filtFence g = none) (powered : (t.gr g).powered = true)
    (stopped : (t.gr g).filt = .stopped) (idle : (t.gr g).filtStart = none) (a : Ans) :
    t.filtStartReq g a = ((t.wr .FILT_RUN g 0 1).modGr g fun r => { r with filtStart := some [a] }, none) := by
  have first : (t.gr g).filtStart.getD [] ++ [a] = [a] := by rw [idle]; rfl
  simp only [State.filtStartReq, free, powered, stopped]
  refine congrArg (·, none) (State.modGr_congr ?_)
  show { t.gr g with filtStart := some ((t.gr g).filtStart.getD [] ++ [a]) } = _
  rw [first]; rfl

theorem State.filtStopReq_stops {t : State} {g : Nat} (ctlOff : t.rdT .CTL_RUN g = false) (idle : (t.gr g).ctlStart = none)
    (runs : (t.gr g).filt ≠ .stopped) (a : Ans) :
    t.filtStopReq g a = ((t.wr .FILT_RUN g 0 0).pushHost g a .filtStop, none) := by
  simp [State.filtStopReq, ctlOff, idle, runs]

/-- Settles O23: each effect is its branch of `lawHold` or of the request's engine, and is stored and mirrored. -/
theorem loopWritesComplete : Obligations.LoopWritesComplete := by
  unfold Obligations.LoopWritesComplete
  refine fun h c g => ⟨?hold, ?commit, ?ctlStart, ?ctlStop, ?filtStart, ?filtStop⟩
  case hold => exact writeRuns_storedLater rfl (fun _ => rfl) fun t a _ => rfl
  case commit =>
    refine writeRuns_of (fun _ => rfl) fun t a _ may _ => ?_
    have effect : t.effectOf .LAW_HOLD c 0 h.sess (t.secureOf h) (.num 0) a = t.lawHold c false a := rfl
    rw [State.lawHold_commit] at effect
    cases bank : (t.ch c).bank <;> rw [bank] at effect <;> rw [State.writeEffect_mirrored rfl may effect (.inl rfl)] <;> rfl
  case ctlStart =>
    refine writeRuns_storedLater rfl (fun _ => rfl) fun t a met => ?_
    obtain ⟨free, stopped, idle, filters, on⟩ := met
    exact State.ctlStartReq_starts free stopped idle filters on a
  case ctlStop =>
    refine writeRuns_storedLater rfl (fun _ => rfl) fun t a met => ?_
    obtain ⟨off, runs⟩ := met
    exact State.ctlStopReq_stops off runs a
  case filtStart =>
    refine writeRuns_storedLater rfl (fun _ => rfl) fun t a met => ?_
    obtain ⟨free, powered, stopped, idle⟩ := met
    exact State.filtStartReq_starts free powered stopped idle a
  case filtStop =>
    refine writeRuns_storedLater rfl (fun _ => rfl) fun t a met => ?_
    obtain ⟨ctlOff, idle, runs⟩ := met
    exact State.filtStopReq_stops ctlOff idle runs a

/-! ### Ranges (R137, R139) -/

theorem State.rangeHeld_eq (t : State) (c : Nat) (r : RangeReq) :
    t.rangeHeld c r = match t.rangeCheck c r with
      | some (st, k) => t.rangeRefuse c r st k
      | none => t.rangeRefuse c r .STATE_CONFLICT 4 := by
  unfold State.rangeHeld
  rcases t.rangeCheck c r with _ | ⟨st, k⟩ <;> rfl

theorem State.rangeReq_eq (t : State) (c : Nat) (vr ir : Option Nat) (a : Ans) :
    t.rangeReq c vr ir a = (if t.strobes (grpOf c) then t.push (grpOf c) none (.range c { vr := vr, ir := ir, src := .host a })
      else match t.rangeCheck c { vr := vr, ir := ir, src := .host a } with
        | some (st, k) => t.rangeRefuse c { vr := vr, ir := ir, src := .host a } st k
        | none => t.rangeRefuse c { vr := vr, ir := ir, src := .host a } .STATE_CONFLICT 4, none) := by
  rw [← State.rangeHeld_eq]
  unfold State.rangeReq
  dsimp only
  split <;> rfl

/-- What STATE cells carry goes into no CONFIG cell (R410). -/
theorem State.configOut_inState {t : State} {o : Obj} (carried : inState o = true) (k e : Nat) (v : Int) : t.configOut o k e v = t := by
  unfold State.configOut
  cases groupOfObj o k with
  | none => rfl
  | some g => exact if_pos carried

/-- A write of one range, which STATE cells carry to the partner. -/
theorem writeRuns_range {i : Instr} {h : Hdr} {o : Obj} {c : ChanNo} {v : Int} {vr ir : Option Nat} (stored : mirrored o = true)
    (carried : inState o = true) (write : ∀ s, exec i s = .next (s.kopIn h (.write (.obj o c 0) (.num v))))
    (effect : ∀ (t : State) (a : Ans), t.effectOf o c 0 h.sess (t.secureOf h) (.num v) a = t.rangeReq c vr ir a) :
    WriteRuns i h o c 0 (.num v) (.num v) (fun _ => True) fun t a => (t.rangeReq c vr ir a).1 := by
  refine writeRuns_of write fun t a _ may _ => ?_
  have later : t.rangeReq c vr ir a = ((t.rangeReq c vr ir a).1, none) := by rw [State.rangeReq_eq]
  rw [State.writeEffect_mirrored stored may ((effect t a).trans later) (.inl rfl), State.configOut_inState carried]

/-- Settles O24: the three objects ask for the ranges that they name. -/
theorem rangeWritesComplete : Obligations.RangeWritesComplete := by
  unfold Obligations.RangeWritesComplete
  refine fun h c v => ⟨?vRange, ?iRange, ?rangeSet⟩
  case vRange =>
    have range := writeRuns_range (i := .vRange h c v) (o := .V_RANGE) rfl rfl (fun _ => rfl) fun t a => rfl
    simp only [State.rangeReq_eq] at range
    exact range
  case iRange =>
    have range := writeRuns_range (i := .iRange h c v) (o := .I_RANGE) rfl rfl (fun _ => rfl) fun t a => rfl
    simp only [State.rangeReq_eq] at range
    exact range
  case rangeSet => exact writeRuns_later rfl (fun _ => rfl) fun t a _ => t.rangeReq_eq c _ _ a

/-! ### Chanters (R47, R225) -/

theorem State.chtWrite_stored {t : State} {k : Nat} (notStart : k ≠ 1) (c : Nat) (a : Ans) :
    t.chtWrite c k a = if t.strobes (grpOf c) then (t.push (grpOf c) none (.cht c k (.host a)), none)
      else (t.push (grpOf c) none (.cht c k (.host none)), some .OK) := by
  rw [State.chtWrite, if_neg notStart]

/-- A Chanter command other than START (R47). -/
theorem writeRuns_cht {i : Instr} {h : Hdr} {c : ChanNo} {v : Int} (notStart : v.toNat ≠ 1)
    (write : ∀ s, exec i s = .next (s.kopIn h (.write (.obj .CHT_CMD c 0) (.num v)))) :
    WriteRuns i h .CHT_CMD c 0 (.num v) (.num v) (fun _ => True)
      (fun t a => if t.strobes (grpOf c) then t.push (grpOf c) none (.cht c v.toNat (.host a))
        else (t.push (grpOf c) none (.cht c v.toNat (.host none))).answer a .OK) := by
  refine writeRuns_plain rfl write fun t a _ _ _ => ?_
  show (match t.chtWrite c v.toNat a with | (u, some st) => u.answer a st | (u, none) => u) = _
  rw [State.chtWrite_stored notStart]
  by_cases strobes : t.strobes (grpOf c) = true
  · rw [if_pos strobes, if_pos strobes]
  · rw [if_neg strobes, if_neg strobes]

/-- Settles O25: `chtWrite` by its command and the group's strobes, and `waveResize` where the pages can be written. -/
theorem chanterWritesComplete : Obligations.ChanterWritesComplete := by
  unfold Obligations.ChanterWritesComplete
  refine fun h c n v => ⟨?stop, ?start, ?startHeld, ?pause, ?resume, ?advance, ?waveLen⟩
  case stop => exact writeRuns_cht (by decide) fun _ => rfl
  case start => exact writeRuns_later rfl (fun _ => rfl) fun t a strobes => if_pos strobes
  case startHeld =>
    refine writeRuns_now rfl (fun _ => rfl) fun t a held => ?_
    have notStrobes : ¬ t.strobes (grpOf c) = true := by rw [held]; exact Bool.false_ne_true
    show t.chtWrite c 1 a = _
    rw [State.chtWrite, if_neg notStrobes, if_pos rfl, State.startHeld]
  case pause => exact writeRuns_cht (by decide) fun _ => rfl
  case resume => exact writeRuns_cht (by decide) fun _ => rfl
  case advance => exact writeRuns_cht (by decide) fun _ => rfl
  case waveLen =>
    refine writeRuns_now rfl (fun _ => rfl) fun t a alive => ?_
    show (if (t.wavePlaces n 0 v.toNat).any t.pageDead = true then _ else _) = _
    rw [alive]; rfl

/-! ### Endpoints and the ledger (R240, R244, R253, R254) -/

/-- The operation and the endpoint of a LEDGER_CMD word read back. -/
theorem bits_ledgerWord {op ep : Nat} (op_lt : op < 16) (ep_lt : ep < 1048576) :
    bits (ledgerWord op ep).toNat 28 4 = op ∧ bits (ledgerWord op ep).toNat 0 20 = ep := by
  simp only [ledgerWord, bits, Int.toNat_natCast]
  omega

/-- A ledger operation on an endpoint that nobody holds. -/
theorem writeRuns_ledger {i : Instr} {h : Hdr} {op : Nat} {ep : Fin 1048576} (op_lt : op < 16)
    (write : ∀ s, exec i s = .next (s.kopIn h (.write (.obj .LEDGER_CMD 0 0) (.num (ledgerWord op ep))))) :
    WriteRuns i h .LEDGER_CMD 0 0 (.num (ledgerWord op ep)) (.num (ledgerWord op ep))
      (fun t => t.resvBy ep = none ∧ t.mtx.partner.get (fun _ => 0) ep = 0)
      (fun t a => (t.setLedger ep (if op = 1 then
          ledMake (ledRelay (t.ledgerEl ep)) (ledBias (t.ledgerEl ep)) true (bit (t.ledgerEl ep) 2) true (bit (t.ledgerEl ep) 0)
        else if op = 2 then ledMake 0 (ledBias (t.ledgerEl ep)) false false true (bit (t.ledgerEl ep) 0)
        else ledMake (ledRelay (t.ledgerEl ep)) 0 (bit (t.ledgerEl ep) 3) (bit (t.ledgerEl ep) 2) (bit (t.ledgerEl ep) 1)
          (bit (t.ledgerEl ep) 0))).answer a .OK) := by
  refine writeRuns_now rfl write fun t a met => ?_
  obtain ⟨free, apart⟩ := met
  obtain ⟨op_eq, ep_eq⟩ := bits_ledgerWord op_lt ep.isLt
  simp only [State.effectOf, Val.int, op_eq, ep_eq]
  simp [State.ledgerCmd, free, apart]

theorem State.mtxRestartReq_free {t : State} (mtx : t.fenceStatus srcMtx = none) (sp0 : t.fenceStatus (srcSp 0) = none) (l : Nat) (a : Ans) :
    t.mtxRestartReq l a =
      (t.addTxn { newTxn none l t.now [(0, opBreakAll, 0), (0, opNop, 0)] with restart := true, ans := a }, none) := by
  unfold State.mtxRestartReq
  rw [mtx, sp0]; rfl

/-- Settles O26: endpoints through `pushHost`, the ledger by operation, and the commit where none is in progress. -/
theorem matrixWritesComplete : Obligations.MatrixWritesComplete := by
  unfold Obligations.MatrixWritesComplete
  refine fun h c l ep v => ⟨?connect, ?release, ?restart, ?retire, ?restore, ?clearBias, ?commit⟩
  case connect =>
    refine writeRuns_later rfl (fun _ => rfl) fun t a claim => ?_
    have notRelease : ¬ v.toNat = 0xFFFF := by omega
    show t.epWrite c v.toNat a = _
    rw [State.epWrite, if_neg notRelease]; rfl
  case release => exact writeRuns_later rfl (fun _ => rfl) fun t a _ => rfl
  case restart =>
    refine writeRuns_later rfl (fun _ => rfl) fun t a met => ?_
    obtain ⟨mtx, sp0⟩ := met
    exact State.mtxRestartReq_free mtx sp0 l a
  case retire => exact writeRuns_ledger (by decide) fun _ => rfl
  case restore => exact writeRuns_ledger (by decide) fun _ => rfl
  case clearBias => exact writeRuns_ledger (by decide) fun _ => rfl
  case commit =>
    refine writeRuns_later rfl (fun _ => rfl) fun t a met => ?_
    obtain ⟨idle, due⟩ := met
    exact if_pos ⟨Option.isNone_iff_eq_none.mpr idle, due⟩

end Sys2Proof.Machine

/-! SUPPORT. The requests of monitors, Reeds, the router, calibration, the collector, networks, serial ports, the pair and power: each
command is the write or read of its object, and the object's effect gives the state and the answer. -/
namespace Sys2Proof.Machine
open Sys2Proof

/-! ### Monitors (R263, R267, R268, R270, R272) -/

theorem State.monUrgentReq_idle {t : State} {g : Nat} (down : (t.gr g).mon.phase = .down) (free : (t.gr g).mon.waits = false)
    (unfenced : t.fenceStatus (srcMon g) = none) (alive : t.monAlive g = true) (e : Nat) (a : Ans) :
    t.monUrgentReq g e a = (t.modMon g fun m =>
      { monTake (t.rdN .MON_ENTRY g e) e m with run := [(e, t.rdN .MON_ENTRY g e)], phase := .startup, urgent := some a }, none) := by
  simp [State.monUrgentReq, down, free, unfenced, alive]

/-- An object of no staging bank, range or mode, with no write on its way, reads as it shows. -/
theorem State.readVal_view {t : State} {m : Nat} {o : Obj} {k e : Nat} (plain : isBank o = false) (noRange : ¬ (o = .V_RANGE ∨ o = .I_RANGE))
    (noMode : o ≠ .MODE) (none_waits : t.pendBy (Change.ofSession m) o k e = none) : t.readVal m o k e = t.view o k e := by
  simp [State.readVal, plain, none_waits, noRange, noMode]

/-- A read of such an object answers what it shows. -/
theorem requestRuns_view {i : Instr} {h : Hdr} {o : Obj} {k e : Nat} (plain : isBank o = false) (noRange : ¬ (o = .V_RANGE ∨ o = .I_RANGE))
    (noMode : o ≠ .MODE) (allowed : ∀ secure, readCheck o secure = none)
    (read : ∀ s, exec i s = .next (s.kopIn h (.read (.obj o k e)))) :
    RequestRuns i h (.read (.obj o k e)) (fun t => t.pendBy (Change.ofSession (h.sess + 16 * (t.se h.sess).inc)) o k e = none)
      fun t a => (t.afterRead h.sess o k e).answer a .OK (t.view o k e) := by
  refine requestRuns_of read fun t a waits => ?_
  simp only [State.runOp, State.doRead_obj (target := .obj o k e) rfl (allowed _), State.readVal_view plain noRange noMode waits]

/-- Settles O27: the requests of a monitor, and its accumulators as `view` shows them and `afterRead` empties them. -/
theorem monitorRequestsComplete : Obligations.MonitorRequestsComplete := by
  unfold Obligations.MonitorRequestsComplete
  refine fun h g e v => ⟨?urgent, ?entry, ?restart, ?pulse, ?accA, ?accB, ?snap⟩
  case urgent =>
    refine writeRuns_later rfl (fun _ => rfl) fun t a met => ?_
    obtain ⟨down, free, unfenced, alive⟩ := met
    exact State.monUrgentReq_idle down free unfenced alive v.toNat a
  case entry => exact writeRuns_now rfl (fun _ => rfl) fun t a _ => rfl
  case restart => exact writeRuns_later rfl (fun _ => rfl) fun t a _ => rfl
  case pulse => exact writeRuns_now rfl (fun _ => rfl) fun t a _ => rfl
  case accA => exact requestRuns_view rfl (by decide) (by decide) (by decide) fun _ => rfl
  case accB => exact requestRuns_view rfl (by decide) (by decide) (by decide) fun _ => rfl
  case snap => exact requestRuns_view rfl (by decide) (by decide) (by decide) fun _ => rfl

/-! ### Reeds and events (R286, R291, R296, R305) -/

/-- Settles O28: the four effects as they stand; EV_FIRE asserts an enabled channel. -/
theorem reedAndEventWritesComplete : Obligations.ReedAndEventWritesComplete := by
  unfold Obligations.ReedAndEventWritesComplete
  refine fun h c g n => ⟨?clear, ?test, ?fire, ?logClear⟩
  case clear => exact writeRuns_now rfl (fun _ => rfl) fun t a _ => rfl
  case test => exact writeRuns_now rfl (fun _ => rfl) fun t a _ => rfl
  case fire => exact writeRuns_now rfl (fun _ => rfl) fun t a enabled => if_pos enabled
  case logClear => exact writeRuns_now rfl (fun _ => rfl) fun t a _ => rfl

/-! ### Calibration and faults (R318, R327, R335, R341, R347, R353) -/

theorem State.calStartReq_runs {t : State} {g n : Nat} {secure : Bool} (passes : t.calCheck g n secure = none)
    (noCheck : t.rd .CAL_KIND g ≠ 1 ∨ ∀ c ∈ t.calChans g, (t.ch c).idleOut = false) (a : Ans) :
    t.calStartReq g n secure a = (t.calRun g, some .OK) := by
  have atOnce : ¬ (t.rd .CAL_KIND g = 1 ∧ ((t.calChans g).any fun c => (t.ch c).idleOut) = true) := by
    rintro ⟨internal, idle⟩
    obtain ⟨c, listed, isIdle⟩ := List.any_eq_true.mp idle
    obtain other | none_idle := noCheck
    · exact other internal
    · rw [none_idle c listed] at isIdle
      exact Bool.false_ne_true isIdle
  unfold State.calStartReq
  rw [passes]
  exact if_neg atOnce

theorem State.calStartReq_waits {t : State} {g n : Nat} {secure : Bool} (passes : t.calCheck g n secure = none)
    (internal : t.rd .CAL_KIND g = 1) (idle : ∃ c ∈ t.calChans g, (t.ch c).idleOut = true) (a : Ans) :
    t.calStartReq g n secure a = (t.modGr g fun r => { r with cal := { starting := some (a.getD (0, 0)) } }, none) := by
  unfold State.calStartReq
  rw [passes]
  exact if_pos ⟨internal, List.any_eq_true.mpr idle⟩

/-- Settles O29: the start by its activity check, the abort by the engine's fence, and the collector's writes as they stand. -/
theorem faultAndCalWritesComplete : Obligations.FaultAndCalWritesComplete := by
  unfold Obligations.FaultAndCalWritesComplete
  refine fun h g ty v => ⟨?start, ?startChecked, ?abort, ?unfence, ?safe, ?logClear, ?fltN, ?fltW⟩
  case start =>
    refine writeRuns_now rfl (fun _ => rfl) fun t a met => ?_
    obtain ⟨passes, noCheck⟩ := met
    exact State.calStartReq_runs passes noCheck a
  case startChecked =>
    refine writeRuns_later rfl (fun _ => rfl) fun t a met => ?_
    obtain ⟨passes, internal, idle⟩ := met
    exact State.calStartReq_waits passes internal idle a
  case abort =>
    refine writeRuns_plain rfl (fun _ => rfl) fun t a _ _ _ => ?_
    show (match t.calWrite g 2 h.sess (t.secureOf h) a with | (u, some st) => u.answer a st | (u, none) => u) = _
    rw [State.calWrite, if_neg (by decide)]
    cases t.fenceStatus srcCal <;> rfl
  case unfence => exact writeRuns_later rfl (fun _ => rfl) fun t a _ => rfl
  case safe => exact writeRuns_now rfl (fun _ => rfl) fun t a _ => rfl
  case logClear => exact writeRuns_now rfl (fun _ => rfl) fun t a _ => rfl
  case fltN => exact writeRuns_now rfl (fun _ => rfl) fun t a _ => rfl
  case fltW => exact writeRuns_now rfl (fun _ => rfl) fun t a _ => rfl

/-! ### Networks, time and streams (R357, R367, R380) -/

/-- Settles O30: each write is what `putCfg` or the stream's start and stop do. -/
theorem netWritesComplete : Obligations.NetWritesComplete := by
  unfold Obligations.NetWritesComplete
  refine fun h n k v => ⟨?netMode, ?netAn, ?timeSrc, ?enable, ?disable⟩
  case netMode => exact writeRuns_now rfl (fun _ => rfl) fun t a _ => rfl
  case netAn => exact writeRuns_now rfl (fun _ => rfl) fun t a _ => rfl
  case timeSrc => exact writeRuns_now rfl (fun _ => rfl) fun t a _ => rfl
  case enable => exact writeRuns_now rfl (fun _ => rfl) fun t a _ => rfl
  case disable => exact writeRuns_later rfl (fun _ => rfl) fun t a _ => rfl

/-! ### Serial ports (R398 to R402) -/

/-- Words read back from their bytes. -/
theorem blobWords_flatMap {ws : List Nat} (words : ∀ w ∈ ws, w < 2 ^ 32) : blobWords (ws.flatMap (beBytes 4)) = ws := by
  induction ws with
  | nil => rfl
  | cons w ws ih =>
    obtain ⟨w_lt, rest⟩ := List.forall_mem_cons.mp words
    have word : beNat (beBytes 4 w) = w := by rw [beNat_beBytes]; exact Nat.mod_eq_of_lt w_lt
    show beNat (beBytes 4 w) :: blobWords (ws.flatMap (beBytes 4)) = w :: ws
    rw [word, ih rest]

theorem State.sp1Go_free {t : State} (may : t.sp1Role = none) (sel : Nat) (a : Ans) :
    t.sp1Go sel a = if t.mbox.list.isSome then { t with mbox := { t.mbox with goWait := t.mbox.goWait ++ [(sel, a)] } }
      else t.sp1Start sel false a := by
  unfold State.sp1Go
  rw [may]

/-- Settles O31: SP1_GO by the list that runs, the mailbox by the room it has, and the ports' own requests. -/
theorem serialRequestsComplete : Obligations.SerialRequestsComplete := by
  unfold Obligations.SerialRequestsComplete
  refine fun h n v ws => ⟨?go, ?goWaits, ?put, ?full, ?take, ?restart, ?clear⟩
  case go =>
    refine writeRuns_later rfl (fun _ => rfl) fun t a met => ?_
    obtain ⟨may, idle⟩ := met
    show (t.sp1Go v.toNat a, none) = _
    rw [State.sp1Go_free may, idle]; rfl
  case goWaits =>
    refine writeRuns_later rfl (fun _ => rfl) fun t a met => ?_
    obtain ⟨may, runs⟩ := met
    show (t.sp1Go v.toNat a, none) = _
    rw [State.sp1Go_free may, if_pos (Option.isSome_iff_ne_none.mpr runs)]
  case put =>
    refine writeRuns_now rfl (fun _ => rfl) fun t a met => ?_
    obtain ⟨words, room⟩ := met
    simp only [State.effectOf, Val.blob, blobWords_flatMap words, State.mailboxPut, if_neg (Nat.not_lt.mpr room)]
  case full =>
    refine writeRuns_now rfl (fun _ => rfl) fun t a met => ?_
    obtain ⟨words, beyond⟩ := met
    simp only [State.effectOf, Val.blob, blobWords_flatMap words, State.mailboxPut, if_pos beyond]
  case take => exact requestRuns_view rfl (by decide) (by decide) (by decide) fun _ => rfl
  case restart => exact writeRuns_later rfl (fun _ => rfl) fun t a fenced => if_pos fenced
  case clear => exact writeRuns_now rfl (fun _ => rfl) fun t a _ => rfl

/-! ### The pair (R403, R406, R417) -/

theorem State.handoverReq_starts {t : State} {g : Nat} (active : t.role g = 2) (standsBy : (t.gr g).pair.partner = 4)
    (noSlide : ∀ c ∈ chansOf g, (t.ch c).slide.phase = .idle ∧ (t.ch c).slide.pend = none) (noCal : (t.gr g).cal.phase = 0)
    (noStart : (t.gr g).cal.starting = none) (noHand : (t.gr g).hand = 0) (noGive : (t.gr g).pair.give = none)
    (strobes : t.strobes g = true) (a : Ans) :
    t.handoverReq g a = ((t.modGr g fun r =>
      { r with pair := { r.pair with give := some (t.strobesFor g 20), acked := false, asked := t.now, ans := a } }).sendCell
        (.handover g ((t.gr g).ticks + t.strobesFor g 20 * t.tickUs g)), none) := by
  have free : ((chansOf g).any fun c => (t.ch c).slide.phase != .idle || (t.ch c).slide.pend.isSome) = false := by
    refine List.any_eq_false.mpr fun c listed => ?_
    obtain ⟨idle, none_waits⟩ := noSlide c listed
    rw [idle, none_waits]; decide
  simp [State.handoverReq, active, standsBy, free, noCal, noStart, noHand, noGive, strobes, State.tickUs]

/-- Settles O32: PAIR_EN by its present value, and the handover with all its conditions met. -/
theorem pairWritesComplete : Obligations.PairWritesComplete := by
  unfold Obligations.PairWritesComplete
  refine fun h g => ⟨?enable, ?dissolve, ?handover⟩
  case enable =>
    refine writeRuns_now rfl (fun _ => rfl) fun t a off => ?_
    show (t.pairStart, some Status.OK) = _
    rw [State.pairStart, off]; rfl
  case dissolve =>
    refine writeRuns_now rfl (fun _ => rfl) fun t a on => ?_
    show (t.pairStop, some Status.OK) = _
    rw [State.pairStop, on]; rfl
  case handover =>
    refine writeRuns_later rfl (fun _ => rfl) fun t a met => ?_
    obtain ⟨active, standsBy, noSlide, noCal, noStart, noHand, noGive, strobes⟩ := met
    exact State.handoverReq_starts active standsBy noSlide noCal noStart noHand noGive strobes a

/-! ### Power (R449, R458, R459) -/

theorem State.groupPwr_down {t : State} {g : Nat} (ctlOff : t.rdT .CTL_RUN g = false) (filtOff : t.rdT .FILT_RUN g = false)
    (ctl : (t.gr g).ctl = false) (filt : (t.gr g).filt = .stopped) (powered : (t.gr g).powered = true) (a : Ans) :
    t.groupPwr g false a = (t.groupOff g, some .OK) := by
  simp [State.groupPwr, ctlOff, filtOff, ctl, filt, powered]

theorem State.sleepReq_starts {t : State} (clear : t.latch = false) (noRole : ∀ k ∈ allGroups, t.rd .PAIR_ROLE k = 0)
    (runs : t.rd .PWR_STATE = 1 ∨ t.rd .PWR_STATE = 2) (a : Ans) :
    t.sleepReq a = (let u : State := { t.wr .PWR_STATE 0 0 3 with pwr := { t.pwr with entry := 1, ans := a, wake := none } }
      let u := u.each allGroups fun s k => s.calEnd k 9 .STATE_CONFLICT
      u.each (u.chan.map (·.1)) fun s c =>
        if (s.ch c).out.live && s.rdT .SLEEP_HOLD c then s.push (grpOf c) none (.mute c 1)
        else if (s.ch c).out.charged then s.push (grpOf c) none (.out c 0 (.host none))
        else s, none) := by
  have single : (allGroups.any fun g => t.rd .PAIR_ROLE g != 0) = false :=
    List.any_eq_false.mpr fun g listed => by rw [noRole g listed]; decide
  have awake : ¬ (t.rd .PWR_STATE ≠ 1 ∧ t.rd .PWR_STATE ≠ 2) := by omega
  simp only [State.sleepReq, clear, single, if_neg awake]
  rfl

/-- Settles O33: a reset is due 1 ms on, a group's power follows `groupPwr`, and `sleepReq` finds nothing against it. -/
theorem powerWritesComplete : Obligations.PowerWritesComplete := by
  unfold Obligations.PowerWritesComplete
  refine fun h g => ⟨?reset, ?down, ?up, ?sleep⟩
  case reset => exact writeRuns_now rfl (fun _ => rfl) fun t a _ => rfl
  case down =>
    refine writeRuns_storedNow rfl (fun _ => rfl) fun t a met => ?_
    obtain ⟨ctlOff, filtOff, ctl, filt, powered⟩ := met
    exact State.groupPwr_down ctlOff filtOff ctl filt powered a
  case up =>
    refine writeRuns_storedLater rfl (fun _ => rfl) fun t a off => ?_
    show t.groupPwr g true a = _
    rw [State.groupPwr, off]; rfl
  case sleep =>
    refine writeRuns_later rfl (fun _ => rfl) fun t a met => ?_
    obtain ⟨clear, noRole, runs⟩ := met
    exact State.sleepReq_starts clear noRole runs a

end Sys2Proof.Machine

/-! SUPPORT. The rules of buckets, Reeds and the safe state (R282, R335, R347). -/
namespace Sys2Proof.Machine
open Sys2Proof

/-! ### Buckets (R335) -/

/-- The bucket of a source stands at `b`, with the N and the W (in µs) of the source's type. -/
def State.BucketAt (s : State) (src n w b : Nat) : Prop :=
  n = s.rdN .FLT_N ((srcType src).getD 22) ∧ w = s.rdN .FLT_W ((srcType src).getD 22) * 1000 ∧ s.flt.bucket.get (fun _ => 0) src = b

theorem State.bucketAt_leakBy {s : State} {src n w b : Nat} (h : s.BucketAt src n w b) (d : Nat) : (s.leakBy src d).BucketAt src n w (b - d) := by
  obtain ⟨hn, hw, hb⟩ := h
  exact ⟨hn, hw, by simp [State.leakBy, hb]⟩

theorem State.countReport_beyond {s : State} {src n w b : Nat} (h : s.BucketAt src n w b) (beyond : (n - 1) * w < b + w) :
    (s.countReport src).2 = true := by
  obtain ⟨rfl, rfl, rfl⟩ := h
  simp [State.countReport, beyond]

theorem State.countReport_within {s : State} {src n w b : Nat} (h : s.BucketAt src n w b) (within : b + w ≤ (n - 1) * w) :
    (s.countReport src).2 = false ∧ (s.countReport src).1.BucketAt src n w (b + w) := by
  obtain ⟨rfl, rfl, rfl⟩ := h
  rw [State.countReport]
  dsimp only
  rw [if_neg (Nat.not_lt.mpr within)]
  exact ⟨rfl, rfl, rfl, SMap.get_put_same ..⟩

theorem State.escalates_cons (s : State) (src d : Nat) (ds : List Nat) :
    s.escalates src (d :: ds) = (((s.leakBy src d).countReport src).2 || ((s.leakBy src d).countReport src).1.escalates src ds) := rfl

/-- Reports that bring more than the bucket holds above its leak escalate. -/
theorem State.escalates_of_sum {s : State} {src n w b d : Nat} {ds : List Nat} (h : s.BucketAt src n w b)
    (full : (n - 1) * w + ds.sum < b - d + (ds.length + 1) * w) : s.escalates src (d :: ds) = true := by
  induction ds generalizing s b d with
  | nil =>
    have beyond : (n - 1) * w < b - d + w := by simpa using full
    rw [State.escalates_cons, State.countReport_beyond (State.bucketAt_leakBy h d) beyond, Bool.true_or]
  | cons e ds ih =>
    have leaked := State.bucketAt_leakBy h d
    rw [State.escalates_cons]
    rcases Nat.lt_or_ge ((n - 1) * w) (b - d + w) with beyond | within
    · rw [State.countReport_beyond leaked beyond, Bool.true_or]
    · obtain ⟨_, counted⟩ := State.countReport_within leaked within
      rw [ih counted, Bool.or_true]
      simp only [List.sum_cons, List.length_cons, Nat.add_mul, Nat.one_mul] at full ⊢
      omega

/-- Reports that each find the bucket empty do not escalate where N is at least 2. -/
theorem State.escalates_of_spaced {s : State} {src n w b d : Nat} {ds : List Nat} (h : s.BucketAt src n w b) (two : 2 ≤ n) (leaks : b ≤ d)
    (spaced : ∀ e ∈ ds, w ≤ e) : s.escalates src (d :: ds) = false := by
  have within : 0 + w ≤ (n - 1) * w := by
    rw [Nat.zero_add]
    exact Nat.le_mul_of_pos_left w (by omega)
  induction ds generalizing s b d with
  | nil =>
    obtain ⟨still, _⟩ := State.countReport_within (Nat.sub_eq_zero_of_le leaks ▸ State.bucketAt_leakBy h d) within
    rw [State.escalates_cons, still]
    rfl
  | cons e ds ih =>
    obtain ⟨still, counted⟩ := State.countReport_within (Nat.sub_eq_zero_of_le leaks ▸ State.bucketAt_leakBy h d) within
    obtain ⟨first, rest⟩ := List.forall_mem_cons.mp spaced
    rw [State.escalates_cons, still, Bool.false_or]
    exact ih counted (by omega) rest

/-- Settles O57: each count adds W to a bucket that leaks with time, and escalates above (N - 1) W. -/
theorem bucketEscalates : Obligations.BucketEscalates := by
  unfold Obligations.BucketEscalates
  intro s src n w d ds hn hw w_pos
  have now : s.BucketAt src n w (s.flt.bucket.get (fun _ => 0) src) := ⟨hn, hw, rfl⟩
  refine ⟨fun length short => ?_, fun two leaks spaced => State.escalates_of_spaced now two leaks spaced, fun one => ?_⟩
  · refine State.escalates_of_sum now ?_
    rw [← length, Nat.add_mul, Nat.one_mul, Nat.add_sub_cancel]
    omega
  · refine State.countReport_beyond now ?_
    rw [one]
    omega

/-! ### Reeds (R282) -/

/-- A Reed that samples takes the zone of its signal, and trips where that is a new zone outside the window. -/
theorem State.reedTake_samples {s : State} {c : Nat} {cur : Bool} (samples : s.reedSkips c cur = false) (x : Int) :
    s.reedTake c cur x =
      let z := zoneOf x (s.rd (if cur then .REED_I_HI else .REED_V_HI) c) (s.rd (if cur then .REED_I_LO else .REED_V_LO) c)
      let was := if (if cur then (s.ch c).freshI else (s.ch c).freshV) then 0 else if cur then (s.ch c).zoneI else (s.ch c).zoneV
      let t := s.modCh c fun h => if cur then { h with zoneI := z, freshI := false } else { h with zoneV := z, freshV := false }
      if z ≠ 0 ∧ z ≠ was then t.reedTrip c cur (z == 2) else t :=
  if_neg (by simp [samples])

/-- Settles O58: the zone of the sample is one of three. -/
theorem reedZonesAndTrips : Obligations.ReedZonesAndTrips := by
  unfold Obligations.ReedZonesAndTrips
  intro s c cur x samples hi lo was u
  have take (z : Nat) (zone : zoneOf x hi lo = z) :
      s.reedTake c cur x = if z ≠ 0 ∧ z ≠ was then (u z).reedTrip c cur (z == 2) else u z := by
    subst zone
    exact State.reedTake_samples samples x
  refine ⟨fun above => ?_, fun notAbove below => ?_, fun notAbove notBelow => ?_⟩
  · rw [take 1 (if_pos above)]
    by_cases same : was = 1
    · simp [same]
    · simp [same, Ne.symm same]
  · rw [take 2 ((if_neg (Int.not_lt.mpr notAbove)).trans (if_pos below))]
    by_cases same : was = 2
    · simp [same]
    · simp [same, Ne.symm same]
  · rw [take 0 ((if_neg (Int.not_lt.mpr notAbove)).trans (if_neg (Int.not_lt.mpr notBelow)))]
    exact if_neg fun h => h.1 rfl

/-! ### The safe state (R347, R349) -/

/-- The latch is set and nSAFE asserted. -/
def State.isSafe (s : State) : Prop := s.latch = true ∧ s.nSafe = true

theorem Kept.isSafe {s t : State} (kept : Kept s t) (safe : s.isSafe) : t.isSafe :=
  have latched := kept.latched safe.1
  ⟨latched, kept.asserts (fun _ => safe.2) latched⟩

/-- An entry ends in the safe state: nothing that follows the latch clears it. -/
theorem State.safeTrip_isSafe {s : State} (asserts : s.latchAsserts) : s.safeTrip.isSafe := by
  cases latched : s.latch with
  | true =>
    rw [State.safeTrip, if_pos latched]
    exact ⟨latched, asserts latched⟩
  | false =>
    rw [State.safeTrip, if_neg (by simp [latched])]
    refine Kept.isSafe (s := { s with latch := true, nSafe := true, safeBreak := true }) ?_ ⟨rfl, rfl⟩
    refine State.safeIsolated_kept (State.commitStart_kept (State.safeWake_kept (State.sleepStop_kept ?_)) [])
    refine kept_each ?_ fun t g kept => State.modGr_kept kept g _
    refine kept_each ?_ fun t c kept => kept_ite (State.safeAtOnce_kept kept c) (State.safeEnter_kept kept c)
    refine kept_each ?_ fun t c kept => State.chtStopIf_kept kept c 7
    refine kept_each ?_ fun t g kept => State.calEnd_kept kept g 9 .SAFE_STATE
    refine kept_each ?_ fun t g kept => State.giveEnd_kept kept g
    exact State.failCellOut_kept (Kept.refl _) _

theorem State.safeEntry_isSafe {s : State} (asserts : s.latchAsserts) (r : Report) : (s.safeEntry r).isSafe := by
  cases latched : s.latch with
  | true =>
    rw [State.safeEntry, if_pos latched]
    exact ⟨latched, asserts latched⟩
  | false =>
    rw [State.safeEntry, if_neg (by simp [latched])]
    exact State.safeTrip_isSafe (s := { s with cause := _ }) asserts

theorem State.safeReq_isSafe {s : State} (asserts : s.latchAsserts) (src addr detail : Nat) : (s.safeReq src addr detail).isSafe :=
  State.safeEntry_isSafe ((State.report_kept (Kept.refl s) src 0x07 addr detail .grave).latchAsserts asserts) _

/-- A report whose response is the safe state ends in it. -/
theorem State.reportResponse_isSafe {s : State} (asserts : s.latchAsserts) {r : Report}
    (enters : r.cls = .grave ∨ r.cls = .severe ∧ s.rdT .FLT_SEVERE_ACT ((srcType r.m.source).getD 22) = true ∧
      s.fencedSrc r.m.source = false ∧ (srcType r.m.source).getD 22 ≠ 19 ∧ (srcType r.m.source).getD 22 ≠ 22) : (s.respond_ r).isSafe := by
  rcases enters with grave | ⟨severe, act, free, ne19, ne22⟩
  · rw [State.respond_, grave]
    exact State.safeEntry_isSafe asserts r
  · rw [State.respond_, severe]
    dsimp only
    rw [if_pos ⟨act, by simp [free], ne19, ne22⟩]
    exact State.safeEntry_isSafe asserts r

theorem State.classify_of_serious {s : State} {m : FaultMsg} {c : FClass} (isClass : classOf m = c) (notCounted : c ≠ .transient) :
    s.classify m = (s, c) := by
  subst isClass
  cases h : classOf m <;> simp_all [State.classify]

theorem forall_mem_ite {α : Type} {p : α → Prop} {c : Prop} [Decidable c] {a b : Option α} (ha : ∀ x ∈ a, p x) (hb : ∀ x ∈ b, p x) :
    ∀ x ∈ (if c then a else b), p x := by
  split <;> assumption

theorem srcType_lt (n : Nat) : ∀ ty ∈ srcType n, ty < 23 := by
  unfold srcType
  repeat' refine forall_mem_ite ?_ ?_
  all_goals simp

section
variable {s : State} {ty : Nat} (isType : ty < 23)
include isType

/-- FLT_SEVERE_ACT of a type lies apart from every object that does not stand in its place. -/
theorem State.severeAct_wrV {o : Obj} {i : Nat} (apart : objKey o i 0 < 0x311000 ∨ 0x312800 ≤ objKey o i 0) (v : Val) :
    (s.wrV o i 0 v).rdT .FLT_SEVERE_ACT ty = s.rdT .FLT_SEVERE_ACT ty := by
  have key : objKey .FLT_SEVERE_ACT ty 0 = (0x3110 + 1 * ty) * 256 + 3 := rfl
  simp [State.rdT, State.rd, State.rdV_wrV_other s v (o := o) (i := i) (e := 0) (p := .FLT_SEVERE_ACT) (j := ty) (f := 0) (by omega)]

theorem State.severeAct_inc {o : Obj} {i : Nat} (apart : objKey o i 0 < 0x311000 ∨ 0x312800 ≤ objKey o i 0) :
    (s.inc o i).rdT .FLT_SEVERE_ACT ty = s.rdT .FLT_SEVERE_ACT ty :=
  State.severeAct_wrV isType apart _

theorem State.severeAct_countClass (r : Report) : (s.countClass r).rdT .FLT_SEVERE_ACT ty = s.rdT .FLT_SEVERE_ACT ty := by
  have reports (k : Nat) : 0x312800 ≤ objKey .SRC_REPORTS k 0 := by show _ ≤ (0xF000 + 1 * k) * 256 + 3; omega
  have last (k : Nat) : 0x312800 ≤ objKey .SRC_LAST k 0 := by show _ ≤ (0xF000 + 1 * k) * 256 + 4; omega
  rw [State.countClass, State.severeAct_wrV isType (.inr (last _)), State.severeAct_inc isType (.inr (reports _))]
  have counted := State.severeAct_inc (s := s) (o := .FLT_REPORTS) (i := 0) isType (.inl (by decide))
  cases r.cls
  case note => exact (State.severeAct_inc (o := .FLT_NOTES) (i := 0) isType (.inl (by decide))).trans counted
  case transient => exact (State.severeAct_inc (o := .FLT_TRANSIENTS) (i := 0) isType (.inl (by decide))).trans counted
  case severe => exact (State.severeAct_inc (o := .FLT_SEVERES) (i := 0) isType (.inl (by decide))).trans counted
  case grave => exact counted

theorem State.severeAct_intake (r : Report) : (s.intake r).rdT .FLT_SEVERE_ACT ty = s.rdT .FLT_SEVERE_ACT ty := by
  have most (t : State) (same : t.rdT .FLT_SEVERE_ACT ty = s.rdT .FLT_SEVERE_ACT ty) :
      (if t.rdN .FLT_QUEUE_MAX < t.flt.queue.length then t.wr .FLT_QUEUE_MAX 0 0 t.flt.queue.length else t).rdT .FLT_SEVERE_ACT ty
        = s.rdT .FLT_SEVERE_ACT ty := by
    split
    · exact (State.severeAct_wrV isType (.inl (by decide)) _).trans same
    · exact same
  unfold State.intake
  dsimp only
  refine most _ ?_
  split
  · split
    · split
      · exact State.severeAct_inc isType (.inl (by decide))
      · rfl
    · rfl
  · rfl

end

theorem State.fenced_countClass (s : State) (r : Report) : (s.countClass r).flt.fenced = s.flt.fenced := by
  simp only [State.countClass]
  cases r.cls <;> rfl

theorem State.fenced_intake (s : State) (r : Report) : (s.intake r).flt.fenced = s.flt.fenced := by
  have most (t : State) (same : t.flt.fenced = s.flt.fenced) :
      (if t.rdN .FLT_QUEUE_MAX < t.flt.queue.length then t.wr .FLT_QUEUE_MAX 0 0 t.flt.queue.length else t).flt.fenced = s.flt.fenced := by
    split <;> exact same
  unfold State.intake
  dsimp only
  refine most _ ?_
  split
  · split
    · split <;> rfl
    · rfl
  · rfl

theorem State.takeReport_of_serious {s : State} {m : FaultMsg} {c : FClass} (noMarker : m.kind ≠ 0x08) (isClass : classOf m = c)
    (notCounted : c ≠ .transient) :
    s.takeReport m =
      let t := s.lineHeard m.source
      let r : Report := ⟨m, c, t.stampNow⟩
      (((t.countClass r).intake r).respond_ r).edge (selector 7 0 (classEdge c)) := by
  rw [State.takeReport, if_neg noMarker, State.classify_of_serious isClass notCounted]

/-- An accepted message whose response is the safe state ends in it. -/
theorem State.takeReport_isSafe {s : State} (asserts : s.latchAsserts) {m : FaultMsg} (noMarker : m.kind ≠ 0x08)
    (enters : classOf m = .grave ∨ classOf m = .severe ∧ s.rdT .FLT_SEVERE_ACT ((srcType m.source).getD 22) = true ∧
      s.fencedSrc m.source = false ∧ (srcType m.source).getD 22 ≠ 19 ∧ (srcType m.source).getD 22 ≠ 22) : (s.takeReport m).isSafe := by
  have recorded (r : Report) : (((s.lineHeard m.source).countClass r).intake r).latchAsserts :=
    (State.intake_kept (State.countClass_kept (State.lineHeard_kept (Kept.refl s) _) r) r).latchAsserts asserts
  rcases enters with grave | ⟨severe, act, free, ne19, ne22⟩
  · rw [State.takeReport_of_serious noMarker grave nofun]
    exact (State.edge_kept (Kept.refl _) _ _).isSafe (State.reportResponse_isSafe (recorded _) (.inl rfl))
  · rw [State.takeReport_of_serious noMarker severe nofun]
    have isType : (srcType m.source).getD 22 < 23 := by
      cases typed : srcType m.source with
      | none => decide
      | some ty => exact srcType_lt _ _ typed
    have heard : (s.lineHeard m.source).rdT .FLT_SEVERE_ACT ((srcType m.source).getD 22) = true ∧
        (s.lineHeard m.source).flt.fenced = s.flt.fenced := by
      unfold State.lineHeard
      split <;> exact ⟨act, rfl⟩
    refine (State.edge_kept (Kept.refl _) _ _).isSafe (State.reportResponse_isSafe (recorded _) (.inr ⟨rfl, ?_, ?_, ne19, ne22⟩))
    · rw [State.severeAct_intake isType, State.severeAct_countClass isType]
      exact heard.1
    · rw [State.fencedSrc, State.fenced_intake, State.fenced_countClass, heard.2]
      exact free

theorem State.acceptReport_some {s : State} {m : FaultMsg} (typed : (srcType m.source).isSome = true) (known : knownKind m.kind = true)
    (room : s.mustWait m = false) : s.acceptReport (some m) = s.takeReport m := by
  have isSome : (srcType m.source).isNone = false := by simpa using typed
  simp [State.acceptReport, isSome, known, room]

/-- Settles O59: each entry runs into `safeTrip`, and nothing after it clears the latch. -/
theorem safeStateEntries : Obligations.SafeStateEntries := by
  unfold Obligations.SafeStateEntries
  intro s asserts safe
  refine ⟨?grave, ?severe, ?write, ?stop, ?vote⟩
  case grave =>
    intro m typed known room noMarker grave
    refine ⟨_, congrArg Host.Outcome.next (State.acceptReport_some typed known room), ?_⟩
    exact State.takeReport_isSafe asserts noMarker (.inl grave)
  case severe =>
    intro m ty typed known ne19 ne22 noMarker severe act free
    refine ⟨_, congrArg Host.Outcome.next (State.acceptReport_some (by simp [typed]) known (by simp [State.mustWait, severe])), ?_⟩
    exact State.takeReport_isSafe asserts noMarker (.inr ⟨severe, by simpa [typed] using act, free, by simpa [typed], by simpa [typed]⟩)
  case write =>
    intro h takes may
    obtain ⟨-, -, -, -, fltSafe, -⟩ := faultAndCalWritesComplete h 0 0 0
    have ran := fltSafe s takes may trivial
    have takenAsserts : (s.taken h (.write (.obj .FLT_SAFE 0 0) (.num 1))).latchAsserts :=
      (State.enter_kept (State.modSe_kept (Kept.refl s) h.sess _) h.sess _).latchAsserts asserts
    refine ⟨_, ran, (State.answer_kept (Kept.refl _) _ _ _).isSafe ?_⟩
    split
    case isTrue latched => exact ⟨latched, takenAsserts latched⟩
    case isFalse => exact State.safeReq_isSafe takenAsserts _ _ _
  case stop =>
    exact ⟨_, rfl, State.safeTrip_isSafe ((State.setTb_kept (Kept.refl s) tbA 4).latchAsserts asserts)⟩
  case vote => exact fun n => ⟨_, rfl, (State.faultLog_kept (Kept.refl _) _).isSafe (State.safeEntry_isSafe asserts _)⟩

end Sys2Proof.Machine

/-! SUPPORT. Timing, clocks, ramps and ranges: each event under the conditions in which it does its work. -/
namespace Sys2Proof.Machine
open Sys2Proof

/-! ### Frames, ticks and strobes (R18, R26, R27) -/

/-- Staging closes with no slot missed: what has arrived is frozen. -/
theorem State.staging_nil (s : State) (g : Nat) :
    s.staging g [] = s.modGr g fun r => { r with frozen := r.frozen ++ r.arrived, arrived := [], opened := false } := by
  simp [State.staging]

/-- Settles O35: frames and strobes run. -/
theorem tickEventsComplete : Obligations.TickEventsComplete := by
  unfold Obligations.TickEventsComplete
  refine fun g slots pace miss missed => ⟨?frame, ?tick, ?closeAll, ?close, ?strobe⟩
  case frame => exact fun s runs => congrArg Host.Outcome.next (if_pos runs)
  case tick => exact fun s runs => congrArg Host.Outcome.next (if_pos runs)
  case closeAll => exact fun s runs => congrArg Host.Outcome.next ((if_pos runs).trans (s.staging_nil g))
  case close => exact fun s runs => congrArg Host.Outcome.next (if_pos runs)
  case strobe => exact fun s runs => congrArg Host.Outcome.next (if_pos runs)

/-! ### Clocks (R20, R21, R335) -/

theorem State.clockWindow_warns {s : State} {t : Nat} {f : ClkState} (notA : t ≠ tbA) (off : f ≠ .good) (runs : s.tb t = 2)
    (first : bit s.clk.tbWarn t = false) :
    s.clockWindow t f = { s with clk := { s.clk with tbWarn := setBit s.clk.tbWarn t true } } := by
  simp [State.clockWindow, notA, off, runs, first]

theorem State.clockWindow_loses {s : State} {t : Nat} {f : ClkState} (notA : t ≠ tbA) (off : f ≠ .good) (runs : s.tb t = 2)
    (second : bit s.clk.tbWarn t = true) :
    s.clockWindow t f =
      let u := (({ s with clk := { s.clk with tbWarn := setBit s.clk.tbWarn t false } }.setTb t 4).report (srcTb t) 0x01 0 (clkDetail f)
        .severe).tbLost t
      if u.refGone = true ∧ u.clk.refAt = none then u.refLost else u := by
  simp [State.clockWindow, notA, off, runs, second]

theorem State.clockWindow_good {s : State} {t : Nat} (notA : t ≠ tbA) (lost : s.tb t = 4) :
    s.clockWindow t .good = { s with clk := { s.clk with tbWarn := setBit s.clk.tbWarn t false } }.tbBack t :=
  (if_neg notA).trans ((if_pos rfl).trans (if_pos lost))

theorem State.refTick_none {s : State} (refclk : s.clk.refAt = none) : s.refTick = s := by
  rw [State.refTick, refclk]

theorem State.tbaRuns_running {s : State} (runs : s.tb tbA ≠ 4) (refclk : s.clk.refAt = none) : s.tbaRuns = s := by
  rw [State.tbaRuns, if_neg runs, State.refTick_none refclk]

/-- The groups whose slices transit at TBA ticks (R96, R280). -/
def State.strobeless (s : State) : List Nat := allGroups.filter fun g => (s.gr g).powered && s.tb g != 2 && s.pwr.stage == 5

theorem State.strobeless_nil {s : State} (none : ∀ g ∈ allGroups, (s.gr g).powered = false ∨ s.tb g = 2 ∨ s.pwr.stage ≠ 5) :
    s.strobeless = [] := by
  refine List.filter_eq_nil_iff.mpr fun g mem => ?_
  rcases none g mem with h | h | h <;> simp [h]

theorem filter_eq_self_allGroups (g : GroupNo) : allGroups.filter (fun k => decide (k = g.val)) = [g.val] := by
  revert g
  decide

theorem State.strobeless_one {s : State} {g : GroupNo}
    (one : ∀ k ∈ allGroups, ((s.gr k).powered = true ∧ s.tb k ≠ 2 ∧ s.pwr.stage = 5) ↔ k = g.val) : s.strobeless = [g.val] := by
  refine Eq.trans (List.filter_congr fun k mem => ?_) (filter_eq_self_allGroups g)
  rw [Bool.eq_iff_iff, decide_eq_true_iff, ← one k mem]
  simp [and_assoc]

theorem execTbaTick_awake {s : State} (awake : s.tbaRuns.pwr.asleep = false) (reeds : List ReedIn) :
    execTbaTick reeds s = .next ((s.tbaRuns.leak.each s.tbaRuns.strobeless fun s g => s.tbaGroup g).reedAll
      (reeds.filter fun r => s.tbaRuns.strobeless.contains (grpOf r.ch))) :=
  congrArg Host.Outcome.next (if_neg (by simp [State.leak, awake]))

/-- With no group left to judge, no Reed is taken. -/
theorem filter_contains_nil (reeds : List ReedIn) : reeds.filter (fun r => ([] : List Nat).contains (grpOf r.ch)) = [] :=
  List.filter_eq_nil_iff.mpr fun _ _ => nofun

theorem execTbaTick_asleep {s : State} (asleep : s.tbaRuns.pwr.asleep = true) (reeds : List ReedIn) :
    execTbaTick reeds s = .next (if s.tbaRuns.pwr.sleepTicks + 1 < s.tbaRuns.rdN .REED_SLEEP_DIV then
        { s.tbaRuns.leak with pwr := { s.tbaRuns.pwr with sleepTicks := s.tbaRuns.pwr.sleepTicks + 1 } }
      else { s.tbaRuns.leak with pwr := { s.tbaRuns.pwr with sleepTicks := 0 } }.reedAll reeds) :=
  congrArg Host.Outcome.next (if_pos asleep)

/-- Settles O36: what a window, a stop, a frequency check and a tick find decides what they do. -/
theorem clockEventsComplete : Obligations.ClockEventsComplete := by
  unfold Obligations.ClockEventsComplete
  refine fun tb f edges reeds g n => ⟨?warns, ?loses, ?back, ?stop, ?stopAgain, ?slow, ?fast, ?tick, ?group, ?stopped, ?sleeps, ?samples⟩
  case warns =>
    rintro s ⟨notA, off, runs, first⟩
    exact congrArg Host.Outcome.next (State.clockWindow_warns notA off runs first)
  case loses =>
    rintro s ⟨notA, off, runs, second⟩
    exact congrArg Host.Outcome.next (State.clockWindow_loses notA off runs second)
  case back =>
    rintro s ⟨notA, lost⟩
    exact congrArg Host.Outcome.next (State.clockWindow_good notA lost)
  case stop =>
    intro s clear
    have safe : ((s.setTb tbA 4).safeTrip).isSafe := State.safeTrip_isSafe fun latched => absurd (clear.symm.trans latched) nofun
    exact ⟨_, rfl, safe.1, safe.2, rfl⟩
  case stopAgain =>
    intro s latched
    have same : (s.setTb tbA 4).safeTrip = s.setTb tbA 4 := if_pos latched
    exact congrArg (fun t : State => Host.Outcome.next { t with
      stopCause := some (logElement ⟨⟨srcTb tbA, 0x01, 0, 0, .grave⟩, .grave, s.stampNow⟩ 0 1) }) same
  case slow =>
    rintro s ⟨tbc, below⟩
    exact congrArg Host.Outcome.next ((if_neg tbc).trans (if_pos below))
  case fast =>
    rintro s ⟨tbc, above⟩
    exact congrArg Host.Outcome.next ((if_neg tbc).trans ((if_neg (by omega)).trans (if_pos above)))
  case tick =>
    rintro s ⟨runs, refclk, awake, none⟩
    have same := State.tbaRuns_running runs refclk
    rw [show exec (.tbaTick reeds) s = execTbaTick reeds s from rfl, execTbaTick_awake (by rw [same]; exact awake), same, State.strobeless_nil none,
      filter_contains_nil]
    rfl
  case group =>
    rintro s ⟨runs, refclk, awake, one⟩
    have same := State.tbaRuns_running runs refclk
    rw [show exec (.tbaTick reeds) s = execTbaTick reeds s from rfl, execTbaTick_awake (by rw [same]; exact awake), same, State.strobeless_one one]
    simp [State.each]
  case stopped =>
    rintro s ⟨stopped, cause, first, refclk, awake, none⟩
    have same : s.tbaRuns = { s.setTb tbA 2 with cause := some n, stopCause := .none }.faultLog n := by
      rw [State.tbaRuns, if_pos stopped, State.stopLogged, show (s.setTb tbA 2).stopCause = some n from cause,
        show (s.setTb tbA 2).cause = .none from first]
      exact State.refTick_none refclk
    have noGroup : s.tbaRuns.strobeless = [] := by
      refine State.strobeless_nil fun k mem => ?_
      rw [same]
      exact (none k mem).imp_right .inr
    rw [show exec (.tbaTick reeds) s = execTbaTick reeds s from rfl, execTbaTick_awake (by rw [same]; exact awake), noGroup, same,
      filter_contains_nil]
    rfl
  case sleeps =>
    rintro s ⟨runs, refclk, asleep, before⟩
    have same := State.tbaRuns_running runs refclk
    rw [show exec (.tbaTick reeds) s = execTbaTick reeds s from rfl, execTbaTick_asleep (by rw [same]; exact asleep), same, if_pos before]
  case samples =>
    rintro s ⟨runs, refclk, asleep, due⟩
    have same := State.tbaRuns_running runs refclk
    rw [show exec (.tbaTick reeds) s = execTbaTick reeds s from rfl, execTbaTick_asleep (by rw [same]; exact asleep), same,
      if_neg (Nat.not_lt.mpr due)]

/-! ### Output ramps (R99, R103, R104, R447) -/

/-- Settles O37: each ramp's condition holds. -/
theorem rampEventsComplete : Obligations.RampEventsComplete := by
  unfold Obligations.RampEventsComplete
  refine fun c d => ⟨?arm, ?off, ?safe, ?rails⟩
  case arm => exact fun s met => congrArg Host.Outcome.next (if_pos met)
  case off => exact fun s isOver => congrArg Host.Outcome.next (if_pos isOver)
  case safe =>
    rintro s ⟨isSafe, transit, ends, due⟩
    refine congrArg Host.Outcome.next ?_
    dsimp only
    rw [ends]
    exact if_pos ⟨isSafe, transit, due⟩
  case rails => exact fun s _ => rfl

/-! ### Slides and auto-range (R142, R143, R149, R156) -/

theorem State.slideDone_single {s : State} {c : Nat} {r : RangeReq} (noSecond : (s.ch c).slide.leg2 = none) (req : (s.ch c).slide.req = some r) :
    s.slideDone c = ((s.inc .SLIDE_COUNT c).modCh c fun h =>
      { h with bg := if internalI ((s.inc .SLIDE_COUNT c).rdN .I_RANGE c) then .off else h.bg
               slide := { h.slide with phase := .idle, req := none, leg2 := none } }).rangeReply r .OK := by
  simp [State.slideDone, State.slideReply, noSecond, req]

theorem State.slideDone_cancelled {s : State} {c n : Nat} {r : RangeReq} (second : (s.ch c).slide.leg2 = some n) (req : (s.ch c).slide.req = some r) :
    s.slideDone c = ((s.inc .SLIDE_COUNT c).modCh c fun h =>
      { h with bg := if internalI ((s.inc .SLIDE_COUNT c).rdN .I_RANGE c) then .off else h.bg
               slide := { h.slide with phase := .idle, req := none, leg2 := none } }).rangeCancel c r .RANGE_REFUSED 4 := by
  simp [State.slideDone, State.slideReply, second, req]

/-- Settles O38: a Slide's phase and request, and the auto-range's request, decide what follows. -/
theorem rangeEventsComplete : Obligations.RangeEventsComplete := by
  unfold Obligations.RangeEventsComplete
  refine fun c r up n => ⟨?prepared, ?single, ?cancelled, ?auto⟩
  case prepared =>
    rintro s ⟨phase, req, evaluated⟩
    refine congrArg Host.Outcome.next ?_
    dsimp only
    rw [phase, req]
    exact if_pos evaluated
  case single =>
    rintro s ⟨phase, noSecond, req⟩
    refine Eq.trans (congrArg Host.Outcome.next ?_) (congrArg Host.Outcome.next (State.slideDone_single noSecond req))
    dsimp only
    rw [phase, noSecond, req]
    rfl
  case cancelled =>
    rintro s ⟨phase, second, req, left⟩
    refine Eq.trans (congrArg Host.Outcome.next ?_) (congrArg Host.Outcome.next (State.slideDone_cancelled second req))
    dsimp only
    rw [phase, second, req]
    exact if_pos (by simp [left])
  case auto =>
    rintro s ⟨asked, next⟩
    refine congrArg Host.Outcome.next ?_
    rw [asked]
    dsimp only
    rw [next]

end Sys2Proof.Machine

/-! SUPPORT. Measurement, Chanters, matrices and monitors: each event under the conditions in which it does its work. -/
namespace Sys2Proof.Machine
open Sys2Proof

/-! ### Measurement (R163, R174, R183, R191, R194) -/

/-- Settles O39: the conditions of each event hold. -/
theorem measurementEventsComplete : Obligations.MeasurementEventsComplete := by
  unfold Obligations.MeasurementEventsComplete
  refine fun g c slot n cur what r => ⟨?overload, ?aperture, ?window, ?flush, ?filled, ?reserve, ?confirm⟩
  case overload => exact fun s inGroup => congrArg Host.Outcome.next (if_neg (Nat.not_le.mpr inGroup))
  case aperture =>
    rintro s ⟨runs, awake⟩
    exact congrArg Host.Outcome.next (if_pos ⟨runs, by simp [awake]⟩)
  case window => exact fun s _ => rfl
  case flush =>
    rintro s ⟨newest, old⟩
    refine congrArg Host.Outcome.next ?_
    rw [newest]
    exact if_pos old
  case filled => exact fun s filled => congrArg Host.Outcome.next (if_pos filled)
  case reserve =>
    rintro s ⟨near, free, written⟩
    exact congrArg Host.Outcome.next (if_pos ⟨near, by simp [free], by simp [written]⟩)
  case confirm =>
    rintro s ⟨asked, written⟩
    refine congrArg Host.Outcome.next ?_
    rw [asked]
    refine if_neg ?_
    simpa using written

/-! ### Chanters (R206 to R209, R222) -/

/-- Settles O40: a unit's phase decides what its event does. -/
theorem chanterEventsComplete : Obligations.ChanterEventsComplete := by
  unfold Obligations.ChanterEventsComplete
  refine fun c bad ue a => ⟨?fetch, ?next, ?apply, ?settle, ?ends, ?point⟩
  case fetch =>
    rintro s ⟨drives, due⟩
    refine congrArg Host.Outcome.next ((if_neg (by simp [drives])).trans ?_)
    rw [State.unitBegin]
    dsimp only
    rw [due]
  case next =>
    rintro s ⟨drives, due⟩
    refine congrArg Host.Outcome.next ((if_neg (by simp [drives])).trans ?_)
    rw [State.unitBegin]
    dsimp only
    rw [due]
  case apply =>
    rintro s ⟨due, drives⟩
    exact congrArg Host.Outcome.next (if_pos ⟨due, by simp [drives]⟩)
  case settle =>
    rintro s ⟨live, settles, settled, drives⟩
    exact congrArg Host.Outcome.next (if_pos ⟨live, settles, settled, by simp [drives]⟩)
  case ends =>
    rintro s ⟨due, drives⟩
    exact congrArg Host.Outcome.next (if_pos ⟨due, by simp [drives]⟩)
  case point =>
    rintro s ⟨next, drives⟩
    exact congrArg Host.Outcome.next (if_pos ⟨next, by simp [drives]⟩)

/-! ### Matrices (R237 to R255) -/

theorem State.answerClaim_host {s : State} {c us l : Nat} {a : Ans} {rest : List ClaimReq} {ws : List (Nat × Ans)}
    (head : s.mtx.claims = ⟨us, c, false⟩ :: rest) (want : (s.ch c).hold.want = (l, a) :: ws) :
    s.answerClaim c = (({ s with mtx := { s.mtx with claims := rest } }.inc .EP_CLAIMS c).modHold c fun h => { h with want := ws }).claimHost
      c l a := by
  rw [State.answerClaim, head]
  refine (if_neg (by simp)).trans ((if_neg nofun).trans ?_)
  have same : (({ s with mtx := { s.mtx with claims := rest } }.inc .EP_CLAIMS c).ch c).hold.want = (l, a) :: ws := want
  rw [same]

theorem State.answerClaim_unit {s : State} {c us : Nat} {rest : List ClaimReq} (head : s.mtx.claims = ⟨us, c, true⟩ :: rest)
    (begun : (s.ch c).cht.begun = true) (asked : (s.ch c).cht.nu.claim = .asked) :
    s.answerClaim c = ({ s with mtx := { s.mtx with claims := rest } }.inc .EP_CLAIMS c).claimUnit c := by
  rw [State.answerClaim, head]
  exact (if_neg (by simp)).trans ((if_pos rfl).trans (if_pos ⟨begun, asked⟩))

/-- SP0 is granted to a transaction that has waited `ns`, with the settings of its select as they stand. -/
def State.granting (s : State) (t : Txn) (ns : Nat) : State :=
  { s with mtx := { s.mtx with
      waiting := s.mtx.waiting.erase t, cur := some t, start := s.now, sent := [], again := [], await := none, collisions := 0, first := true
      waited := ns, cfg := s.rdN .SEL_CFG t.line, lead := s.rdN .SEL_LEAD t.line, lag := s.rdN .SEL_LAG t.line } }

/-- What a granted transaction does first: it fails at a fence, or loads its ledger lines and sends a word. -/
def State.beginTxn (s : State) (t : Txn) : State :=
  if (s.lineFenced t.line && !t.restart) || s.fencedSrc srcMtx || s.fencedSrc (srcSp 0) then
    let eps := s.txnEps t
    let s := { s with mtx := { s.mtx with cur := none } }
    match t.ch with
    | some c => s.failChannel c eps
    | none => if t.restart then s.answer t.ans .FENCED else s.breakAllOver
  else
    let s := s.each (t.words.filter fun w => w.2.1 = opMake) fun s w => s.loadLine w.1
    (s.modSp 0 fun x => { x with mastering := true }).transfer t s.mtx.wordNs

theorem State.mtxTake_chosen {s : State} {t : Txn} (chosen : s.chooseTxn = some t) :
    s.mtxTake = (((s.granting t 0).sp0Waited (s.now - t.since)).modSp 0 fun x => { x with busBusy := false }).beginTxn t := by
  rw [State.mtxTake, chosen]
  rfl

theorem State.sp0Waited_within {s : State} {ns : Nat} (within : (s.mtx.waited + ns) / 1000 ≤ s.rdN .SP0_WAIT_MAX) :
    s.sp0Waited ns = { s with mtx := { s.mtx with waited := s.mtx.waited + ns } } :=
  if_neg (Nat.not_lt.mpr within)

theorem State.sp0Waited_granting {s : State} {ns : Nat} (waited : ns / 1000 ≤ s.rdN .SP0_WAIT_MAX) (t : Txn) :
    (s.granting t 0).sp0Waited ns = s.granting t ns := by
  have total : (s.granting t 0).mtx.waited + ns = ns := Nat.zero_add ns
  rw [State.sp0Waited_within (by rw [total]; exact waited), total]
  rfl

/-- The transaction takes SP0 and sends its first word. -/
theorem State.mtxTake_granted {s : State} {t : Txn} (chosen : s.chooseTxn = some t) (line : s.lineFenced t.line = false ∨ t.restart = true)
    (mtx : s.fencedSrc srcMtx = false) (sp0 : s.fencedSrc (srcSp 0) = false) (waited : (s.now - t.since) / 1000 ≤ s.rdN .SP0_WAIT_MAX) :
    s.mtxTake =
      let u := ((s.granting t (s.now - t.since)).modSp 0 fun y => { y with busBusy := false }).each
        (t.words.filter fun w => w.2.1 = opMake) fun u w => u.loadLine w.1
      (u.modSp 0 fun y => { y with mastering := true }).transfer t u.mtx.wordNs := by
  rw [State.mtxTake_chosen chosen, State.sp0Waited_granting waited]
  refine if_neg ?_
  show ¬ ((s.lineFenced t.line && !t.restart) || s.fencedSrc srcMtx || s.fencedSrc (srcSp 0)) = true
  rcases line with free | restarts
  · simp [free, mtx, sp0]
  · simp [restarts, mtx, sp0]

theorem State.commitStart_cur (s : State) (a : List Ans) : (s.commitStart a).mtx.cur = s.mtx.cur := by
  unfold State.commitStart
  split <;> rfl

theorem State.mtxGrant_demand {s : State} {t : Txn} (idle : s.mtx.committing = none) (room : s.mtx.waiting.all s.ready = false)
    (busy : s.mtx.cur = some t) : s.mtxGrant = s.commitStart [] := by
  have demand : s.commitDemand = s.commitStart [] := if_neg (by simp [idle, room])
  rw [State.mtxGrant, demand]
  exact if_pos (.inl (by rw [State.commitStart_cur, busy]; rfl))

theorem State.mtxGrant_free {s : State} (demand : s.commitDemand = s) (free : s.mtx.cur = none) (on : s.sp0.on = true) :
    s.mtxGrant =
      if s.sp0.role = 1 ∧ s.chooseTxn.isSome ∧ ¬ s.fencedSrc (srcSp 0) then s.modSp 0 fun x => { x with busBusy := true } else s.mtxTake := by
  rw [State.mtxGrant, demand]
  exact if_neg (by simp [free, on])

/-- A right echo confirms its word. -/
theorem State.mtxEcho_right {s : State} {t : Txn} {w : BitVec 32} {x : StrobeIn} (cur : s.mtx.cur = some t) (await : s.mtx.await = some w)
    (second : s.mtx.first = false) (ok : x.ok = true) (notNop : wOp w ≠ opNop) :
    s.mtxEcho w x =
      let u := (((s.inc .SEL_WORDS t.line).inc .SP_WORDS 0).transfer t 0).confirm w
      match u.mtx.cur, u.mtx.await with
      | some t', some w' => if wOp w' = opNop ∧ u.mtx.again.isEmpty ∧ t'.words.isEmpty then u.txnDone t' else u
      | _, _ => u := by
  have noFirst (ok : Bool) : s.sp0First t.line ok = s := if_neg (by simp [second])
  rw [State.mtxEcho, cur, await]
  dsimp only
  rw [noFirst, ok, Bool.true_or, if_neg notNop, if_pos (show true = true ∧ w = w from ⟨rfl, rfl⟩)]
  rfl

theorem State.freeResv_free {s : State} {c p : Nat} (held : (s.ch c).hold.ep ≠ some p) (coming : (s.ch c).hold.coming ≠ some p)
    (old : ((s.ch c).hold.old.any fun x => x.1 = p) = false) (granted : (s.ch c).cht.granted p = false) : s.freeResv c p = s.setResv p none :=
  if_neg (by simp only [held, coming, old, granted]; simp)

theorem State.setResv_chan (s : State) (p : Nat) (c : Option Nat) : (s.setResv p c).chan = s.chan := by
  unfold State.setResv
  dsimp only
  split <;> split <;> rfl

theorem State.ch_setResv (s : State) (p k : Nat) (c : Option Nat) : (s.setResv p c).ch k = s.ch k := by
  rw [State.ch, State.setResv_chan, State.ch]

theorem State.makeNext_settled {s : State} {c : Nat} (coming : (s.ch c).hold.coming = none) : s.makeNext c = s.holdAnswer c := by
  unfold State.makeNext
  dsimp only
  split
  next q _ _ some_q => exact absurd (coming.symm.trans some_q) nofun
  next => rfl

theorem State.makeNext_second {s : State} {c q : Nat} (old : (s.ch c).hold.old = []) (held : (s.ch c).hold.ep = none)
    (coming : (s.ch c).hold.coming = some q) :
    s.makeNext c = (s.modHold c fun h => { h with ep := some q }).addTxn (newTxn (some c) (s.lineOf q) s.now [(q, opMake, 0), (0, opNop, 0)]) := by
  rw [State.makeNext, old, held, coming]

theorem State.modHold_congr {s : State} {c : Nat} {f f' : Hold → Hold} (same : f (s.ch c).hold = f' (s.ch c).hold) :
    s.modHold c f = s.modHold c f' := by
  simp only [State.modHold, State.modCh, same]

/-- A break has settled: its endpoint is free, and the channel's next step follows. -/
theorem State.breakDone_frees {s : State} {c : Nat} {x : Nat × Option Nat} (due : (s.ch c).hold.old.find? s.breakDue = some x)
    (held : (s.ch c).hold.ep ≠ some x.1) (coming : (s.ch c).hold.coming ≠ some x.1)
    (old : (((s.ch c).hold.old.erase x).any fun y => y.1 = x.1) = false) (granted : (s.ch c).cht.granted x.1 = false) :
    s.breakDone c = ((s.modHold c fun h => { h with old := h.old.erase x }).setResv x.1 none).makeNext c := by
  rw [State.breakDone, due]
  dsimp only
  have changed : (s.modHold c fun h => { h with old := h.old.erase x }).ch c =
      { s.ch c with hold := { (s.ch c).hold with old := (s.ch c).hold.old.erase x } } :=
    State.ch_modCh ..
  rw [State.freeResv_free] <;> rw [changed]
  · exact held
  · exact coming
  · exact old
  · exact granted

/-- Settles O41: what the head of a queue, a port, an echo and a settled relay stand at decides each event. -/
theorem matrixEventsComplete : Obligations.MatrixEventsComplete := by
  unfold Obligations.MatrixEventsComplete
  refine fun c l us p q k rest a ws t w first x => ⟨?host, ?unit, ?grant, ?demand, ?multi, ?echo, ?freed, ?second, ?made, ?periodic, ?onRequest,
    ?done, ?doneMore⟩
  case host =>
    rintro s ⟨head, want⟩
    exact congrArg Host.Outcome.next (State.answerClaim_host head want)
  case unit =>
    rintro s ⟨head, begun, asked⟩
    exact congrArg Host.Outcome.next (State.answerClaim_unit head begun asked)
  case grant =>
    rintro s ⟨demand, free, on, single, chosen, line, mtx, sp0, waited⟩
    refine congrArg Host.Outcome.next ((State.mtxGrant_free demand free on).trans ?_)
    rw [if_neg fun multi => single multi.1]
    exact State.mtxTake_granted chosen line mtx sp0 waited
  case demand =>
    rintro s ⟨idle, room, busy⟩
    exact congrArg Host.Outcome.next (State.mtxGrant_demand idle room busy)
  case multi =>
    rintro s ⟨demand, free, on, multi, chosen, sp0⟩
    exact congrArg Host.Outcome.next ((State.mtxGrant_free demand free on).trans (if_pos ⟨multi, by simp [chosen], by simp [sp0]⟩))
  case echo =>
    rintro s ⟨cur, await, second, notNop⟩
    exact congrArg Host.Outcome.next (State.mtxEcho_right cur await second rfl notNop)
  case freed =>
    rintro s ⟨due, held, coming, old, granted⟩
    refine congrArg Host.Outcome.next ((State.breakDone_frees due held (by simp [coming]) old granted).trans (State.makeNext_settled ?_))
    rw [State.ch_setResv]
    simpa [State.modHold]
  case second =>
    rintro s ⟨old, due, held, coming, apart, granted⟩
    have erased : (s.ch c).hold.old.erase x = [] := by simp [old]
    have found : (s.ch c).hold.old.find? s.breakDue = some x := by simp [old, due]
    refine congrArg Host.Outcome.next ((State.breakDone_frees found (by simp [held]) (by simpa [coming] using Ne.symm apart) (by simp [erased])
      granted).trans ?_)
    rw [State.modHold_congr (f' := fun h => { h with old := [] }) (by rw [erased])]
    refine State.makeNext_second ?_ ?_ ?_ <;> rw [State.ch_setResv]
    · simp [State.modHold]
    · simpa [State.modHold] using held
    · simpa [State.modHold] using coming
  case made =>
    rintro s ⟨held, coming, made, still, due⟩
    refine congrArg Host.Outcome.next ?_
    rw [State.makeDone]
    dsimp only
    rw [held, coming, made]
    exact if_neg (by simp [still, due])
  case periodic =>
    rintro s ⟨up, idle, none, due⟩
    exact congrArg Host.Outcome.next ((if_neg (by simp [up, idle])).trans ((if_neg (by simp [none])).trans (if_pos due)))
  case onRequest =>
    rintro s ⟨up, idle, waits, due⟩
    exact congrArg Host.Outcome.next ((if_neg (by simp [up, idle])).trans (if_pos (by simp [waits, due])))
  case done =>
    rintro s ⟨written, last⟩
    refine congrArg Host.Outcome.next ?_
    rw [State.commitDone, written]
    exact if_neg (by simp [last])
  case doneMore =>
    rintro s ⟨written, more⟩
    refine congrArg Host.Outcome.next ?_
    rw [State.commitDone, written]
    exact if_pos more

/-! ### Monitors (R257 to R268) -/

/-- Settles O42: a monitor's phase, and the spare's calibration, decide each event. -/
theorem monitorEventsComplete : Obligations.MonitorEventsComplete := by
  unfold Obligations.MonitorEventsComplete
  refine fun g b rise x y l d ds u v off ppm m => ⟨?trigger, ?startup, ?slot, ?last, ?decision, ?swap, ?fail, ?rise, ?fall⟩
  case trigger => exact fun s _ => rfl
  case startup =>
    rintro s ⟨phase, run⟩
    exact congrArg Host.Outcome.next ((if_neg (by simp [phase])).trans (if_neg (by simp [run])))
  case slot =>
    rintro s ⟨phase, run⟩
    refine congrArg Host.Outcome.next ((if_neg (by simp [phase])).trans ?_)
    rw [run]
    rfl
  case last =>
    rintro s ⟨phase, run⟩
    refine congrArg Host.Outcome.next ((if_neg (by simp [phase])).trans ?_)
    rw [run]
    rfl
  case decision =>
    intro s deciding
    refine congrArg Host.Outcome.next ?_
    rw [deciding]
  case swap =>
    rintro s ⟨rotates, spare, offset, gain⟩
    exact congrArg Host.Outcome.next ((if_neg (by simp [rotates, spare])).trans (if_neg (by omega)))
  case fail =>
    rintro s ⟨rotates, spare, offset⟩
    exact congrArg Host.Outcome.next ((if_neg (by simp [rotates, spare])).trans (if_pos (.inl offset)))
  case rise =>
    rintro s ⟨mode, due, awake⟩
    exact congrArg Host.Outcome.next (if_pos ⟨mode, due, by simp [awake]⟩)
  case fall => exact fun s met => congrArg Host.Outcome.next (if_pos met)

end Sys2Proof.Machine

/-! SUPPORT. Reeds, the router, calibration, faults and links: each event under the conditions in which it does its work. -/
namespace Sys2Proof.Machine
open Sys2Proof

/-! ### Reeds and the router (R279, R286, R292, R295) -/

theorem State.testTick_due {s : State} {g p k : Nat} (due : (s.gr g).test = some (p, k)) (more : k < 4)
    (free : s.fencedSrc (srcSlice g p) = false) (here : s.testDeferred g p = false) (v i : TestOut) :
    s.testTick g v i = ((s.testOne g p k false v).testOne g p k true i).modGr g fun r => { r with test := some (p, k + 1) } := by
  rw [State.testTick, due]
  exact (if_neg (by simp [free])).trans ((if_neg (by simp [here])).trans (if_pos more))

/-- Settles O43: the latch, the period, the test tick and the balls. -/
theorem reedAndRouterEventsComplete : Obligations.ReedAndRouterEventsComplete := by
  unfold Obligations.ReedAndRouterEventsComplete
  refine fun g reeds v i b rise p k => ⟨?sample, ?periodic, ?tick, ?edge, ?pulse⟩
  case sample =>
    rintro s ⟨strobes, awake⟩
    exact congrArg Host.Outcome.next (if_pos ⟨strobes, by simp [awake]⟩)
  case periodic =>
    rintro s ⟨period, up, due⟩
    exact congrArg Host.Outcome.next (if_neg (by simp [period, up, State.dueAgain, due]))
  case tick =>
    rintro s ⟨due, more, free, here⟩
    exact congrArg Host.Outcome.next (State.testTick_due due more free here v i)
  case edge =>
    intro s single
    have alone : ¬ (({ s with rtr := { s.rtr with evi := setBit s.rtr.evi b rise } } : State).pairOn = true ∧
        ({ s with rtr := { s.rtr with evi := setBit s.rtr.evi b rise } } : State).rdN .PAIR_WIT_EVI = b.val) :=
      fun paired => absurd (single.symm.trans paired.1) nofun
    exact congrArg (fun t : State => Host.Outcome.next (t.edge (selector 5 b (b2n !rise)))) (if_neg alone)
  case pulse => exact fun s met => congrArg Host.Outcome.next (if_pos met)

/-! ### Calibration (R314, R319, R323, R325) -/

theorem State.calPoint_joins {s : State} {g k r : Nat} {ps rs : List Nat} (phase : (s.gr g).cal.phase = 1) (todo : (s.gr g).cal.todo = k :: ps)
    (ranges : (s.gr g).cal.ranges = r :: rs) (own : k < 32) (measures : (s.ch (32 * g + k)).calMeas = true) (still : (s.gr g).hand = 0)
    (more : (s.gr g).cal.points.length + 1 < calPointCount (s.rdN .CAL_KIND g) r (s.ch (32 * g + k)).calHold) (x : Int) :
    s.calPoint g x = ((s.capBegin (32 * g + k)).closeStd (32 * g + k) (s.rdN .CAL_KIND g)).modGr g fun q =>
      { q with cal := { q.cal with points := x :: (s.gr g).cal.points } } := by
  have notSpare : k ≠ 32 := Nat.ne_of_lt own
  rw [State.calPoint, phase, todo, ranges]
  refine (if_neg ?_).trans ((if_pos ?_).trans ?_)
  · simp [notSpare, measures, still]
  · simpa [notSpare, beq_eq_false_iff_ne.mpr notSpare] using more
  · rw [if_neg notSpare]

theorem State.calWritten_fails {s : State} {g : Nat} (phase : (s.gr g).cal.phase = 2) (written : s.drn.writes.any (·.1 = 13) = false) :
    s.calWritten g false = { s with nvm := { s.nvm with calBad := setBit s.nvm.calBad (1 - s.nvm.calActive) true } }.calEnd g 11 .NVM_FAULT :=
  (if_neg (by simp only [phase, written]; simp)).trans (if_pos rfl)

theorem State.calWritten_waits {s : State} {g : Nat} (phase : (s.gr g).cal.phase = 2) (written : s.drn.writes.any (·.1 = 13) = false)
    (alive : s.bankDead 13 = false) :
    s.calWritten g true =
      let n := (s.nvm.calCommits + s.calOwed + 1) % 65536
      let fresh := (s.gr g).cal.fresh.map fun p => (p.1, { p.2 with commit := n })
      ((s.calActivate (calWith s.cal (s.calWaiting ++ fresh))).modGr g fun r =>
        { r with cal := { r.cal with phase := 3, fresh := fresh } }).push g none .calCommit :=
  (if_neg (by simp only [phase, written]; simp)).trans (if_neg (by simp [alive]))

theorem State.thermalLimit_cool (s : State) (k : Nat) (old : Int) {new : Int} (cool : new ≤ 105 * 128) : s.thermalLimit k old new = s :=
  (if_neg (by omega)).trans (if_neg (by omega))

theorem State.thermalLimit_warm (s : State) (k : Nat) {old new : Int} (warm : 105 * 128 < new) (notHot : new ≤ 120 * 128)
    (was : old ≤ 105 * 128) :
    s.thermalLimit k old new = s.report srcSup 0x39 (k / 33) (new / 128).toNat .note := by
  have detail : clampI 0 255 (new / 128) = new / 128 := by
    unfold clampI
    rw [if_neg (by omega), if_neg (by omega)]
  rw [State.thermalLimit, detail]
  exact (if_neg (by omega)).trans (if_pos ⟨warm, was⟩)

/-- Settles O44: the start check, a point, the written store and the temperatures. -/
theorem calibrationEventsComplete : Obligations.CalibrationEventsComplete := by
  unfold Obligations.CalibrationEventsComplete
  refine fun g means a x y k r ps rs temp => ⟨?quiet, ?active, ?point, ?failed, ?verified, ?cool, ?warm, ?update⟩
  case quiet =>
    rintro s ⟨starting, rfl⟩
    refine congrArg Host.Outcome.next ?_
    dsimp only
    rw [starting]
    rfl
  case active =>
    rintro s ⟨starting, idle, named, active⟩
    refine congrArg Host.Outcome.next ?_
    dsimp only
    rw [starting]
    exact if_pos (by simp only [List.any_cons, idle, named, active]; rfl)
  case point =>
    rintro s ⟨phase, todo, ranges, own, measures, still, more⟩
    exact congrArg Host.Outcome.next (State.calPoint_joins phase todo ranges own measures still more x)
  case failed =>
    rintro s ⟨phase, written⟩
    exact congrArg Host.Outcome.next (State.calWritten_fails phase written)
  case verified =>
    rintro s ⟨phase, written, alive⟩
    exact congrArg Host.Outcome.next (State.calWritten_waits phase written alive)
  case cool => exact fun s cool => congrArg Host.Outcome.next (State.thermalLimit_cool _ k _ cool)
  case warm =>
    rintro s ⟨warm, notHot, was⟩
    exact congrArg Host.Outcome.next (State.thermalLimit_warm _ k warm notHot was)
  case update => exact fun s _ => rfl

/-! ### Faults (R330 to R351) -/

theorem State.acceptReport_waits {s : State} {m : FaultMsg} (typed : (srcType m.source).isSome = true) (known : knownKind m.kind = true)
    (full : s.mustWait m = true) : s.acceptReport (some m) = { s with flt := { s.flt with inbox := s.flt.inbox ++ [m] } } := by
  have isSome : (srcType m.source).isNone = false := by simpa using typed
  exact (if_neg (by simp [isSome, known])).trans (if_pos full)

theorem State.arriveFence_slice (s : State) (us : Nat) {src : Nat} (slice : src < 528) :
    s.arriveFence us src = s.push (src / 33) none (.sliceFence (src % 33) us) := by
  have type : srcType src = some 0 := if_pos slice
  simp only [State.arriveFence, groupOf, type]

theorem State.lineChange_fault {s : State} {k : Nat}
    (unexplained : s.flt.lineMsg.get (fun _ => 0) k = 0 ∨ s.flt.lineMsg.get (fun _ => 0) k - 1 + 10000 < s.now)
    (new : s.flt.lineWait.contains k = false) (lasting : Bool) :
    s.lineChange k 2 lasting = { s with flt := { s.flt with lines := s.flt.lines.put (fun _ => 1) k 2, lineWait := s.flt.lineWait ++ [k] } } := by
  have notHeard : ¬ (s.flt.lineMsg.get (fun _ => 0) k ≠ 0 ∧ s.now ≤ s.flt.lineMsg.get (fun _ => 0) k - 1 + 10000) := by omega
  exact (if_neg notHeard).trans (if_neg (by simpa using new))

theorem State.releaseDone_plain {s : State} {l : List Nat} {a : Ans} {rel : List Release} (oldest : s.flt.release = ⟨l, a, none⟩ :: rel)
    (pass : Bool) (fa fb : Nat) :
    s.releaseDone pass fa fb =
      if pass then ({ s with flt := { s.flt with release := rel } }.each l fun s k => (s.clearFence k).afterRelease k).answer a .OK
      else { s with flt := { s.flt with release := rel } }.answer a .FENCED := by
  rw [State.releaseDone, oldest]
  cases pass <;> rfl

/-- Settles O45: the collector's queues and the class of a report decide each event. -/
theorem faultEventsComplete : Obligations.FaultEventsComplete := by
  unfold Obligations.FaultEventsComplete
  refine fun m us src n rest c x q k lasting l a rel fa fb => ⟨?takes, ?waits, ?arrives, ?blank, ?drain, ?vote, ?line, ?window, ?passes, ?fails⟩
  case takes =>
    rintro s ⟨typed, known, room⟩
    exact congrArg Host.Outcome.next (State.acceptReport_some typed known room)
  case waits =>
    rintro s ⟨typed, known, full⟩
    exact congrArg Host.Outcome.next (State.acceptReport_waits typed known full)
  case arrives =>
    rintro s ⟨oldest, slice⟩
    refine congrArg Host.Outcome.next ?_
    rw [oldest]
    exact State.arriveFence_slice _ us slice
  case blank => exact fun s met => congrArg Host.Outcome.next (if_pos met)
  case drain =>
    intro s oldest
    refine congrArg Host.Outcome.next ?_
    rw [State.drain, oldest] <;> rfl
  case vote =>
    intro s clear
    have safe := State.safeEntry_isSafe (s := s) (fun latched => absurd (clear.symm.trans latched) nofun)
    exact ⟨_, rfl, (State.faultLog_kept (Kept.refl _) _).isSafe (safe _)⟩
  case line =>
    rintro s ⟨unexplained, new⟩
    exact congrArg Host.Outcome.next (State.lineChange_fault unexplained new lasting)
  case window => exact fun s waits => congrArg Host.Outcome.next (if_pos waits)
  case passes => exact fun s oldest => congrArg Host.Outcome.next (State.releaseDone_plain oldest true fa fb)
  case fails => exact fun s oldest => congrArg Host.Outcome.next (State.releaseDone_plain oldest false fa fb)

/-! ### Links and addresses (R357 to R363) -/

theorem State.linkOn_trained {s : State} {p : Nat} (mode : s.rd .NET_MODE p ≠ 0) (down : (s.port p).link = false) (awake : s.pwr.asleep = false)
    (rail : bit s.pwr.lost 5 = false) (runs : s.tb (17 + p) ≠ 4) :
    s.linkOn p =
      let t := (s.modPort p fun x => { x with link := true }).holdFrom p
      ((if t.rd .NET_ADDR_MODE p = 1 then t.dhcpStart p else t).gratuitous p).portGained p :=
  if_neg (by simp [mode, down, awake, rail, runs])

theorem State.rd_holdFrom_modPort (s : State) (p : Nat) (f : Port → Port) (o : Obj) (i : Nat) : ((s.modPort p f).holdFrom p).rd o i = s.rd o i := by
  unfold State.holdFrom State.modPort
  dsimp only
  split <;> rfl

/-- The client takes a message of its exchange. -/
theorem State.dhcpTake_own {s : State} {p xid mac : Nat} (mode : s.rd .NET_ADDR_MODE p = 1) (usable : s.portUsable p = true)
    (own : (s.port p).xid = xid) (msg : DhcpMsg) :
    s.dhcpTake p ⟨xid, mac, msg⟩ =
      let asked := decide ((s.port p).dhcp = .requesting ∨ (s.port p).dhcp = .renewing ∨ (s.port p).dhcp = .rebinding)
      match msg with
      | .offer ip server =>
        if (s.port p).dhcp = .selecting then
          (s.modPort p fun x => { x with dhcp := .requesting, server := server, serverMac := mac, offered := ip }).dhcpSend p 3 ip
        else s
      | .ack ip mask router lease t1 t2 =>
        if !asked then s
        else (s.modPort p fun x =>
          { x with dhcp := .bound, leaseAt := s.now, lease := lease, tries := 0, serverMac := mac
                   t1 := t1.getD (lease / 2), t2 := t2.getD (7 * lease / 8) }).setAddr p ip mask router
      | .nak => if asked then (s.setAddr p 0 0 0).dhcpStart p else s := by
  subst own
  exact if_neg (by simp [mode, usable])

/-- Nothing happens in a pass that leaves the state for each of the list. -/
theorem State.each_eq_self {α : Type} {s : State} {l : List α} {f : State → α → State} (same : ∀ x ∈ l, f s x = s) : s.each l f = s := by
  induction l with
  | nil => rfl
  | cons x l ih =>
    obtain ⟨first, rest⟩ := List.forall_mem_cons.mp same
    show (f s x).each l f = s
    rw [first, ih rest]

theorem State.rd_modPort (s : State) (p : Nat) (f : Port → Port) (o : Obj) (i : Nat) : (s.modPort p f).rd o i = s.rd o i := by
  unfold State.modPort
  split <;> rfl

/-- Settles O46: the state of a port and of its client decides each event. -/
theorem linkEventsComplete : Obligations.LinkEventsComplete := by
  unfold Obligations.LinkEventsComplete
  refine fun n ip mask router lease mac target xid data => ⟨?up, ?upDhcp, ?errors, ?down, ?offer, ?ack, ?nak, ?retry, ?renew, ?rebind, ?expiry,
    ?request, ?cache, ?again, ?echo⟩
  case up =>
    rintro s ⟨mode, down, awake, rail, runs, static⟩
    refine congrArg (fun t : State => Host.Outcome.next (t.ptpMoved s.ptpPort)) ((State.linkOn_trained mode down awake rail runs).trans ?_)
    dsimp only
    rw [State.rd_holdFrom_modPort, if_neg static]
  case upDhcp =>
    rintro s ⟨mode, down, awake, rail, runs, dhcp⟩
    refine congrArg (fun t : State => Host.Outcome.next (t.ptpMoved s.ptpPort)) ((State.linkOn_trained mode down awake rail runs).trans ?_)
    dsimp only
    rw [State.rd_holdFrom_modPort, if_pos dhcp]
  case errors => exact fun s up => congrArg Host.Outcome.next ((if_neg (by simp [up])).trans (if_pos rfl))
  case down => exact fun s up => congrArg Host.Outcome.next ((if_neg (by simp [up])).trans (if_neg nofun))
  case offer =>
    rintro s ⟨mode, usable, own, selecting⟩
    exact congrArg Host.Outcome.next ((State.dhcpTake_own mode usable own _).trans (if_pos selecting))
  case ack =>
    rintro s ⟨mode, usable, own, requesting⟩
    exact congrArg Host.Outcome.next ((State.dhcpTake_own mode usable own _).trans (if_neg (by simp [requesting])))
  case nak =>
    rintro s ⟨mode, usable, own, renewing⟩
    exact congrArg Host.Outcome.next ((State.dhcpTake_own mode usable own _).trans (if_pos (by simp [renewing])))
  case retry => exact fun s met => congrArg Host.Outcome.next (if_pos met)
  case renew => exact fun s met => congrArg Host.Outcome.next (if_pos met)
  case rebind => exact fun s met => congrArg Host.Outcome.next (if_pos met)
  case expiry => exact fun s met => congrArg Host.Outcome.next (if_pos met)
  case request =>
    rintro s ⟨address, own⟩
    exact congrArg Host.Outcome.next (if_neg (by simp [address, own]))
  case cache =>
    intro s stopped
    refine congrArg Host.Outcome.next (State.each_eq_self fun k mem => if_pos ?_)
    rw [State.rd_modPort]
    exact stopped k mem
  case again => exact fun s met => congrArg Host.Outcome.next (if_pos met)
  case echo => exact fun s address => congrArg Host.Outcome.next (if_neg address)

end Sys2Proof.Machine

/-! SUPPORT. Time, streams, serial ports and the pair: each event under the conditions in which it does its work. -/
namespace Sys2Proof.Machine
open Sys2Proof

/-! ### Time (R364 to R369) -/

/-- The answer to the request in progress gives the mean delay. -/
theorem State.ptpTake_delayResp {s : State} {n id seq q d : Nat} {x : Int} (free : s.fencedSrc srcPtp = false) (awake : s.pwr.asleep = false)
    (carries : s.ptpCarries n = true) (ptp : s.rd .TIME_SRC = 0) (port : s.ptpPort = n) (endToEnd : s.rd .PTP_DELAY ≠ 1)
    (source : s.ptpSource = some id) (sync : s.clk.syncDiff = some x) (asked : s.clk.reqAt = some (seq, q)) (c log : Int) :
    s.ptpTake n (.delayResp id seq true d c log) =
      { s with clk := { s.clk with reqExp := (clampI 0 7 (log + 4)).toNat, reqAt := none, pdelay := none } }.wr .PTP_MEAN_DELAY 0 0
        (clampI 0 4294967295 (roundEven (x + ((d : Int) - q) * 65536 - c) 131072)) := by
  rw [State.ptpTake]
  dsimp only
  rw [if_neg (by simp [free, awake, carries]), if_neg (by simp [ptp, port, endToEnd, source]), sync, asked]
  exact if_pos rfl

theorem State.servoTimeout_silent {s : State} (locked : s.rd .PTP_STATE = 3) (silent : s.clk.lastSync + s.rdN .PTP_TIMEOUT * 1000000 ≤ s.now) :
    s.servoTimeout = (s.ptpSelect.servoTo 4).ptpMoved s.ptpPort := by
  have isLocked : s.rdN .PTP_STATE = 3 := by rw [State.rdN, locked]; rfl
  exact if_pos ⟨isLocked, by simp [silent]⟩

/-- A PPSIN edge leaves the selection of the source alone. -/
theorem State.timeSrc_ppsinLast (s : State) (v : Int) : (s.wr .PPSIN_LAST 0 0 v).rd .TIME_SRC = s.rd .TIME_SRC :=
  State.rd_wr_other s v (by decide)

theorem State.ppsEdge_other {s : State} (other : s.rd .TIME_SRC ≠ 1) :
    s.ppsEdge = (s.wr .PPSIN_LAST 0 0 s.stampNow).edge (selector 8 0 0) :=
  congrArg (State.edge · (selector 8 0 0)) (if_neg (by rw [State.timeSrc_ppsinLast]; exact other))

theorem State.ppsEdge_source {s : State} (source : s.rd .TIME_SRC = 1) :
    s.ppsEdge =
      let u := s.wr .PPSIN_LAST 0 0 s.stampNow
      ({ u with clk := { u.clk with ppsNext := none } }.servo ((s.tbp : Int) - (s.ppsSecond * 1000000000 : Nat))).edge (selector 8 0 0) :=
  congrArg (State.edge · (selector 8 0 0)) (if_pos (by rw [State.timeSrc_ppsinLast]; exact source))

/-! ### Streams (R193, R379 to R381) -/

/-- Where every block of a packet is readable, none is lost. -/
theorem filterMap_contains_nil {α : Type} (l : List (Nat × α)) :
    l.filterMap (fun x => if ([] : List Nat).contains x.1 then some x.2 else none) = [] :=
  List.filterMap_eq_nil_iff.mpr fun _ _ => rfl

theorem State.sendPacket_readable {s : State} {p c : Nat} (up : s.portUp p = true) (next : s.nextPacket p = some (true, c))
    (holds : 0 < (s.packetBlocks c p).length) : s.sendPacket p [] = s.sendRecords c p := by
  rw [State.sendPacket, next]
  refine (if_neg (by simp [up])).trans ?_
  dsimp only
  rw [filterMap_contains_nil]
  exact if_pos holds

theorem State.sendPacket_unreadable {s : State} {p c : Nat} (up : s.portUp p = true) (next : s.nextPacket p = some (true, c))
    (one : (s.packetBlocks c p).length = 1) : s.sendPacket p [0] = s.each (s.packetBlocks c p) fun s b => s.discardBlock c b := by
  obtain ⟨b, only⟩ := List.length_eq_one_iff.mp one
  rw [State.sendPacket, next]
  refine (if_neg (by simp [up])).trans ?_
  simp [only]

theorem State.sendPacket_aggs {s : State} {p k : Nat} (up : s.portUp p = true) (next : s.nextPacket p = some (false, k)) (bad : List Nat) :
    s.sendPacket p bad = s.sendAggs k p := by
  rw [State.sendPacket, next]
  exact if_neg (by simp [up])

/-- Settles O47: the servo's state, the pulses' instants and the streams' ports decide each event. -/
theorem timeAndStreamEventsComplete : Obligations.TimeAndStreamEventsComplete := by
  unfold Obligations.TimeAndStreamEventsComplete
  refine fun n d mac h q id seq k bad x c log msg => ⟨?delay, ?outside, ?ask, ?silent, ?pps, ?ppsSource, ?rise, ?fall, ?back, ?resolved, ?aggs,
    ?records, ?lost⟩
  case delay =>
    rintro s ⟨domain, free, awake, carries, ptp, port, endToEnd, source, sync, asked⟩
    exact congrArg Host.Outcome.next ((if_pos ⟨rfl, domain, rfl⟩).trans
      (State.ptpTake_delayResp free awake carries ptp port endToEnd source sync asked c log))
  case outside => exact fun s _ => congrArg Host.Outcome.next (if_neg fun inside => nomatch inside.2.2)
  case ask =>
    rintro s ⟨ptp, source, free, carries, due⟩
    exact congrArg Host.Outcome.next (if_pos ⟨ptp, source, by simp [free], carries, due⟩)
  case silent =>
    rintro s ⟨locked, silent⟩
    exact congrArg Host.Outcome.next (State.servoTimeout_silent locked silent)
  case pps =>
    rintro s ⟨awake, other⟩
    exact congrArg Host.Outcome.next ((if_neg (by simp [awake])).trans (State.ppsEdge_other other))
  case ppsSource =>
    rintro s ⟨awake, source⟩
    exact congrArg Host.Outcome.next ((if_neg (by simp [awake])).trans (State.ppsEdge_source source))
  case rise =>
    rintro s ⟨enabled, awake, low, due⟩
    exact congrArg Host.Outcome.next (if_pos ⟨enabled, by simp [awake], by simp [low], due⟩)
  case fall => exact fun s met => congrArg Host.Outcome.next (if_pos met)
  case back =>
    rintro s ⟨moved, good, due, up⟩
    refine congrArg Host.Outcome.next ?_
    rw [State.streamReturn, moved]
    dsimp only
    rw [good]
    exact if_pos ⟨due, up⟩
  case resolved => exact fun s runs => congrArg Host.Outcome.next (if_neg runs)
  case aggs =>
    rintro s ⟨up, next⟩
    exact congrArg Host.Outcome.next (State.sendPacket_aggs up next bad)
  case records =>
    rintro s ⟨up, next, holds⟩
    exact congrArg Host.Outcome.next (State.sendPacket_readable up next holds)
  case lost =>
    rintro s ⟨up, next, one⟩
    exact congrArg Host.Outcome.next (State.sendPacket_unreadable up next one)

/-! ### Serial ports (R389 to R402) -/

theorem State.mtxRestart_collided {s : State} {t : Txn} (cur : s.mtx.cur = some t) (waits : s.sp0.busBusy = true) (lost : s.sp0.mastering = false)
    (within : (s.mtx.waited + (s.now - s.mtx.start)) / 1000 ≤ s.rdN .SP0_WAIT_MAX) :
    s.mtxRestart =
      ({ s with mtx := { s.mtx with start := s.now, waited := s.mtx.waited + (s.now - s.mtx.start) } }.modSp 0 fun x =>
        { x with busBusy := false, mastering := true }).transfer t s.mtx.wordNs := by
  rw [State.mtxRestart, cur]
  dsimp only
  rw [if_pos ⟨waits, by simp [lost]⟩, State.sp0Waited_within within]
  rfl

theorem State.sp1Idle_list {s : State} {sel : Nat} {ws : List Nat} {a : Ans} (list : s.mbox.list = some (sel, ws, a)) (ok : s.listOk sel = true) :
    s.sp1Idle =
      let l := blobWords (s.rdV .SP1_TX).blob
      let u := s.modSp 1 fun x => { x with busBusy := false }
      ({ u with mbox := { u.mbox with list := some (sel, l, a), sel := sel, cfg := s.rdN .SEL_CFG (8 + sel) } }.send (.sp1 sel l)).modSp 1
        fun x => { x with mastering := true } := by
  have listed : (s.modSp 1 fun x => { x with busBusy := false }).mbox.list = some (sel, ws, a) := list
  have starts : s.sp1Master = (({ (s.modSp 1 fun x => { x with busBusy := false }) with mbox := { s.mbox with
        list := some (sel, blobWords (s.rdV .SP1_TX).blob, a), sel := sel, cfg := s.rdN .SEL_CFG (8 + sel) } } : State).send
      (.sp1 sel (blobWords (s.rdV .SP1_TX).blob))).modSp 1 fun x => { x with mastering := true } := by
    rw [State.sp1Master]
    dsimp only
    rw [listed]
    refine if_neg ?_
    show ¬ (!s.listOk sel) = true
    simp [ok]
  rw [State.sp1Idle, starts]
  rfl

theorem State.collide_mastering {s : State} {n : Nat} (masters : (s.sp n).mastering = true) (line : Nat) (replies : List Nat) :
    s.collide n line replies =
      let t := ((s.modSp n fun x => { x with mmFault := true }).inc .SP_COLLISIONS n).report (srcSp n) 0x32 0 line .transient
      if n = 0 then t.mtxCollide (!replies.isEmpty) else t.sp1End 1 replies :=
  if_neg (by simp [masters])

theorem State.slaveSelect_taken {s : State} (select : s.rd .SP1_SLAVE_SEL ≠ 0xFF) (role : s.sp1.role ≠ 0) (free : s.fencedSrc (srcSp 1) = false)
    (idle : s.sp1.mastering = false) (on : s.sp1.on = true) :
    s.slaveSelect =
      let sel := s.rdN .SP1_SLAVE_SEL
      let t := { s with mbox := { s.mbox with sel := sel, cfg := s.rdN .SEL_CFG (8 + sel) } }.modSp 1 fun x => { x with slave := true }
      match s.mbox.txq with
      | w :: _ => { t with mbox := { t.mbox with reply := some (w % 2 ^ s.sp1Wlen sel), fromQueue := true } }
      | [] => { t with mbox := { t.mbox with reply := some (busyPattern (s.sp1Wlen sel)), fromQueue := false } } :=
  if_neg (by simp [select, role, free, idle, on])

theorem State.sp1PollDue_allowed {s : State} (role : s.sp1Role = none) (on : s.sp1.on = true) (awake : s.pwr.entry < 2) :
    s.sp1PollDue = if s.mbox.list.isSome then s.inc .SP1_POLL_SKIPS else s.sp1Start (s.rdN .SP1_POLL_SEL) true none :=
  if_neg (by simp [role, on, awake])

/-- Settles O48: the bus, the slave's queues and the list decide each event. -/
theorem serialEventsComplete : Obligations.SerialEventsComplete := by
  unfold Obligations.SerialEventsComplete
  refine fun line replies ws sel w r m q a t => ⟨?restart, ?grant, ?list, ?collide0, ?collide1, ?queued, ?busy, ?word, ?full, ?partialWord, ?poll,
    ?skip, ?endUnused, ?endGood, ?endBad⟩
  case restart =>
    rintro s ⟨cur, waits, lost, within⟩
    exact congrArg Host.Outcome.next (State.mtxRestart_collided cur waits lost within)
  case grant =>
    rintro s ⟨free, waits, on⟩
    refine congrArg Host.Outcome.next ((if_pos rfl).trans ?_)
    rw [State.mtxRestart, free]
    exact if_pos ⟨waits, on⟩
  case list =>
    rintro s ⟨waits, notSlave, list, ok⟩
    exact congrArg Host.Outcome.next ((if_neg (by decide)).trans ((if_pos ⟨waits, by simp [notSlave]⟩).trans (State.sp1Idle_list list ok)))
  case collide0 => exact fun s masters => congrArg Host.Outcome.next (State.collide_mastering (n := 0) masters line replies)
  case collide1 => exact fun s masters => congrArg Host.Outcome.next (State.collide_mastering (n := 1) masters line replies)
  case queued =>
    rintro s ⟨select, role, free, idle, on, queue⟩
    refine congrArg Host.Outcome.next ((State.slaveSelect_taken select role free idle on).trans ?_)
    dsimp only
    rw [queue]
    rfl
  case busy =>
    rintro s ⟨select, role, free, idle, on, queue⟩
    refine congrArg Host.Outcome.next ((State.slaveSelect_taken select role free idle on).trans ?_)
    dsimp only
    rw [queue]
    rfl
  case word =>
    rintro s ⟨reply, room⟩
    refine congrArg Host.Outcome.next ?_
    rw [State.slaveDone, reply]
    simp [Nat.not_le.mpr room]
  case full =>
    rintro s ⟨reply, full⟩
    refine congrArg Host.Outcome.next ?_
    rw [State.slaveDone, reply]
    simp [full]
  case partialWord =>
    intro s reply
    refine congrArg Host.Outcome.next ?_
    rw [State.slaveCut, reply]
  case poll =>
    rintro s ⟨period, due, role, on, awake, free, ok⟩
    exact congrArg Host.Outcome.next ((if_pos ⟨period, due⟩).trans ((State.sp1PollDue_allowed role on awake).trans (if_neg (by simp [free]))))
  case skip =>
    rintro s ⟨period, due, role, on, awake, runs⟩
    exact congrArg Host.Outcome.next ((if_pos ⟨period, due⟩).trans ((State.sp1PollDue_allowed role on awake).trans (if_pos runs)))
  case endUnused =>
    rintro s ⟨list, masters, unused⟩
    refine congrArg Host.Outcome.next ?_
    rw [list]
    exact (if_neg (by simp [masters])).trans (if_neg (by simp [unused]))
  case endGood =>
    rintro s ⟨list, masters⟩
    refine congrArg Host.Outcome.next ?_
    rw [list]
    exact (if_neg (by simp [masters])).trans (if_neg nofun)
  case endBad =>
    rintro s ⟨list, masters, used⟩
    refine congrArg Host.Outcome.next ?_
    rw [list]
    exact (if_neg (by simp [masters])).trans (if_pos (by simp [used]))

/-! ### The pair (R403 to R421) -/

/-- Settles O49: each cell reaches a member that takes part in a pair. -/
theorem pairCellEventsComplete : Obligations.PairCellEventsComplete := by
  unfold Obligations.PairCellEventsComplete
  refine fun p lane n left g ms cs b ln => ⟨?refused, ?formed, ?heartbeat, ?state, ?config, ?fail, ?groupFail, ?handover, ?ack, ?discard⟩
  case refused =>
    rintro s ⟨on, lanes, state, fails⟩
    refine congrArg Host.Outcome.next ((if_pos ⟨on, lanes, state⟩).trans ?_)
    rw [State.form, fails]
  case formed =>
    rintro s ⟨on, lanes, state, passes⟩
    exact congrArg Host.Outcome.next (if_pos ⟨on, lanes, state⟩)
  case heartbeat => exact fun s on => congrArg Host.Outcome.next (if_pos on)
  case state =>
    rintro s ⟨on, linked⟩
    exact congrArg Host.Outcome.next ((if_neg (by simp [on])).trans (if_pos linked))
  case config =>
    rintro s ⟨on, linked⟩
    exact congrArg Host.Outcome.next ((if_neg (by simp [on])).trans (if_pos linked))
  case fail => exact fun s on => congrArg Host.Outcome.next (if_pos on)
  case groupFail => exact fun s on => congrArg Host.Outcome.next (if_pos on)
  case handover =>
    rintro s ⟨on, standsBy, ahead⟩
    exact congrArg Host.Outcome.next ((if_neg (by simp [on])).trans (if_pos ⟨standsBy, ahead⟩))
  case ack => exact fun s on => congrArg Host.Outcome.next (if_neg (by simp [on]))
  case discard => exact fun s met => congrArg Host.Outcome.next (if_pos met)

/-- Settles O50: each time is over. -/
theorem pairTimeoutsComplete : Obligations.PairTimeoutsComplete := by
  unfold Obligations.PairTimeoutsComplete
  refine fun g n m ln => ⟨?handover, ?lane, ?heartbeat, ?witness, ?toggle⟩
  case handover =>
    rintro s ⟨give, noAck, past⟩
    refine congrArg Host.Outcome.next ((if_pos ⟨by simp [give], by simp [noAck], past⟩).trans ?_)
    simp [State.giveEnd, give]
  case lane =>
    rintro s ⟨on, up, silent⟩
    have notRecent : (decide (ln.val < 2) && decide (s.now < (if ln.val = 0 then s.pair.lane0 else s.pair.lane1) + 2000)) = false :=
      Bool.and_eq_false_iff.mpr (silent.imp (fun h => decide_eq_false (Nat.not_lt.mpr h)) fun h => decide_eq_false (Nat.not_lt.mpr h))
    exact congrArg Host.Outcome.next (if_neg (by simp only [on, up, notRecent]; decide))
  case heartbeat =>
    rintro s ⟨on, linked, new, past, alone⟩
    exact congrArg Host.Outcome.next ((if_neg (by simp [on, linked, new, past])).trans (if_pos (congrArg not alone)))
  case witness =>
    rintro s ⟨on, witnessed, new, past, lost, linked⟩
    exact congrArg Host.Outcome.next ((if_neg (by simp [on, witnessed, new, past])).trans (if_pos ⟨lost, linked⟩))
  case toggle => exact fun s met => congrArg Host.Outcome.next (if_pos met)

end Sys2Proof.Machine

/-! SUPPORT. Drone, boot, power and configuration: each event under the conditions in which it does its work. -/
namespace Sys2Proof.Machine
open Sys2Proof

/-! ### Drone (R425 to R441) -/

theorem State.each_nil {α : Type} (s : State) (f : State → α → State) : s.each [] f = s := rfl

/-- A slice of the NVM scrub that does not end its pass. -/
theorem State.nvmScrubSlice_within {t : State} {n : Nat} (slice : t.drn.nvm = n) (within : n + 1 < 2592000) :
    (let u : State := { t with drn := { t.drn with nvm := (t.drn.nvm + 1) % 2592000, dueNvm := t.drn.dueNvm + 1000000000 } }
     let u := if t.drn.nvm + 1 < 2592000 then u
       else { u with nvm := { u.nvm with nvmPasses := satN 32 (u.nvm.nvmPasses + 1) } }.nvmPut (recPages 2)
     u.wr .SCRUB_NVM_POS 0 0 (u.drn.nvm * 2097152 / 2592000)) =
      { t with drn := { t.drn with nvm := n + 1, dueNvm := t.drn.dueNvm + 1000000000 } }.wr .SCRUB_NVM_POS 0 0
        (((n : Int) + 1) * 2097152 / 2592000) := by
  dsimp only
  rw [slice, if_pos within]
  dsimp only
  rw [Nat.mod_eq_of_lt within, Int.natCast_add]
  rfl

/-- A page whose turn has come is written and taken from the buffer. -/
theorem State.pageFlush_verified {s : State} {p : Nat × Nat} (free : s.pageFree p = true)
    (turn : (recPages 0).contains p = true ∨ (recPages 0).any s.pageFree = false) :
    s.pageFlush p true =
      { s.placeWrite p with drn := { s.drn with pageAt := s.drn.pageAt.put (fun _ => 0) (p.1 * 256 + p.2) (s.now + 1) } }.pageDone p := by
  refine (if_neg ?_).trans (if_pos rfl)
  rcases turn with reserves | none
  · simp only [free, reserves]
    simp
  · simp only [free, none]
    simp

/-- Settles O51: each activity is due, with its resource free. -/
theorem droneEventsComplete : Obligations.DroneEventsComplete := by
  unfold Obligations.DroneEventsComplete
  refine fun fs free m b page ppb => ⟨?sram, ?idle, ?nvm, ?log, ?telemetry, ?same, ?line, ?wire, ?flush, ?copied, ?realign, ?trim⟩
  case sram =>
    rintro s ⟨up, due⟩
    exact congrArg Host.Outcome.next (if_neg (by simp [up, due]))
  case idle =>
    rintro i (rfl | rfl | rfl) s waits
    all_goals
      refine congrArg Host.Outcome.next (if_pos ?_)
      rcases waits with taken | ⟨sram, nvm, log⟩
      · simp [taken]
      · simp [sram, nvm, log]
  case nvm =>
    rintro s ⟨up, due, more⟩
    have kept : (s.started .DRN_LATE_NVM s.drn.dueNvm 1000000000).drn.nvm = s.drn.nvm := by
      unfold State.started
      split <;> rfl
    refine congrArg Host.Outcome.next ((if_neg (by simp [up, due])).trans ?_)
    rw [State.each_nil]
    exact State.nvmScrubSlice_within kept more
  case log =>
    rintro s ⟨up, due⟩
    exact congrArg Host.Outcome.next (if_neg (by simp [up, due]))
  case telemetry =>
    rintro s ⟨up, second⟩
    exact congrArg Host.Outcome.next (if_neg (by simp [up, second]))
  case same =>
    rintro s ⟨up, second⟩
    exact congrArg Host.Outcome.next (if_pos (by simp [second]))
  case line =>
    rintro s ⟨up, due⟩
    exact congrArg Host.Outcome.next (if_pos ⟨up, by simp [State.dueAgain, due]⟩)
  case wire =>
    rintro s ⟨up, due, cluster, good⟩
    refine congrArg Host.Outcome.next ((if_pos ⟨up, by simp [State.dueAgain, due]⟩).trans ?_)
    exact congrArg (State.inc · .LINE_TESTS) (if_pos ⟨cluster, good⟩)
  case flush =>
    rintro s ⟨awake, bank, inBank, free, turn⟩
    refine congrArg Host.Outcome.next ((if_neg (by simp [awake])).trans ?_)
    rw [Nat.mod_eq_of_lt bank, Nat.mod_eq_of_lt inBank]
    exact State.pageFlush_verified free turn
  case copied =>
    rintro s ⟨copying, awake⟩
    refine congrArg Host.Outcome.next ?_
    rw [copying]
    exact if_neg (by simp [awake])
  case realign => exact fun s met => congrArg Host.Outcome.next (if_pos met)
  case trim => exact fun s met => congrArg Host.Outcome.next (if_pos met)

/-! ### Boot, supplies and resets (R446 to R454) -/

theorem State.eachSetTb_keeps (s : State) (l : List Nat) (v : Nat) :
    (s.each l fun s t => s.setTb t v).pwr = s.pwr ∧ (s.each l fun s t => s.setTb t v).now = s.now := by
  induction l generalizing s with
  | nil => exact ⟨rfl, rfl⟩
  | cons t l ih => exact ih (s.setTb t v)

theorem State.bootStage0_good {s : State} (rails : bits s.pwr.lost 0 7 = 0) (b : BootIn) :
    s.bootStage0 b = { (s.wr .BOOT_PINS 0 0 (b.bootPins % 4 : Nat)).each (List.range 25) fun s t => s.setTb t 1 with
      pwr := { s.pwr with stage := 1, bootFrom := s.now } } := by
  obtain ⟨pwr, now⟩ := State.eachSetTb_keeps (s.wr .BOOT_PINS 0 0 (b.bootPins % 4 : Nat)) (List.range 25) 1
  refine (if_neg (fun lost => lost rails)).trans ?_
  dsimp only
  rw [pwr, now]
  rfl

theorem State.bootStage1_locked (s : State) :
    s.bootStage1 = { s.each (rangeFrom 16 9) fun s t => s.setTb t 2 with pwr := { s.pwr with stage := 2 } } := by
  rw [State.bootStage1, (State.eachSetTb_keeps s (rangeFrom 16 9) 2).1]

theorem State.bootStage2_good {s : State} {b : BootIn} (slices : b.failedSlices = []) (test : b.testOk = true) :
    s.bootStage2 b = { s with pwr := { s.pwr with stage := 3 } } := by
  simp [State.bootStage2, slices, test, State.each]

theorem State.railLost_new {s : State} {i : Nat} (here : bit s.pwr.lost i = false) (core : i < 5) (running : s.pwr.stage ≠ 0) :
    s.railLost i = { s with pwr := { s.pwr with lost := setBit s.pwr.lost i true } }.report srcSup 0x38 0 i .grave :=
  (if_neg (by simp [here])).trans ((if_neg (by omega)).trans ((if_neg running).trans (if_pos core)))

theorem State.railsBack_restarts {s : State} (running : s.pwr.stage ≠ 0) (core : bits s.pwr.lost 0 5 ≠ 0) :
    s.railsBack = { s with pwr := { s.pwr with lost := 0 } }.restart 3 := if_pos ⟨running, core⟩

theorem State.railsBack_goes_on {s : State} (spared : s.pwr.stage = 0 ∨ bits s.pwr.lost 0 5 = 0) :
    s.railsBack = { s with pwr := { s.pwr with lost := 0 } }.lanesUp :=
  if_neg fun again => spared.elim again.1 again.2

theorem State.lanesUp_single {s : State} (single : s.rdT .PAIR_EN = false) : s.lanesUp = s := if_neg (by simp [single])

/-- Settles O52: the stage of the boot and the rails decide each event. -/
theorem bootEventsComplete : Obligations.BootEventsComplete := by
  unfold Obligations.BootEventsComplete
  refine fun b i d g => ⟨?stage0, ?stage1, ?stage2, ?stage3, ?stage4, ?refclk, ?core, ?vaon, ?restarts, ?single, ?paired, ?powerOn, ?nrst, ?host,
    ?lock⟩
  case stage0 =>
    rintro s ⟨stage, rails⟩
    refine congrArg Host.Outcome.next (Eq.trans ?_ (State.bootStage0_good rails b))
    rw [stage]
    rfl
  case stage1 =>
    intro s stage
    refine congrArg Host.Outcome.next (Eq.trans ?_ s.bootStage1_locked)
    rw [stage]
    rfl
  case stage2 =>
    rintro s ⟨stage, slices, test⟩
    refine congrArg Host.Outcome.next (Eq.trans ?_ (State.bootStage2_good slices test))
    rw [stage]
    rfl
  case stage3 =>
    intro s stage
    refine congrArg Host.Outcome.next ?_
    rw [stage]
    rfl
  case stage4 =>
    intro s stage
    refine congrArg Host.Outcome.next ?_
    rw [stage]
    rfl
  case refclk => exact fun s met => congrArg Host.Outcome.next (if_pos met)
  case core =>
    rintro s ⟨here, core, running⟩
    exact congrArg Host.Outcome.next (State.railLost_new here core running)
  case vaon =>
    rintro s ⟨here, six⟩
    refine congrArg Host.Outcome.next ((if_neg (by simp [here])).trans (if_pos six))
  case restarts =>
    rintro s ⟨running, core⟩
    exact congrArg Host.Outcome.next (State.railsBack_restarts running core)
  case single =>
    rintro s ⟨spared, single⟩
    exact congrArg Host.Outcome.next ((State.railsBack_goes_on spared).trans (State.lanesUp_single single))
  case paired =>
    rintro s ⟨spared, paired⟩
    exact congrArg Host.Outcome.next ((State.railsBack_goes_on spared).trans (if_pos paired))
  case powerOn => exact fun s _ => rfl
  case nrst => exact fun s _ => rfl
  case host =>
    rintro s ⟨asked, due⟩
    refine congrArg Host.Outcome.next ?_
    rw [asked]
    exact if_pos due
  case lock =>
    rintro s ⟨powered, off, runs⟩
    exact congrArg Host.Outcome.next (if_neg (by simp [powered, off, runs]))

/-! ### Deep sleep and power (R455 to R465) -/

theorem State.sleepQuiet_rest {s : State} (entry : s.pwr.entry = 2) (rest : s.quiesced = true)
    (blocks : ∀ c ∈ s.chan.map (·.1), (s.ch c).aper.block = []) (streams : ∀ k ∈ List.range 32, s.streamHolds k = false) :
    s.sleepQuiet = { s with pwr := { s.pwr with entry := 3 } }.commitStart [] := by
  have closed : (s.each (s.chan.map (·.1)) fun s c => if (s.ch c).aper.block.isEmpty then s else s.closeBlock c) = s :=
    State.each_eq_self fun c mem => if_pos (by rw [blocks c mem]; rfl)
  have none : (List.range 32).filter (fun k => s.streamHolds k) = [] :=
    List.filter_eq_nil_iff.mpr fun k mem => by simp [streams k mem]
  refine (if_neg (by simp [entry, rest])).trans ?_
  dsimp only
  rw [closed, none]
  rfl

/-- A pass that only changes the records of groups leaves the objects and the power state. -/
theorem State.eachModGr_keeps (s : State) (l : List Nat) (f : Group → Group) :
    (s.each l fun s g => s.modGr g f).od = s.od ∧ (s.each l fun s g => s.modGr g f).pwr = s.pwr := by
  induction l generalizing s with
  | nil => exact ⟨rfl, rfl⟩
  | cons g l ih => exact ih (s.modGr g f)

theorem State.vddcOn_congr {s t : State} (od : t.od = s.od) (pwr : t.pwr = s.pwr) : t.vddcOn = s.vddcOn := by
  simp only [State.vddcOn, State.framesRun, State.rd, State.rdV, od, pwr]

theorem State.vddcUp_low {s : State} (on : s.vddcOn = true)
    (low : ∃ g ∈ allGroups, ∃ p, (s.gr g).pace1 = some p ∧ (p : Int) < s.rd .PACE_ALARM) :
    s.vddcUp = (s.each allGroups fun s g => s.modGr g fun r => { r with pace1 := none }).wr .VDDC_TARGET 0 0
      (if 900 < s.rd .VDDC_TARGET + 10 then 900 else s.rd .VDDC_TARGET + 10) := by
  obtain ⟨od, pwr⟩ := State.eachModGr_keeps s allGroups fun r => { r with pace1 := none }
  obtain ⟨g, mem, p, pace, below⟩ := low
  refine if_pos (Bool.and_eq_true_iff.mpr ⟨(State.vddcOn_congr od pwr).trans on, List.any_eq_true.mpr ⟨g, mem, ?_⟩⟩)
  rw [pace]
  exact decide_eq_true below

theorem State.vddcDown_ample {s : State} (on : s.vddcOn = true) (measured : ∃ g ∈ allGroups, (s.gr g).pace100.isSome = true)
    (ample : ∀ g ∈ allGroups, ∀ p, (s.gr g).pace100 = some p → s.rd .PACE_ALARM + 64 ≤ (p : Int)) :
    s.vddcDown = (s.each allGroups fun s g => s.modGr g fun r => { r with pace100 := none }).wr .VDDC_TARGET 0 0
      (if s.rd .VDDC_TARGET - 5 < 650 then 650 else s.rd .VDDC_TARGET - 5) := by
  obtain ⟨od, pwr⟩ := State.eachModGr_keeps s allGroups fun r => { r with pace100 := none }
  obtain ⟨g, mem, isSome⟩ := measured
  obtain ⟨p, pace⟩ := Option.isSome_iff_exists.mp isSome
  have listed : p ∈ allGroups.filterMap fun g => (s.gr g).pace100 := List.mem_filterMap.mpr ⟨g, mem, pace⟩
  have notEmpty : (allGroups.filterMap fun g => (s.gr g).pace100).isEmpty = false :=
    List.isEmpty_eq_false_iff.mpr (List.ne_nil_of_mem listed)
  refine if_pos (Bool.and_eq_true_iff.mpr ⟨(State.vddcOn_congr od pwr).trans on, Bool.and_eq_true_iff.mpr ⟨by rw [notEmpty]; rfl, ?_⟩⟩)
  refine List.all_eq_true.mpr fun q mem => decide_eq_true ?_
  obtain ⟨k, group, margin⟩ := List.mem_filterMap.mp mem
  exact ample k group q margin

/-- Settles O53: the phase of the entry, the margins and the measurement decide each event. -/
theorem sleepAndPowerEventsComplete : Obligations.SleepAndPowerEventsComplete := by
  unfold Obligations.SleepAndPowerEventsComplete
  refine fun avpp avnn means total meas k n => ⟨?ramps, ?quiesce, ?commit, ?down, ?reached, ?wake, ?stepUp, ?stepDown, ?fallback, ?account⟩
  case ramps =>
    rintro s ⟨entry, ramped, stopped⟩
    refine congrArg Host.Outcome.next ((if_neg (by simp only [entry, ramped]; decide)).trans (State.each_eq_self fun g mem => if_pos ?_))
    obtain ⟨filt, start⟩ := stopped g mem
    exact ⟨filt, Option.isNone_iff_eq_none.mpr start⟩
  case quiesce =>
    rintro s ⟨entry, rest, blocks, streams⟩
    exact congrArg Host.Outcome.next (State.sleepQuiet_rest entry rest blocks streams)
  case commit =>
    rintro s ⟨entry, idle, written, noAnswer⟩
    refine congrArg Host.Outcome.next ((if_neg (by simp [entry, idle, written])).trans ?_)
    rw [noAnswer]
    rfl
  case down =>
    intro s entry orphans mtx list
    exact ⟨_, congrArg Host.Outcome.next (if_neg (by simp [entry, orphans, mtx, list])), rfl, rfl⟩
  case reached =>
    rintro s ⟨asleep, first, due⟩
    refine congrArg Host.Outcome.next ((if_pos ⟨asleep, due⟩).trans ?_)
    rw [State.wakeBy, first]
    rfl
  case wake => exact fun s _ => rfl
  case stepUp =>
    rintro s ⟨on, low⟩
    exact congrArg Host.Outcome.next (State.vddcUp_low on low)
  case stepDown =>
    rintro s ⟨on, measured, ample⟩
    exact congrArg Host.Outcome.next (State.vddcDown_ample on measured ample)
  case fallback =>
    rintro s ⟨on, far⟩
    exact congrArg Host.Outcome.next (if_pos (Bool.and_eq_true_iff.mpr ⟨on, decide_eq_true far⟩))
  case account => exact fun s runs => congrArg Host.Outcome.next (if_pos runs)

/-! ### Mode switches and image commits (R68, R69, R74) -/

theorem State.switchValidated_checked {s : State} {w : Switch} (cur : s.cfg.cur = some w) (groups : s.cfg.groupsLeft = []) :
    s.switchValidated = match s.switchCheck w (s.switchSet w.target) with
      | some (st, x) => s.switchReject w st x
      | none => s.switchApply w.target (s.switchSet w.target) := by
  rw [State.switchValidated, cur]
  exact if_neg (by simp [groups])

theorem State.commitEnd_session {s : State} {k q : Nat} {half : Half} {ws : List (Nat × List Int)}
    (commit : s.cfg.commit = some (some (k, q), half, ws)) (written : s.imageWaits = false) (ok : Bool) :
    s.commitEnd ok = (s.modSe (k % 16) fun x => { x with gated := false }).imageDone ok := by
  rw [State.commitEnd, if_neg (by simp [written]), commit]

theorem State.setIdle_keeps (s : State) (half : Half) :
    (s.setIdle half).nvm.active = s.nvm.active ∧ (s.setIdle half).nvm.imageCommits = s.nvm.imageCommits := by
  unfold State.setIdle
  split <;> exact ⟨rfl, rfl⟩

theorem State.imageDone_verified {s : State} {a : Ans} {half : Half} {ws : List (Nat × List Int)} (commit : s.cfg.commit = some (a, half, ws))
    (bank : s.bankDead 12 = false) (waves : ws = [] ∨ ∀ b ∈ rangeFrom 8 4, s.bankDead b = false) :
    s.imageDone true =
      let u := { s with cfg := { s.cfg with commit := none } }.setIdle half
      let u : State := { u with nvm := { u.nvm with
        active := 1 - s.nvm.active
        imageCommits := if s.nvm.imageCommits < 4294967295 then s.nvm.imageCommits + 1 else s.nvm.imageCommits } }
      ((u.each ws fun s w => s.setWave w.1 w.2).nvmPut (recPages 2)).answer a .OK := by
  obtain ⟨active, commits⟩ := State.setIdle_keeps { s with cfg := { s.cfg with commit := none } } half
  have alive : ¬ (!true || s.bankDead 12 || (!ws.isEmpty && (rangeFrom 8 4).any s.bankDead)) = true := by
    rcases waves with none | good
    · simp [bank, none]
    · have noneDead : (rangeFrom 8 4).any s.bankDead = false := List.any_eq_false.mpr fun b mem => by simp [good b mem]
      simp [bank, noneDead]
  rw [State.imageDone, commit]
  refine (if_neg alive).trans ?_
  dsimp only
  rw [active, commits]

/-- Settles O54: the check of the switch, and the verification of the image, decide. -/
theorem configEventsComplete : Obligations.ConfigEventsComplete := by
  unfold Obligations.ConfigEventsComplete
  refine fun w st at_ k q half ws => ⟨?applies, ?rejects, ?verified, ?failed⟩
  case applies =>
    rintro s ⟨cur, groups, passes⟩
    refine congrArg Host.Outcome.next ((State.switchValidated_checked cur groups).trans ?_)
    rw [passes]
  case rejects =>
    rintro s ⟨cur, groups, fails⟩
    refine congrArg Host.Outcome.next ((State.switchValidated_checked cur groups).trans ?_)
    rw [fails]
  case verified =>
    rintro s ⟨commit, written, bank, waves⟩
    exact congrArg Host.Outcome.next ((State.commitEnd_session commit written true).trans
      (State.imageDone_verified (s := s.modSe (k % 16) fun x => { x with gated := false }) commit bank waves))
  case failed =>
    rintro s ⟨commit, written⟩
    refine congrArg Host.Outcome.next ((State.commitEnd_session commit written false).trans ?_)
    rw [State.imageDone, show (s.modSe (k % 16) fun x => { x with gated := false }).cfg.commit = some (some (k, q), half, ws) from commit]
    rfl

end Sys2Proof.Machine
